-- ==== Sys2Proof/Word.lean ====
section
/-! DEFINITION. Word types of the Lomyr P48 panel: bytes, 32-bit registers (00_scope R5), 64-bit scratchpad words
(07_scratchpads R174), and the sparse map that holds every large store as plain data. -/
namespace Sys2Proof

/-- One byte of any memory of the panel. -/
abbrev Byte := BitVec 8

/-- One 32-bit register or scalar value (00_scope, Registers). -/
abbrev Word := BitVec 32

/-- One 64-bit scratchpad word, split-form word or check word. -/
abbrev Word64 := BitVec 64

/-- A sparse store: keys strictly rising, one entry a key. A store with a default lists no entry that equals it. -/
abbrev SMap (α : Type) := List (Nat × α)

/-- A byte store. Each entry is a `Host.Cell`: an address and a byte. -/
abbrev Memory := SMap Byte

end Sys2Proof
end

