-- ==== Sys2Proof/Syntax.lean ====
section
/-! DEFINITION. The commands of the block: one constructor per row of the opcode table, with the operands that the
outside gives it. Operands name engines, dies, cells, ports and the observations an event reports (a sensor reading, a
count of microseconds, the data of an answer). -/
namespace Sys2Proof

/-- Engine e00 to e47. -/
abbrev EngIx := Fin 48
/-- Logical die 0 to 3 (04_cell R79). -/
abbrev DieIx := Fin 4
/-- Matrix die position M0 to M4 (00_scope R3). -/
abbrev PosIx := Fin 5
/-- Logical cell c = row * 32 + column (04_cell R107). -/
abbrev CellIx := Fin 864
/-- Host port HP0 or HP1. -/
abbrev HostIx := Fin 2
/-- Function of a host port: 0 physical, 1 to 15 virtual (13_host_ports). -/
abbrev FnIx := Fin 16
/-- Link port LP0 to LP7. -/
abbrev LinkIx := Fin 8
/-- Guest site G0 to G3. -/
abbrev SiteIx := Fin 4
/-- DMA queue 0 to 63 of a hub. -/
abbrev QueueIx := Fin 64
/-- Fabric network: 0 vector, 1 scalar, 2 control. -/
abbrev NetIx := Fin 3

/-- Who makes a control-space request: a function of a host port, Easel, or the service role through Easel
(13_host_ports R333; 20_easel R509). -/
inductive Req where
  | host (port : HostIx) (fn : FnIx)
  | easel
  | service
  deriving DecidableEq, Repr

/-- A scratchpad of an engine: the hub's, or that of a logical cell (07_scratchpads R175, R176). -/
inductive SpSel where
  | hub
  | cell (d : DieIx) (c : CellIx)
  deriving DecidableEq, Repr

/-- How a context operation is issued: by a GO of a requester, or by a descriptor of a DMA queue (09_paged_tensors R241, R244). -/
inductive CtxSrc where
  | go (r : Req)
  | desc (q : QueueIx) (ix : Fin 65536)
  deriving DecidableEq, Repr

/-- Who reads a feed port: a READ stream of the engine's canvas, or a COPY in flight (13_host_ports R353). -/
inductive FeedReader where
  | stream (i : Fin 512)
  | copy (q : QueueIx) (ix : Fin 65536)
  deriving DecidableEq, Repr

/-- What the pairing exchange tells of the partner (14_links R392 to R396): the blocks of its stage, its mirrored regions as BASE, LEN
and MIRROR in 64 KiB units, the IMAGE_ID and digest of its engines' canvases, and the engine that each of its FEIDs names. -/
structure Partner where
  stage : Fin 1048577
  regions : List (Fin 0x100000000 × Fin 0x2000000 × Fin 0x100000000)
  canvases : List (EngIx × Fin 0x10000000000000000 × List Byte)
  feids : List (Fin 256 × EngIx)
  deriving DecidableEq, Repr

/-- What a MIRROR block is (14_links R393 to R395): block `i` of the varnish of partner engine `e`, entry `j` of the stage with the
address of its block, or a block of a region copied directly into the mirror. -/
inductive MirrorTo where
  | standin (e : EngIx) (i : Fin 16384)
  | stage (j : Fin 1048576) (block : Fin 0x1000000000)
  | seed (block : Fin 0x1000000000)
  deriving DecidableEq, Repr

/-- A Sekaen port: port `n` of engine `e` in the order of SK_PORT, or the ring or edge port of a guest site (15_sekaen R399, R416). -/
inductive SkPort where
  | die (e : EngIx) (n : Fin 14)
  | guest (g : SiteIx) (edge : Bool)
  deriving DecidableEq, Repr

/-- A finding of training or of the start-up test: KIND, UNIT and LOCATION of the defect-list entry it makes (17_bringup R450, R451). -/
structure Finding where
  kind : Fin 256
  unit : Fin 8
  location : Word
  deriving DecidableEq, Repr

/-- Where a mailbox request comes from: the mailbox of a host port's physical function, the management port, or the I3C sideband
(20_easel R516, R520). -/
inductive MbSrc where
  | port (p : HostIx)
  | mgmt
  | i3c
  deriving DecidableEq, Repr

/-- How Easel meets a mailbox request (20_easel R503, R505, R517): it carries it out, answers BUSY, fails to write both flash copies, or
is interrupted by a takeover. -/
inductive MbHow where
  | run
  | busy
  | flashFails
  | interrupted
  deriving DecidableEq, Repr



/-- The commands (the rows of the opcode table, in its order). -/
inductive Instr where
  /-- REGISTER_WRITE: A control-space write to a register with no behaviour of its own sets its fields, in arrival order, after the alignment and ownership checks. -/
  | registerWrite (r : Req) (bar4 : Bool) (off : Fin 0x10000000) (size : Fin 17) (v : Word64)
  /-- M_MMA: The matrix unit optionally clears its accumulators, then fetches A and B block-tiles and adds nb groups. -/
  | mMma (e : EngIx) (d : DieIx) (c : CellIx)
  /-- MMA_GROUP_ADD: A group add of an M.MMA is applied once earlier adds are done and any M.EMIT in progress has read its rows. -/
  | mmaGroupAdd (e : EngIx) (d : DieIx) (c : CellIx)
  /-- M_EMIT: The output stage reads the 32 accumulator rows and delivers them in the chosen output form. -/
  | mEmit (e : EngIx) (d : DieIx) (c : CellIx)
  /-- EMIT_ROW: The output stage reads one accumulator row once it holds credit for it, and rounds and delivers the row. -/
  | emitRow (e : EngIx) (d : DieIx) (c : CellIx)
  /-- M_MERGE: The matrix unit adds 1,024 carry-form images taken from a vector queue into its accumulators. -/
  | mMerge (e : EngIx) (d : DieIx) (c : CellIx)
  /-- M_CLR: The accumulators are cleared once any M.EMIT in progress has read its last row. -/
  | mClr (e : EngIx) (d : DieIx) (c : CellIx)
  /-- V_MOV: A vector register is copied to the destination. -/
  | vMov (e : EngIx) (d : DieIx) (c : CellIx)
  /-- V_ADD: A lane-wise FP32 add, rounded once. -/
  | vAdd (e : EngIx) (d : DieIx) (c : CellIx)
  /-- V_SUB: A lane-wise FP32 subtract, rounded once. -/
  | vSub (e : EngIx) (d : DieIx) (c : CellIx)
  /-- V_MUL: A lane-wise FP32 multiply, rounded once. -/
  | vMul (e : EngIx) (d : DieIx) (c : CellIx)
  /-- V_FMA: A lane-wise fused multiply-add, rounded once. -/
  | vFma (e : EngIx) (d : DieIx) (c : CellIx)
  /-- V_MAX: A lane-wise maximum. -/
  | vMax (e : EngIx) (d : DieIx) (c : CellIx)
  /-- V_MIN: A lane-wise minimum. -/
  | vMin (e : EngIx) (d : DieIx) (c : CellIx)
  /-- V_CMPLT: A lane-wise less-than compare that gives an all-ones or zero mask. -/
  | vCmplt (e : EngIx) (d : DieIx) (c : CellIx)
  /-- V_CMPEQ: A lane-wise equality compare that gives an all-ones or zero mask. -/
  | vCmpeq (e : EngIx) (d : DieIx) (c : CellIx)
  /-- V_SEL: Each lane takes va or vb according to the bit pattern of the vc lane. -/
  | vSel (e : EngIx) (d : DieIx) (c : CellIx)
  /-- V_BRD: A scalar register is broadcast to every lane. -/
  | vBrd (e : EngIx) (d : DieIx) (c : CellIx)
  /-- V_RND: Lanes are rounded to a format and returned as FP32. -/
  | vRnd (e : EngIx) (d : DieIx) (c : CellIx)
  /-- V_RED: The 64 lanes are reduced by a fixed sum or maximum tree, and the result goes to every lane. -/
  | vRed (e : EngIx) (d : DieIx) (c : CellIx)
  /-- V_EXP2: A lane-wise base-2 exponential. -/
  | vExp2 (e : EngIx) (d : DieIx) (c : CellIx)
  /-- V_LOG2: A lane-wise base-2 logarithm. -/
  | vLog2 (e : EngIx) (d : DieIx) (c : CellIx)
  /-- V_RCP: A lane-wise reciprocal. -/
  | vRcp (e : EngIx) (d : DieIx) (c : CellIx)
  /-- V_RSQ: A lane-wise reciprocal square root. -/
  | vRsq (e : EngIx) (d : DieIx) (c : CellIx)
  /-- V_LD: 64 elements are loaded from the scratchpad and converted exactly to FP32. -/
  | vLd (e : EngIx) (d : DieIx) (c : CellIx)
  /-- V_LDMX: Two MX blocks are loaded, scaled and rounded to FP32 lanes. -/
  | vLdmx (e : EngIx) (d : DieIx) (c : CellIx)
  /-- V_ST: Lanes are converted to a format and stored to the scratchpad. -/
  | vSt (e : EngIx) (d : DieIx) (c : CellIx)
  /-- V_STMX: Lanes are quantised into two MX blocks and stored with their scales. -/
  | vStmx (e : EngIx) (d : DieIx) (c : CellIx)
  /-- V_RECV: Four entries of a vector input queue are taken into a register. -/
  | vRecv (e : EngIx) (d : DieIx) (c : CellIx)
  /-- V_SEND: A register is sent as four entries to a vector output. -/
  | vSend (e : EngIx) (d : DieIx) (c : CellIx)
  /-- S_ADD: A scalar add, modulo 2^32. -/
  | sAdd (e : EngIx) (d : DieIx) (c : CellIx)
  /-- S_SUB: A scalar subtract, modulo 2^32. -/
  | sSub (e : EngIx) (d : DieIx) (c : CellIx)
  /-- S_AND: A scalar bitwise AND. -/
  | sAnd (e : EngIx) (d : DieIx) (c : CellIx)
  /-- S_OR: A scalar bitwise OR. -/
  | sOr (e : EngIx) (d : DieIx) (c : CellIx)
  /-- S_XOR: A scalar bitwise XOR. -/
  | sXor (e : EngIx) (d : DieIx) (c : CellIx)
  /-- S_SHL: A scalar left shift. -/
  | sShl (e : EngIx) (d : DieIx) (c : CellIx)
  /-- S_SHR: A scalar logical right shift. -/
  | sShr (e : EngIx) (d : DieIx) (c : CellIx)
  /-- S_SRA: A scalar arithmetic right shift. -/
  | sSra (e : EngIx) (d : DieIx) (c : CellIx)
  /-- S_MUL: The low 32 bits of a scalar product. -/
  | sMul (e : EngIx) (d : DieIx) (c : CellIx)
  /-- S_MIN: A signed scalar minimum. -/
  | sMin (e : EngIx) (d : DieIx) (c : CellIx)
  /-- S_MAX: A signed scalar maximum. -/
  | sMax (e : EngIx) (d : DieIx) (c : CellIx)
  /-- S_ADDI: A scalar add of an immediate. -/
  | sAddi (e : EngIx) (d : DieIx) (c : CellIx)
  /-- S_LUI: An immediate is loaded shifted left by 9. -/
  | sLui (e : EngIx) (d : DieIx) (c : CellIx)
  /-- S_CMP: A predicate is set from a register-register compare. -/
  | sCmp (e : EngIx) (d : DieIx) (c : CellIx)
  /-- S_CMPI: A predicate is set from a register-immediate compare. -/
  | sCmpi (e : EngIx) (d : DieIx) (c : CellIx)
  /-- S_BR: The sequencer branches to a slot, with two idle cycles when the branch is taken. -/
  | sBr (e : EngIx) (d : DieIx) (c : CellIx)
  /-- S_LD: A 32-bit word is loaded from the scratchpad. -/
  | sLd (e : EngIx) (d : DieIx) (c : CellIx)
  /-- S_ST: A 32-bit word is stored by an indivisible read, merge and write of its 64-bit word. -/
  | sSt (e : EngIx) (d : DieIx) (c : CellIx)
  /-- S_RECV: An entry is taken from a scalar input queue. -/
  | sRecv (e : EngIx) (d : DieIx) (c : CellIx)
  /-- S_SEND: A register is sent to a scalar output. -/
  | sSend (e : EngIx) (d : DieIx) (c : CellIx)
  /-- S_TOKR: A token is taken from a control queue. -/
  | sTokr (e : EngIx) (d : DieIx) (c : CellIx)
  /-- S_TOKS: A token is sent to a control output. -/
  | sToks (e : EngIx) (d : DieIx) (c : CellIx)
  /-- S_WAIT: The slot waits until an arrival counter reaches its target, and the counted words then become visible. -/
  | sWait (e : EngIx) (d : DieIx) (c : CellIx)
  /-- S_ACNT: An arrival counter is read into a register. -/
  | sAcnt (e : EngIx) (d : DieIx) (c : CellIx)
  /-- S_ASET: An arrival counter is set, ahead of any increment in the same cycle. -/
  | sAset (e : EngIx) (d : DieIx) (c : CellIx)
  /-- S_FLG: The numeric flags are read into a register. -/
  | sFlg (e : EngIx) (d : DieIx) (c : CellIx)
  /-- S_FLGC: The flags named are cleared, except any that hardware sets in the same cycle. -/
  | sFlgc (e : EngIx) (d : DieIx) (c : CellIx)
  /-- S_TIME: The low 32 bits of the engine cadence count are read. -/
  | sTime (e : EngIx) (d : DieIx) (c : CellIx)
  /-- S_GETL: One lane of a vector register is read into a scalar register. -/
  | sGetl (e : EngIx) (d : DieIx) (c : CellIx)
  /-- S_GEND: The glaze is ended after this slot. -/
  | sGend (e : EngIx) (d : DieIx) (c : CellIx)
  /-- CELL_GLAZE_END: A cell ends its glaze when the ITER count of iterations is complete. -/
  | cellGlazeEnd (e : EngIx) (d : DieIx) (c : CellIx)
  /-- ROUTE_HOP: A fabric entry moves one hop, or through a fan-out or a crossing, once the next stage has room. -/
  | routeHop (e : EngIx) (d : DieIx) (c : CellIx) (net : NetIx) (pt : Fin 12)
  /-- STEER_FIRE: A steering unit fires under its token once the data and the room it needs are present. -/
  | steerFire (e : EngIx) (d : DieIx) (c : CellIx) (unit : Fin 4)
  /-- STALL_QUIET_BITE: The quiet count of a die reaches its limit, and a stall fault is raised. -/
  | stallQuietBite (e : EngIx) (d : DieIx)
  /-- STALL_AGE_BITE: A blocked transfer's age reaches its limit, and a stall fault is raised. -/
  | stallAgeBite (e : EngIx) (d : DieIx)
  /-- FAB_FAULT_CLEAR: Clearing a FAB_FAULT check bit restarts that check's counts. -/
  | fabFaultClear (r : Req) (e : EngIx) (m : PosIx) (v : Word)
  /-- CANVAS_LOAD: A LOAD write stops the engine's cells and starts reading the canvas container from HBM. -/
  | canvasLoad (r : Req) (e : EngIx)
  /-- CANVAS_LOAD_STANDBY: A LOAD with STANDBY set loads the canvas as a standby. -/
  | canvasLoadStandby (r : Req) (e : EngIx)
  /-- CANVAS_HEADER_CHECK: Once the header and directory have been read, the stage-1 checks run. -/
  | canvasHeaderCheck (e : EngIx)
  /-- CANVAS_SECTION_APPLY: An arriving section applies bank power and zero-fill, and writes slots, descriptors and route words. -/
  | canvasSectionApply (e : EngIx)
  /-- CELL_DATA_WRITE: The CELL_DATA of a die is written once its zero-fill has completed. -/
  | cellDataWrite (e : EngIx) (d : DieIx)
  /-- CANVAS_BLOCK_CHECK_FAIL: A block fails its check during the load, the load ends with BLOCK_CHECK, and STATE becomes EMPTY. -/
  | canvasBlockCheckFail (e : EngIx)
  /-- CANVAS_LOAD_COMPLETE: After the last byte, the digest, key and signature checks and the remaining checks run, and STATE becomes READY, STANDBY or EMPTY. -/
  | canvasLoadComplete (e : EngIx)
  /-- CANVAS_START: START runs the sequence from step 0, at the next period start when the canvas has a period plan. -/
  | canvasStart (r : Req) (e : EngIx)
  /-- CANVAS_STOP: STOP moves a running engine to STOPPING, which ends at the next glaze switch. -/
  | canvasStop (r : Req) (e : EngIx)
  /-- CANVAS_UNLOAD: UNLOAD discards the canvas and disarms the covered engines of a standby. -/
  | canvasUnload (r : Req) (e : EngIx)
  /-- GLAZE_SWITCH: Once every cell has ended and every in-flight entry has been delivered, the hub switches all four dies to the next run. -/
  | glazeSwitch (e : EngIx)
  /-- STBY_ARM: ARM on a covered engine asks the standby hub whether the arming conditions hold. -/
  | stbyArm (r : Req) (e : EngIx) (v : Word)
  /-- STBY_ARM_REPLY: The standby's answer arrives and ENG_STBY_ARM shows the result. -/
  | stbyArmReply (e : EngIx)
  /-- STBY_DISARM: DISARM stops the covered engine sending varnish and commits. -/
  | stbyDisarm (r : Req) (e : EngIx) (v : Word)
  /-- STBY_COVER_WRITE: A write of ENG_STBY_COVER applies to later arms, and clearing a bit disarms that engine. -/
  | stbyCoverWrite (r : Req) (e : EngIx) (n : Fin 2) (v : Word)
  /-- VARNISH_COMMIT: A whole commit message makes its buffer current at the standby. -/
  | varnishCommit (e : EngIx)
  /-- STANDBY_ACTIVATE: The containment notice of an armed covered engine starts activation, static mapping and the varnish restore. -/
  | standbyActivate (e : EngIx)
  /-- STANDBY_RESTORE_DONE: The varnish copy ends, the context table is loaded, the FEIDs are adopted, and the standby waits for the period start. -/
  | standbyRestoreDone (e : EngIx)
  /-- SPM_POWER_REQUEST: A bank state request starts a transition, or is held until the transition in progress ends. -/
  | spmPowerRequest (r : Req) (e : EngIx) (v : Word)
  /-- SPM_POWER_DONE: A bank's transition completes and any held request starts. -/
  | spmPowerDone (e : EngIx) (b : Fin 16)
  /-- SPM_ZERO_START: ENG_SPM_ZERO starts zero-filling the named engine banks, four at a time. -/
  | spmZeroStart (r : Req) (e : EngIx) (v : Word)
  /-- SPM_ZERO_DONE: The zero-fill of an engine bank completes and the next waiting bank starts. -/
  | spmZeroDone (e : EngIx) (b : Fin 16)
  /-- CELL_ZERO_FILL_DONE: A die's cell zero-fill completes at load. -/
  | cellZeroFillDone (e : EngIx) (d : DieIx)
  /-- REMOTE_WRITE: A remote write to a scratchpad writes its words and raises the named counter, or is refused. -/
  | remoteWrite (e : EngIx) (sp : SpSel) (a : Fin 0x10000000) (counter : Fin 256) (data : List Byte)
  /-- REMOTE_READ: A remote read reads whole words and returns the bytes asked for. -/
  | remoteRead (e : EngIx) (sp : SpSel) (a : Fin 0x10000000) (n : Fin 8192) (by' : Option EngIx)
  /-- CORRECTED_WRITEBACK: A bank writes a corrected word back in its next free cycle. -/
  | correctedWriteback (e : EngIx) (sp : SpSel) (b : Fin 16)
  /-- CE_CLR: The corrected-error counts of ENG_SPM_ERR are cleared. -/
  | ceClr (r : Req) (e : EngIx) (v : Word)
  /-- ACNT_SETI: An engine arrival counter is set to ENG_ACNT_SETV.VALUE. -/
  | acntSeti (r : Req) (e : EngIx) (v : Word)
  /-- HBM_ACCESS: The controller performs an HBM access, retrying once on a parity error, or completes with HBM_UE. -/
  | hbmAccess (e : EngIx) (st : Fin 2) (j : Fin 0x1000000) (write corrected parity fails : Bool)
  /-- STACK_TEMP_READ: Every 1 ms the stack temperature is read, and refresh is doubled or restored. -/
  | stackTempRead (e : EngIx) (st : Fin 2) (temp : Fin 256)
  /-- HUB_BLOCK_WRITE: The hub writes a whole block with a new check word. -/
  | hubBlockWrite (e : EngIx) (st : Fin 2) (j : Fin 16744448) (data : Vector Byte 4096)
  /-- HUB_BLOCK_READ: The hub reads a whole block and verifies its check, completing with CHECK_FAIL on failure. -/
  | hubBlockRead (e : EngIx) (st : Fin 2) (j : Fin 16744448) (by' : Option EngIx)
  /-- PARTIAL_WRITE_HOLD: A partial block write is held in an assembly buffer, evicting the oldest buffer when none is free. -/
  | partialWriteHold (e : EngIx) (st : Fin 2) (j : Fin 16744448) (off : Fin 4096) (data : List Byte)
  /-- ASSEMBLY_TIMEOUT: At 2 µs the hub merges the held bytes into the verified block and writes it. -/
  | assemblyTimeout (e : EngIx) (st : Fin 2) (j : Fin 16744448)
  /-- SCRUB_BLOCK: The scrubber verifies the next block and counts a failure. -/
  | scrubBlock (e : EngIx)
  /-- DMAQ_TAIL_WRITE: A new TAIL makes descriptors available, or halts a queue whose TAIL runs too far ahead. -/
  | dmaqTailWrite (r : Req) (e : EngIx) (q : QueueIx) (v : Word)
  /-- DMA_DESC_START: A queue starts its next descriptor once fewer than 8 are in flight and any FENCE is satisfied. -/
  | dmaDescStart (e : EngIx) (q : QueueIx)
  /-- DMA_COPY: COPY moves rows from source to destination in 4 KiB pieces. -/
  | dmaCopy (e : EngIx) (q : QueueIx) (ix : Fin 65536) (code : Fin 16) (data : List Byte)
  /-- DMA_FILL: FILL writes a pattern into every word of the destination rows. -/
  | dmaFill (e : EngIx) (q : QueueIx) (ix : Fin 65536)
  /-- DMA_NOP: A NOP descriptor completes. -/
  | dmaNop (e : EngIx) (q : QueueIx) (ix : Fin 65536)
  /-- DMA_PIECE_ACK: A destination acknowledges a piece write and the named counter rises. -/
  | dmaPieceAck (e : EngIx) (q : QueueIx) (ix : Fin 65536) (code : Fin 16)
  /-- DMA_DESC_COMPLETE: A descriptor completes, DONE advances, and on error the queue halts. -/
  | dmaDescComplete (e : EngIx) (q : QueueIx) (ix : Fin 65536)
  /-- DMAQ_RESUME: RESUME restarts a halted queue at the failing descriptor. -/
  | dmaqResume (r : Req) (e : EngIx) (q : QueueIx)
  /-- DMAQ_SKIP: SKIP counts the failing descriptor and restarts at the next one. -/
  | dmaqSkip (r : Req) (e : EngIx) (q : QueueIx)
  /-- DMAQ_CLEAR: CLEAR zeroes TAIL, HEAD, DONE and STATUS of a disabled and idle queue. -/
  | dmaqClear (r : Req) (e : EngIx) (q : QueueIx)
  /-- STREAM_READ_ENTRY: A READ stream sends its next 64-byte entry on the channel against a credit. -/
  | streamReadEntry (e : EngIx) (ix : Fin 512) (code : Fin 16) (data : List Byte)
  /-- STREAM_WRITE_ENTRY: A WRITE stream writes an arriving vector entry and counts it. -/
  | streamWriteEntry (e : EngIx) (ix : Fin 512)
  /-- STREAM_DOORBELL: A DOORBELL entry writes the TAIL of a DMA queue. -/
  | streamDoorbell (e : EngIx) (ix : Fin 512)
  /-- MERGE_WINDOW_CLOSE: A read-merge entry closes at the end of its 32-cycle window. -/
  | mergeWindowClose (e : EngIx) (line : Fin 0x400000)
  /-- MC_ERR_CLEAR: A write to MC_ERR clears its three counts. -/
  | mcErrClear (r : Req) (e : EngIx) (st : Fin 2) (v : Word)
  /-- PAGED_GATHER: GATHER copies rows from a context to an ordinary destination through the walker. -/
  | pagedGather (e : EngIx) (q : QueueIx) (ix : Fin 65536)
  /-- PAGED_SCATTER: SCATTER copies rows from an ordinary source into a context through the walker. -/
  | pagedScatter (e : EngIx) (q : QueueIx) (ix : Fin 65536) (code : Fin 16) (data : List Byte)
  /-- BIND: BIND takes the lowest free context ID and sets its list, CAP and LENGTH. -/
  | bind (e : EngIx) (src : CtxSrc)
  /-- EXTEND: EXTEND raises LENGTH by COUNT within CAP. -/
  | extend (e : EngIx) (src : CtxSrc)
  /-- SHRINK: SHRINK lowers LENGTH at once and completes after the affected pieces drain. -/
  | shrink (e : EngIx) (src : CtxSrc)
  /-- UNBIND: UNBIND frees the record, raises GEN, and completes after the drain. -/
  | unbind (e : EngIx) (src : CtxSrc)
  /-- REFRESH: REFRESH discards the cached list entries of a context. -/
  | refresh (e : EngIx) (src : CtxSrc)
  /-- CTXOP_DRAIN_DONE: The last piece translated through a removed entry completes, and the SHRINK or UNBIND completes. -/
  | ctxopDrainDone (e : EngIx)
  /-- WALK: The walker translates a piece's context offset to a panel address or fails it. -/
  | walk (e : EngIx) (q : QueueIx) (ix : Fin 65536)
  /-- WALK_MISS_FILL: A missing list line arrives and the pieces waiting on it translate. -/
  | walkMissFill (e : EngIx) (id : Fin 4096) (line : Fin 4096)
  /-- VS_SNAP: A snapshot swaps the live and frozen banks, or is counted as missed. -/
  | vsSnap (r : Req) (e : EngIx) (v : Word)
  /-- VS_READY: The frozen bank is complete, READY rises, and an export starts if it is enabled. -/
  | vsReady (e : EngIx)
  /-- VS_EXPORT_DONE: The export completes, and on failure it stops and reports. -/
  | vsExportDone (e : EngIx)
  /-- VS_MISSED_CLEAR: A write clears VS_MISSED. -/
  | vsMissedClear (r : Req) (e : EngIx) (v : Word)
  /-- STALL_CLEAR: VS_STALL_CTRL.CLEAR zeroes every stall counter of the engine. -/
  | stallClear (r : Req) (e : EngIx) (v : Word)
  /-- TORUS_HOP: A router forwards a packet on its primary or alternate output, or raises ROUTE_LOST. -/
  | torusHop (ix : Fin 65536) (credit : Bool)
  /-- FLIT_REPLAY: A CRC error makes the receiver ask again, and the sender replays from its retry buffer. -/
  | flitReplay (e : EngIx) (n : Fin 8)
  /-- LANE_GROUP_FAIL: A failed lane group is replaced by the spare or lowers the link rate. -/
  | laneGroupFail (e : EngIx) (n : Fin 8) (reply : Bool) (group : Fin 9)
  /-- RING_FORWARD: A ring stop forwards a flit on the ring or exchanges it with its router. -/
  | ringForward (ix : Fin 65536) (credit : Bool)
  /-- POSITION_DOWN: A down announcement makes every router answer or discard the traffic for that position. -/
  | positionDown (p : Fin 64)
  /-- POSITION_UP: An up announcement returns a position to normal routing. -/
  | positionUp (p : Fin 64)
  /-- ADOPTION_BROADCAST: Every router rewrites the FEID map entries of the contained engine to the standby's position. -/
  | adoptionBroadcast
  /-- RESOURCE_WDOG_BITE: A granted requester that stops too long loses the grant, and its packet is aborted and answered with TARGET_RESET. -/
  | resourceWdogBite (e : EngIx) (net : Fin 5) (port : Fin 8) (ix : Option (Fin 65536))
  /-- INJECT_ADMIT: A request packet is injected once the token bucket holds its charge. -/
  | injectAdmit (e : EngIx) (net : NetIx) (dst : Fin 64) (spread : Option (Fin 96)) (bytes : Fin 4097) (reply : Fin 4097)
  /-- SYNC_MISMATCH: The two rails disagree for more than 40 ns, and SYNC_MISMATCH is reported. -/
  | syncMismatch (e : EngIx)
  /-- NET_BAR_ARRIVE: An arrival at the barrier is recorded, or sets PENDING or OVERRUN. -/
  | netBarArrive (r : Req) (e : EngIx) (v : Word)
  /-- BARRIER_RELEASE: Once all members have arrived, the channel releases them, raises GEN and raises events. -/
  | barrierRelease (p : Fin 16)
  /-- NET_ABORT_ASSERT: A write of NET_ABORT asserts the partition's abort line. -/
  | netAbortAssert (r : Req) (e : EngIx) (v : Word)
  /-- ABORT_LINE: An asserted abort line stops the engine's cells, discards its fabric state and restarts the sequence at the next period. -/
  | abortLine (e : EngIx)
  /-- REF_SOURCE_SWITCH: An engine that sees no reference edge for 50 ns switches source or enters holdover. -/
  | refSourceSwitch (e : EngIx) (primary alternate : Bool)
  /-- REF_SOURCE_RETURN: When a source becomes usable again, the engine returns to it. -/
  | refSourceReturn (e : EngIx) (primary alternate : Bool)
  /-- OSC_STRETCH: A droop of VDD_LOGIC stretches the oscillator period, and recovery restores it. -/
  | oscStretch (e : EngIx) (mhz : Fin 1024)
  /-- MARGIN_WARN: The replica warnings within 1 ms reach the limit, and MARGIN_WARN is raised. -/
  | marginWarn (e : EngIx) (m : Fin 6) (path : Fin 16) (n : Fin 128)
  /-- MARGIN_LOST: A replica fails at 827 MHz, and MARGIN_LOST is raised. -/
  | marginLost (e : EngIx) (m : Fin 6) (path : Fin 16) (n : Fin 128)
  /-- SYNC_EDGE: The master sends a sync edge every 10,000 ticks, and each engine slews, steps or holds its count. -/
  | syncEdge (lost : Fin 0x1000000000000)
  /-- SYNC_MISS: No edge arrives for 15 µs, a miss is counted, and after four misses TIME_UNLOCK is raised. -/
  | syncMiss (e : EngIx)
  /-- CAD_SET: CAD_CTRL.SET sets the master count at the next sync edge, or is discarded. -/
  | cadSet (r : Req) (v : Word)
  /-- BEAT_CFG_WRITE: A write of CAD_BEAT_CFG selects a source, enters ACQUIRE, or re-arms a stuck BEAT_IN. -/
  | beatCfgWrite (r : Req) (v : Word)
  /-- BEAT_ACCEPT: A beat that passes the filters corrects the master count and locks. -/
  | beatAccept (wide : Bool) (time : Word64)
  /-- BEAT_MISSING: A beat window closes empty, so the master enters HOLDOVER, and after eight misses LOST. -/
  | beatMissing
  /-- BEAT_STUCK: BEAT_IN stays active beyond half a period, is declared stuck and is ignored. -/
  | beatStuck
  /-- PTM_DIALOGUE: The port runs one PTM dialogue per beat period, and a missing response counts as a missing beat. -/
  | ptmDialogue (reply : Option Word64)
  /-- PART_GRID_WRITE: A write of a partition's origin or period is applied or discarded with CFG_REJ. -/
  | partGridWrite (r : Req) (p : Fin 16) (ix : Fin 3) (v : Word)
  /-- PHASE_BOUNDARY: A phase ends once its target and its work are reached, and the next phase or period starts with its compression. -/
  | phaseBoundary (e : EngIx)
  /-- SCHED_LOST: An engine's lag exceeds four periods, and SCHED_LOST is raised once per episode. -/
  | schedLost (e : EngIx)
  /-- REALIGN: REALIGN drops the rest of the period at the end of the phase and resets the lag to 0. -/
  | realign (r : Req) (e : EngIx) (v : Word)
  /-- HOST_LINK_UP: A host port trains once its die is up and becomes enumerable. -/
  | hostLinkUp (p : HostIx) (width : Fin 17) (rate : Fin 6) (reversed : Bool)
  /-- CONFIG_REQUEST: A configuration request is answered, with retry status until the port is ready. -/
  | configRequest (p : HostIx) (fn : FnIx) (dw : Fin 1024) (write : Option Word)
  /-- APERTURE_ACCESS: A host request in the aperture is mapped through its window to a panel address. -/
  | apertureAccess (p : HostIx) (fn : FnIx) (off : Fin 0x1000000000) (n : Fin 4097) (write : Option (List Byte))
  /-- HOST_REQ_TIMEOUT: A non-posted host request with no outcome within 1 ms completes with Completer Abort. -/
  | hostReqTimeout (p : HostIx)
  /-- HOST_MEM_REQUEST: The panel issues a request to host memory, and an error or timeout ends it with HOST_ERR. -/
  | hostMemRequest (e : EngIx) (q : QueueIx) (ix : Fin 65536) (code : Fin 16) (data : List Byte)
  /-- EVENT_RECORD: An engine event is written to the owner's event ring and signalled, or dropped. -/
  | eventRecord (e : EngIx)
  /-- QC_CREATE: CREATE binds the lowest free command context, or returns QCTX_FULL. -/
  | qcCreate (r : Req) (p : HostIx) (fn : FnIx) (v : Word)
  /-- QC_DESTROY: DESTROY stops fetching, lets the current command end, and frees the context. -/
  | qcDestroy (r : Req) (p : HostIx) (fn : FnIx) (v : Word)
  /-- QC_RESUME: RESUME restarts a halted context at the failed command. -/
  | qcResume (r : Req) (p : HostIx) (fn : FnIx) (v : Word)
  /-- QC_SKIP: SKIP restarts a halted context after the failed command. -/
  | qcSkip (r : Req) (p : HostIx) (fn : FnIx) (v : Word)
  /-- CMD_TAIL_WRITE: A doorbell CMD_TAIL write makes new commands available to the context. -/
  | cmdTailWrite (p : HostIx) (fn : FnIx) (k : Fin 64) (v : Word)
  /-- CMD_FETCH: The context's fetch of commands from the host ring completes, or ends with FETCH_ERR. -/
  | cmdFetch (p : HostIx) (k : Fin 64) (ok : Bool) (data : List Byte)
  /-- CMD_SUBMIT: SUBMIT waits for room, writes the descriptor into the DMA ring and advances TAIL. -/
  | cmdSubmit (p : HostIx) (k : Fin 64)
  /-- CMD_WRITE: A WRITE command writes a value into the engine's block. -/
  | cmdWrite (p : HostIx) (k : Fin 64)
  /-- CMD_NOP: A NOP command completes. -/
  | cmdNop (p : HostIx) (k : Fin 64)
  /-- QUEUE_STUCK: A SUBMIT that finds no room within 10 ms ends with QUEUE_STUCK. -/
  | queueStuck (p : HostIx) (k : Fin 64)
  /-- FEED_DATA: Bytes written to FEED_DATA are appended to the open packet, or discarded with OVERRUN and DAMAGED. -/
  | feedData (p : HostIx) (fn : FnIx) (f : Fin 16) (off : Fin 2048) (data : List Byte) (enabled : Bool)
  /-- FEED_END: FEED_END closes the open packet with its PRIO. -/
  | feedEnd (p : HostIx) (fn : FnIx) (f : Fin 16) (v : Word)
  /-- FEED_PORT_READ: An engine reads the feed port and waits for the entries it needs. -/
  | feedPortRead (e : EngIx) (from' : FeedReader)
  /-- FEED_DELIVER: Queue entries are delivered to a waiting read in the configured order, and a notice follows a packet's last entry. -/
  | feedDeliver (p : HostIx) (f : Fin 16) (corrected bad : Bool)
  /-- FLUSH: FLUSH discards the queue's words and clears its error state. -/
  | flush (r : Req) (p : HostIx) (f : Fin 16) (v : Word)
  /-- FQ_CFG_WRITE: A write of FQ_CFG binds the queue, or is discarded with CFG_REJ. -/
  | fqCfgWrite (r : Req) (p : HostIx) (f : Fin 16) (v : Word)
  /-- FQ_ERR_CLEAR: A write to FQ_ERR clears both counts. -/
  | fqErrClear (r : Req) (p : HostIx) (f : Fin 16) (v : Word)
  /-- PERST_ASSERT: An accepted assertion of PERST# starts a port reset, and narrow pulses are counted. -/
  | perstAssert (p : HostIx) (asserted narrow : Bool)
  /-- PERST_STUCK: PERST# asserted for 10 s is declared stuck and treated as released. -/
  | perstStuck (p : HostIx)
  /-- PORT_RESET: A surprise down, PERST#, hot reset or Link Disable stops the port and starts its drain. -/
  | portReset (p : HostIx) (surprise : Bool)
  /-- PORT_RESET_DRAIN_END: At 100 µs the contexts are freed, the feed queues are flushed, and the port's registers reset. -/
  | portResetDrainEnd (p : HostIx)
  /-- FUNCTION_LEVEL_RESET: An FLR resets one function's contexts, rings and queues. -/
  | functionLevelReset (p : HostIx) (fn : FnIx)
  /-- LINK_PRESENCE: Cable or module presence, once debounced, starts link training. -/
  | linkPresence (p : LinkIx) (present : Bool)
  /-- LINK_TRAIN: A port trains, locks, exchanges capabilities and measures its delay, then goes UP or MISMATCH. -/
  | linkTrain (p : LinkIx) (locked : Bool) (failed : Fin 65536) (version : Fin 256) (panel : Fin 65536) (port : LinkIx) (delay : Fin 65536)
  /-- LINK_RETRAIN: A port that loses lock, or whose peer resets, retrains from step 3. -/
  | linkRetrain (p : LinkIx)
  /-- RETRAIN: LNK_PORT_CTRL.RETRAIN trains the port again from step 1. -/
  | retrain (r : Req) (p : LinkIx) (v : Word)
  /-- LINK_PACKET_RX: A link packet is received, checked and acknowledged, or discarded with a NAK. -/
  | linkPacketRx (p : LinkIx) (ack : Fin 65536) (bad : Bool) (data : List Byte)
  /-- LINK_NAK_REPLAY: A NAK makes the sender replay from the next unacknowledged packet. -/
  | linkNakReplay (p : LinkIx) (ack : Fin 65536)
  /-- LINK_LANE_FAIL: A failed lane sends LINK_MGMT and narrows the port, or takes it DOWN. -/
  | linkLaneFail (p : LinkIx) (lane : Fin 16)
  /-- LINK_WIDTH_CHANGE: Both ends change to the new lane set at the flit boundary after the peer's acknowledgement. -/
  | linkWidthChange (p : LinkIx) (failed : Fin 65536)
  /-- LINK_HOLD_TIMEOUT: A held packet waiting 50 µs is removed, and a port held 50 µs goes DOWN. -/
  | linkHoldTimeout (p : LinkIx)
  /-- LINK_FORWARD: A link die routes a bulk packet to this panel, to a remote entry, or answers it. -/
  | linkForward (p : LinkIx)
  /-- LINK_REQ_TIMEOUT: A remote request with no reply within LNK_TIMEOUT completes with LINK_ABORT. -/
  | linkReqTimeout (e : EngIx) (q : QueueIx) (ix : Fin 65536)
  /-- RESET_NOTICE: A received RESET_NOTICE holds the port and reroutes its traffic to an alternate port. -/
  | resetNotice (p : LinkIx)
  /-- BEAT_TX: A port sends a BEAT when the master count passes a beat-period multiple. -/
  | beatTx (p : LinkIx)
  /-- COLL_DATA: A collective contribution is added, and a complete word goes to the parent or becomes the result. -/
  | collData (p : Option LinkIx)
  /-- COLL_RESULT: A received result is written, counted and passed to the children. -/
  | collResult (p : LinkIx)
  /-- COLL_ABORT: A collective aborts, discards its partial words, spreads the abort and asserts the abort lines. -/
  | collAbort (c : Fin 64) (p : Option LinkIx)
  /-- COLL_TIMEOUT: A started step with no contribution for COLL_TIMEOUT aborts the collective. -/
  | collTimeout (c : Fin 64)
  /-- COLL_ABORT_CMD: LNK_COLL_CTRL.ABORT aborts the collective with cause 8. -/
  | collAbortCmd (r : Req) (c : Fin 64) (v : Word)
  /-- COLL_RESET: LNK_COLL_CTRL.RESET re-arms the collective at step 0. -/
  | collReset (r : Req) (c : Fin 64) (v : Word)
  /-- VERDICT_RX: A new verdict is forwarded on the chain ports and passed to Easel. -/
  | verdictRx (p : LinkIx)
  /-- EXPEL_CLEAR: Clearing LNK_EXPEL.VALID readmits the panel. -/
  | expelClear (r : Req) (ix : Fin 16) (v : Word)
  /-- PAIR_ENABLE: Setting ENABLE starts the pairing exchange and its checks. -/
  | pairEnable (r : Req) (v : Word) (partner : Partner)
  /-- MIRROR: A MIRROR block is received into a stand-in buffer or the stage. -/
  | mirror (dest : MirrorTo) (data : Vector Byte 4096)
  /-- PAIR_COMMIT: A whole commit makes the stand-in buffers current and starts the apply. -/
  | pairCommit (period : Word) (copied : Bool)
  /-- PAIR_APPLY_DONE: The apply of the stage into the mirror ends, and the next period's MIRROR packets are accepted. -/
  | pairApplyDone
  /-- PAIR_BEAT: Every 1 µs each panel sends PAIR_BEAT on both pair ports. -/
  | pairBeat
  /-- PAIR_FAIL: A received PAIR_FAIL makes a protected panel take over its partner's engines. -/
  | pairFail (p : LinkIx)
  /-- PAIR_SPLIT: No PAIR_BEAT for 3 µs puts the pair in SPLIT. -/
  | pairSplit
  /-- TAKEOVER: TAKEOVER written in SPLIT runs the takeover from step 1. -/
  | takeover (r : Req) (v : Word)
  /-- ADOPT: A received ADOPT is written to a free LNK_REDIR entry, or counted and ignored. -/
  | adopt (p : LinkIx)
  /-- SK_LINK_UP: A Sekaen port trains, repairs lanes and exchanges capabilities, then comes up or enters MISMATCH. -/
  | skLinkUp (port : SkPort) (failed : List (Fin 16 × Fin 64)) (record : Vector Byte 32)
  /-- SK_LANE_FAIL: A lane failing in service is repaired, or the port narrows. -/
  | skLaneFail (port : SkPort) (m : Fin 16) (lane : Fin 64)
  /-- SK_PORT_DOWN: An internal port goes down, and its crossing reroutes or the die or engine goes out of service. -/
  | skPortDown (e : EngIx) (n : Fin 14)
  /-- GUEST_PRESENCE: A filtered change of GPRES_N powers or removes a guest. -/
  | guestPresence (g : SiteIx) (present : Bool)
  /-- GUEST_TRIP: Overcurrent or GTHERM_N switches VDD_G off and raises GUEST_TRIP. -/
  | guestTrip (g : SiteIx)
  /-- ADMIT: ADMIT admits a qualified guest. -/
  | admitSite (r : Req) (g : SiteIx) (v : Word)
  /-- REVOKE: REVOKE withdraws admission, and the guest's position goes down. -/
  | revoke (r : Req) (g : SiteIx) (v : Word)
  /-- GUEST_RESET: SK_GUEST_CTRL.RESET asserts GRST_N. -/
  | guestReset (r : Req) (g : SiteIx) (v : Word)
  /-- RELEASE: RELEASE releases GRST_N. -/
  | release (r : Req) (g : SiteIx) (v : Word)
  /-- GUEST_PACKET: A guest packet is accepted as a request or discarded as bad. -/
  | guestPacket (g : SiteIx) (edge : Bool) (data : List Byte)
  /-- GUEST_WINDOW_REQUEST: A request in a guest window is delivered to the guest, or refused. -/
  | guestWindowRequest (g : SiteIx) (e : EngIx) (off : Fin 0x4000000000) (n : Fin 4097) (write : Option (List Byte))
  /-- GUEST_TIMEOUT: A guest that does not answer in time has the request completed with TARGET_RESET. -/
  | guestTimeout (g : SiteIx)
  /-- VSTAGE_UPDATE: Every 2 µs the engine moves its vertical-stage set point from the lowest sensor reading. -/
  | vstageUpdate (e : EngIx) (min : Fin 2048) (die : Fin 6)
  /-- REG_STAGE_FAIL: A regulator stage fails, is switched out, and may limit the clock or take the die out. -/
  | regStageFail (e : EngIx) (die : Fin 6) (stage : Fin 24)
  /-- PHASE_FAIL: A vertical-stage phase fails, is switched out, and may limit draw or open the breaker. -/
  | phaseFail (e : EngIx) (phase : Fin 16)
  /-- INPUT_SAMPLE: Every 1 µs the tray samples the input and raises INPUT_LOW or INPUT_HIGH. -/
  | inputSample (decivolt amps : Fin 65536) (draws : List (Fin 65536 × Fin 65536)) (buses : Vector (Fin 65536) 9) (edge : Fin 65536)
  /-- INPUT_LOST: The input out of range for 50 µs stops the tray and opens every breaker. -/
  | inputLost
  /-- THROTTLE_STEP: Every 10 µs over the limit, throttle levels rise, and every 100 µs below it they fall. -/
  | throttleStep
  /-- BREAKER_TRIP: An engine breaker opens on overcurrent, short or loss, and the engine goes dark and is contained. -/
  | breakerTrip (e : EngIx) (cause : Fin 3)
  /-- ON: ON requests a reservation for the engine and queues it for a ramp slot. -/
  | on (r : Req) (e : EngIx) (v : Word)
  /-- RAMP_START: An engine takes a free ramp slot and ramps VIN_AUX and VIN_CORE. -/
  | rampStart (e : EngIx)
  /-- RAMP_PAUSE: The ramp pauses while the column bus is below 5.70 V. -/
  | rampPause (e : EngIx) (mv : Fin 65536)
  /-- RAMP_RESUME: After 10 µs at 5.85 V or above, the ramp resumes. -/
  | rampResume (e : EngIx) (mv : Fin 65536)
  /-- RAMP_ABORT: Pauses adding up to 5 ms abandon the ramp. -/
  | rampAbort (e : EngIx)
  /-- RAMP_DONE: VIN_CORE reaches its set point, the rails come up, and engine bring-up begins. -/
  | rampDone (e : EngIx)
  /-- OFF: OFF stops a ramp or brings the rails down and releases the reservation. -/
  | off (r : Req) (e : EngIx) (v : Word)
  /-- EDGE_UV: A link-domain rail below 90 % for 10 µs raises EDGE_UV. -/
  | edgeUv
  /-- PWRGD_ACCEPT: PWRGD held for 10 ms is accepted and starts power-on. -/
  | pwrgdAccept
  /-- PWRGD_LOSS: A PWRGD deassertion of 100 µs or more starts a full reset without the link domain. -/
  | pwrgdLoss (ns : Fin 0x100000000)
  /-- MRST_ASSERT: An accepted MRST_N assertion starts a full reset. -/
  | mrstAssert (asserted : Bool) (ns : Fin 0x100000000)
  /-- MRST_STUCK: MRST_N held 10 s is declared stuck and treated as released. -/
  | mrstStuck
  /-- ALWAYS_ON_UP: The always-on domain comes up, latches the straps and starts the cadence master. -/
  | alwaysOnUp (mode : Fin 4) (supervised tray : Bool)
  /-- EASEL_BOOT: The boot ROM verifies and starts the firmware slot with the higher usable SVN. -/
  | easelBoot (bad : Fin 4) (standby : Bool)
  /-- GROUND_VERIFY: The ground image, defect list and records are verified and the mode is checked, or the panel halts. -/
  | groundVerify (bad : Fin 2048)
  /-- EDGE_UP: The tray, link domain and qualifying guests come up. -/
  | edgeUp (clear : Bool)
  /-- GESSO_WAVE: A wave of up to six engines in distinct columns requests reservations and ramps. -/
  | gessoWave
  /-- ENG_CLOCK_LOCK: The engine's oscillator locks, its cadence count loads, and the tree delay is measured. -/
  | engClockLock (e : EngIx)
  /-- ENG_TRAIN_TEST: Sekaen, torus and HBM training and the start-up test complete. -/
  | engTrainTest (e : EngIx) (trained : Fin 4) (links : Fin 256) (findings : List Finding)
  /-- ENG_DEFECT_UPDATE: Easel appends findings and sets the spare, cell, row and clock mappings. -/
  | engDefectUpdate (e : EngIx)
  /-- ENG_ENTER_SERVICE: The engine enters service, or its result is recorded and it is switched off or kept for spread. -/
  | engEnterService (e : EngIx)
  /-- PANEL_READY: Every engine taken up has settled, and PNL_BOOT shows READY. -/
  | panelReady
  /-- VERIFY: The supervised command VERIFY carries out step 3. -/
  | verify (r : Req)
  /-- EDGE: The supervised command EDGE carries out step 4. -/
  | edge (r : Req)
  /-- POWER: The supervised command POWER runs gesso waves over the named engines. -/
  | power (r : Req)
  /-- CLOCK: The supervised command CLOCK runs step a. -/
  | clock (r : Req)
  /-- TRAIN: The supervised command TRAIN runs the training of step b. -/
  | train (r : Req)
  /-- TEST: The supervised command TEST runs the start-up test. -/
  | test (r : Req)
  /-- DEFECTS: The supervised command DEFECTS runs step c. -/
  | defects (r : Req)
  /-- SERVICE: The supervised command SERVICE runs step d. -/
  | service (r : Req)
  /-- STEP_OFF: The supervised command OFF switches the named engines off. -/
  | stepOff (r : Req)
  /-- READY: The supervised command READY carries out step 6. -/
  | ready (r : Req)
  /-- CELL_RESET: ENG_RESET.CELL resets one logical cell to the state of R90. -/
  | cellReset (r : Req) (e : EngIx) (v : Word)
  /-- DIE_RESET: ENG_RESET.DIE resets one logical die and discards its fabric and canvas. -/
  | dieReset (r : Req) (e : EngIx) (v : Word)
  /-- ENGINE_RESET: An engine reset stops the engine, drains its requests and announces it down. -/
  | engineReset (r : Req) (v : Word)
  /-- ENGINE_RESET_MC: From 2 µs the memory controllers reset while the stacks stay in self refresh. -/
  | engineResetMc (e : EngIx)
  /-- ENGINE_RESET_DONE: The hub, cells and fabric take their reset state, and the engine announces itself up. -/
  | engineResetDone (e : EngIx)
  /-- PARTITION_RESET: A partition reset runs the engine reset on every engine of the partition and asserts its abort line. -/
  | partitionReset (r : Req) (v : Word)
  /-- COMPUTE_RESET: A compute reset resets every engine and asserts the panel abort line. -/
  | computeReset (r : Req) (v : Word)
  /-- FULL_RESET: A full reset aborts everything, resets the ports, guests and link dies, and restarts from step 4. -/
  | fullReset (r : Req) (v : Word)
  /-- FULL_RESET_APPLY: At 2 µs the straps are read, the image comes into force, the engines are switched off and the link domain resets or powers down. -/
  | fullResetApply (mode : Fin 4) (supervised tray passes : Bool) (bad : Fin 2048)
  /-- FAULT_REPORT: The collector records a fault, works out its severity and starts its action. -/
  | faultReport (src : Fin 128) (scope : Fin 256) (detail : Word) (consumer : Option EngIx)
  /-- FAULT_PULSE_END: The 10 µs FAULT_N pulse ends, and the pin is released unless HOLD is set. -/
  | faultPulseEnd
  /-- FAULT_INJECT: FLT_INJECT raises a marked fault with all its actions except power cuts. -/
  | faultInject (r : Req) (v : Word)
  /-- JUNCTION_SAMPLE: Every 100 µs junction sensors are read, and TEMP_HIGH or TEMP_TRIP is acted on. -/
  | junctionSample (e : EngIx) (temps : Vector (Fin 256) 48)
  /-- THERMAL_LEVEL_STEP: The thermal level rises every 1 ms when hot and falls every 10 ms when cool. -/
  | thermalLevelStep (e : EngIx)
  /-- COOLANT_SAMPLE: Every 100 ms inlet and outlet are read, and INLET_RANGE is raised or re-armed. -/
  | coolantSample (inlet inlet2 outlet outlet2 : Fin 4096)
  /-- FLOW_PULSE: A FLOW_TACH pulse is accepted, or ignored as narrow or fast. -/
  | flowPulse (ns : Fin 0x100000000)
  /-- FLOW_UPDATE: Every 100 ms the flow is recomputed, and FLOW_LOW is raised or re-armed. -/
  | flowUpdate
  /-- FLOW_ZERO: No pulse for the 12 L/min interval makes the flow read 0 at once. -/
  | flowZero
  /-- FLOW_STUCK: FLOW_TACH active for over 1 s is declared stuck and ignored. -/
  | flowStuck
  /-- REARM: THM_FLOW_CFG.REARM takes up a stuck FLOW_TACH again. -/
  | rearm (r : Req) (v : Word)
  /-- SHUTDOWN_LINK_OFF: At 50 µs after FLOW_CRIT the link domain and tray are powered down. -/
  | shutdownLinkOff
  /-- THERMAL_CYCLE_SAMPLE: Every 100 ms J is sampled, and recognised reversals are rainflow-counted. -/
  | thermalCycleSample (e : EngIx)
  /-- THERMAL_CYCLE_SAVE: Every 60 s the cycle counts are kept in flash. -/
  | thermalCycleSave
  /-- EASEL_LOAD_WINDOW: At the end of each 10 ms window Easel adjusts its shed level. -/
  | easelLoadWindow (load : Fin 101)
  /-- EASEL_TAKEOVER: The standby takes over the drives, the collector and the mailbox, and resumes the duties. -/
  | easelTakeover (cause : Fin 2)
  /-- EASEL_RESUME: The new active firmware resumes every duty from the replicated state. -/
  | easelResume
  /-- INFO: INFO returns the identity and role words. -/
  | info (src : MbSrc) (seq : Word) (how : MbHow)
  /-- GET_CERT: GET_CERT returns the device certificate. -/
  | getCert (src : MbSrc) (seq : Word) (how : MbHow)
  /-- ATTEST: ATTEST returns a report signed with the device key. -/
  | attest (src : MbSrc) (seq : Word) (how : MbHow) (nonce : Vector Byte 32)
  /-- IMG_BEGIN: IMG_BEGIN opens an image delivery. -/
  | imgBegin (src : MbSrc) (seq : Word) (how : MbHow) (kind : Fin 256) (total : Word)
  /-- IMG_CHUNK: IMG_CHUNK delivers a piece of the image. -/
  | imgChunk (src : MbSrc) (seq : Word) (how : MbHow) (off : Word) (data : List Byte)
  /-- IMG_END: IMG_END checks the image and writes it to flash. -/
  | imgEnd (src : MbSrc) (seq : Word) (how : MbHow)
  /-- IMG_ABORT: IMG_ABORT abandons the delivery. -/
  | imgAbort (src : MbSrc) (seq : Word) (how : MbHow)
  /-- IMG_IDLE_TIMEOUT: A delivery idle for 60 s is abandoned. -/
  | imgIdleTimeout
  /-- FW_ACTIVATE: FW_ACTIVATE restarts the standby on the new slot and hands over. -/
  | fwActivate (src : MbSrc) (seq : Word) (how : MbHow) (found : Fin 256)
  /-- HANDOVER: HANDOVER offers the panel-owner role to the other port. -/
  | handover (src : MbSrc) (seq : Word) (how : MbHow) (port : Fin 256)
  /-- ACCEPT: ACCEPT takes an offered role. -/
  | accept (src : MbSrc) (seq : Word) (how : MbHow)
  /-- HANDOVER_LAPSE: A handover not accepted within 10 s lapses. -/
  | handoverLapse
  /-- SET_OWNER: SET_OWNER moves the role at once. -/
  | setOwner (src : MbSrc) (seq : Word) (how : MbHow) (port : Fin 256)
  /-- SET_TOKEN: SET_TOKEN sets or removes the service token. -/
  | setToken (src : MbSrc) (seq : Word) (how : MbHow) (token : Vector Byte 32)
  /-- OWNER_KEY: OWNER_KEY sets or removes an owner key. -/
  | ownerKey (src : MbSrc) (seq : Word) (how : MbHow) (slot : Fin 256) (key : Vector Byte 68)
  /-- CHAIN_KEY: CHAIN_KEY sets the chain key. -/
  | chainKey (src : MbSrc) (seq : Word) (how : MbHow) (key : Vector Byte 32)
  /-- SUPERVISE_NEXT: SUPERVISE_NEXT requests a supervised next bring-up. -/
  | superviseNext (src : MbSrc) (seq : Word) (how : MbHow)
  /-- LOG_READ: LOG_READ returns change-record entries from flash. -/
  | logRead (src : MbSrc) (seq : Word) (how : MbHow) (first : Word64) (count : Fin 65536)
  /-- LOG_CHECKPOINT: LOG_CHECKPOINT returns a held signed checkpoint. -/
  | logCheckpoint (src : MbSrc) (seq : Word) (how : MbHow) (at' : Word64)
  /-- DEFECT_READ: DEFECT_READ returns the defect-list header and entries. -/
  | defectRead (src : MbSrc) (seq : Word) (how : MbHow) (first : Word) (count : Fin 65536)
  /-- TELEMETRY: TELEMETRY returns the latest sample. -/
  | telemetry (src : MbSrc) (seq : Word) (how : MbHow)
  /-- VERDICT: VERDICT issues a tagged verdict on the chain. -/
  | verdict (src : MbSrc) (seq : Word) (how : MbHow) (target : Fin 65536) (epoch : Word) (reason : Byte)
  /-- VERDICT_CHECK: Easel checks a received verdict and writes LNK_EXPEL on a majority. -/
  | verdictCheck
  /-- REG_READ: REG_READ reads a control-space register for the service role. -/
  | regRead (src : MbSrc) (seq : Word) (how : MbHow) (off : Word)
  /-- REG_WRITE: REG_WRITE writes a register with owner rights, entered as service. -/
  | regWrite (src : MbSrc) (seq : Word) (how : MbHow) (off : Word) (v : Word)
  /-- OPEN: OPEN returns a session nonce. -/
  | open (src : MbSrc) (seq : Word) (how : MbHow)
  /-- PROVE: PROVE opens a service session, or returns AUTH and blocks OPEN for 10 s. -/
  | prove (src : MbSrc) (seq : Word) (how : MbHow) (proof : Vector Byte 32)
  /-- CLOSE: CLOSE ends the service session. -/
  | close (src : MbSrc) (seq : Word) (how : MbHow)
  /-- SESSION_IDLE: A session without a frame for 10 minutes closes. -/
  | sessionIdle
  /-- MGMT_FRAME: A management frame is checked by its tag and carries a mailbox request. -/
  | mgmtFrame (frame : List Byte) (how : MbHow)
  /-- LOG_DRAIN: Easel drains FIFO entries to flash, chains them and signs checkpoints. -/
  | logDrain (n : Fin 4097)
  /-- LOG_UTC_COMMIT: A write of LOG_UTC[1] commits UTC with the master count. -/
  | logUtcCommit (r : Req) (v : Word)
  /-- DEFECT_APPEND: Easel appends a defect entry and re-signs the list. -/
  | defectAppend
  /-- MATE_ASSERT: MATE_N held for 10 ms is accepted, and the tray switch may close and soft-start. -/
  | mateAssert
  /-- MATE_BREAK: An accepted break of MATE_N sends PAIR_FAIL and takes the INPUT_LOST action at once. -/
  | mateBreak (ns : Fin 0x100000000)
  /-- CPRSNT_ASSERT: CPRSNT_N held for 10 ms is accepted and the port trains. -/
  | cprsntAssert (p : HostIx)
  /-- CPRSNT_DEASSERT: An accepted CPRSNT_N deassertion is a surprise down of the port. -/
  | cprsntDeassert (p : HostIx) (ns : Fin 0x100000000)
  /-- CAGE_OVERPOWER: A cage module over 30 W has its power switched off. -/
  | cageOverpower (p : LinkIx)
  /-- AUX_3V3_LOSS: Loss of AUX 3.3 V counts as loss of module input power, so PAIR_FAIL is sent and the always-on domain goes down. -/
  | aux3v3Loss
  /-- NO_LOCK: An engine whose oscillator has not locked within 1 ms of its ramp is switched off with RESULT 3 CLOCK. -/
  | noLock (e : EngIx)
  /-- TELEMETRY_SAMPLE: Easel takes a telemetry sample every 1 ms, or every 100 ms at shed level 3, which TELEMETRY then returns. -/
  | telemetrySample
  /-- CAD_ENG_DROOP_CLEAR: A write of any value to CAD_ENG_DROOP clears DROOPS and sets MIN_FREQ to 940. -/
  | cadEngDroopClear (r : Req) (e : EngIx) (v : Word)
  /-- CAD_ENG_MARGIN_CLEAR: A write of any value to CAD_ENG_MARGIN clears WARN. -/
  | cadEngMarginClear (r : Req) (e : EngIx) (v : Word)
  /-- CAD_BEAT_CNT_CLEAR: A write of any value to CAD_BEAT_CNT clears its three counts. -/
  | cadBeatCntClear (r : Req) (v : Word)
  /-- LNK_PORT_CNT_CLEAR: A write of any value to an LNK_PORT_CNT word clears that word. -/
  | lnkPortCntClear (r : Req) (p : LinkIx) (n : Fin 2) (v : Word)
  /-- LNK_REDIR_CLEAR: A write of any value to an LNK_REDIR entry clears the entry, ending the redirection. -/
  | lnkRedirClear (r : Req) (ix : Fin 16) (v : Word)
  /-- SK_GUEST_ERR_CLEAR: A write of any value to SK_GUEST_ERR clears its BAD count in bits 15:0. -/
  | skGuestErrClear (r : Req) (g : SiteIx) (v : Word)
  /-- THM_FLOW_CNT_CLEAR: A write of any value to THM_FLOW_CNT clears both counts. -/
  | thmFlowCntClear (r : Req) (v : Word)
  /-- THM_ENG_STAT_WRITE: A write of any value to THM_ENG_STAT restarts the MAX junction record. -/
  | thmEngStatWrite (r : Req) (e : EngIx) (v : Word)
  /-- DMAQ_ENABLE: Setting ENG_DMAQ_CFG.ENABLE takes up ENG_DMAQ_BASE and starts the queue, and clearing it halts the queue after its descriptors in flight. -/
  | dmaqEnable (r : Req) (e : EngIx) (q : QueueIx) (v : Word)
  /-- COLL_ENABLE: A write setting LNK_COLL_CFG.ENABLE arms the collective record, or is refused with CFG_REJ when DIAMETER exceeds HORIZON. -/
  | collEnable (r : Req) (c : Fin 64) (v : Word)
  deriving DecidableEq, Repr

end Sys2Proof
end

