-- ==== Sys2Proof/Config.lean ====
section
/-! DEFINITION. Free values: what the spec leaves open, as constants without a body, so that nothing can be proved of
them; and the external standards the spec only names (SHAKE256, KMAC256, XMSS), uninterpreted. -/
namespace Sys2Proof.Config

/-- Value number `n` that a read of an undefined scratchpad word returns (07_scratchpads R185). Log 1. -/
opaque freeWord64 : Nat → Word64

/-- Whether undefined read number `n` meets an uncorrectable error (07_scratchpads R185). Log 1. -/
opaque freeUe : Nat → Bool

/-- Whether EXP2 (code 0), LOG2 (1), RCP (2) or RSQ (3) of an operand gives the magnitude next above the truncated
one: these two are the FP32 values within 1 ulp (04_cell R100). Log 2. -/
opaque specialUp : Nat → Word → Bool

/-- The result of RCP on an operand whose reciprocal lies beyond the FP32 range: no rule states it. Log 2. -/
opaque rcpOverflow : Word → Word

/-- What an exact image V × 2^LEXP adds to a plain exact accumulator where it is no multiple of 2^-50 (03 R70 states
no result). Log 8. -/
opaque freeImage : Int → Int → Int

/-- SHAKE256 with a 256-bit output (FIPS 202), named by 06_canvases_glazes R145. Log 4. -/
opaque shake256 : List Byte → List Byte

/-- KMAC256 (NIST SP 800-185) of key, message and customisation string, 256 bits out (14 R389, 20 R520). Log 4. -/
opaque kmac256 : List Byte → List Byte → List Byte → List Byte

/-- Whether an XMSS-SHAKE256_20_256 signature of a message verifies under a public key (RFC 8391; 06 R145). Log 4. -/
opaque xmssVerify : List Byte → List Byte → List Byte → Bool

/-- The device key's signature number `n` of a message (20_easel R513, R514). Log 4. -/
opaque deviceSign : Nat → List Byte → List Byte

/-- Session nonce number `n` that OPEN returns (20_easel R520). Log 5. -/
opaque nonce : Nat → List Byte

/-- The device certificate and SERIAL of this module, set at manufacture (20_easel R513). Log 5. -/
opaque deviceCertificate : List Byte
opaque serial : Word64

/-- Vendor public keys V1 and V2 of the Easel boot ROM (20_easel R508). Log 5. -/
opaque vendorKey1 : List Byte
opaque vendorKey2 : List Byte

/-- The 64 header bytes of the defect list with so many entries: no rule states them (17_bringup R451). Log 62. -/
opaque defectHeader : Nat → List Byte

/-- The device public key of 68 bytes, in the serialisation of RFC 8391 (20_easel R513). Log 5. -/
opaque deviceKey : List Byte

/-- Retry hint of a BUSY answer, any value from 100 to 65,535 microseconds (20_easel R503): the open part. Log 6. -/
opaque retryHint : Nat → Nat

/-- How a register of the thermal block shows a temperature below 0 °C (19_cooling R499), by the model's code of it. Log 67. -/
opaque belowZero : Nat → Nat

end Sys2Proof.Config
end

