-- ==== Sys2Proof/Machine/Bits.lean ====
section
/-! DEFINITION. Bit fields, sign extension, byte order and the sparse-map operations (02_number_formats R549: every
multi-byte value is little-endian). -/
namespace Sys2Proof.Machine

/-! ### Bit fields of natural numbers -/

/-- Bits `hi` to `lo` of a number. -/
def bits (w hi lo : Nat) : Nat := (w >>> lo) % 2 ^ (hi + 1 - lo)

/-- Whether bit `i` is set. -/
def bit (w i : Nat) : Bool := w.testBit i

/-- `w` with bits `hi` to `lo` replaced by the low bits of `v`. -/
def putBits (w hi lo v : Nat) : Nat :=
  let m := 2 ^ (hi + 1 - lo)
  (w % 2 ^ lo) + ((v % m) <<< lo) + ((w >>> (hi + 1)) <<< (hi + 1))

/-- 1 for true, 0 for false. -/
def b2n (b : Bool) : Nat := if b then 1 else 0

/-- An `n`-bit two's-complement number as an integer. -/
def toSigned (n w : Nat) : Int :=
  let u := w % 2 ^ n
  if u < 2 ^ (n - 1) then (u : Int) else (u : Int) - (2 ^ n : Nat)

/-- The low `n` bits of an integer, two's complement. -/
def ofSigned (n : Nat) (i : Int) : Nat := (i % ((2 ^ n : Nat) : Int)).toNat

/-- A count of `n` bits that saturates at its largest value. -/
def satAdd (n old k : Nat) : Nat := min (old + k) (2 ^ n - 1)

/-! ### Bytes -/

/-- The number that a little-endian byte list holds. -/
def leNat : List Byte → Nat
  | [] => 0
  | b :: bs => b.toNat + 256 * leNat bs

/-- The `n` little-endian bytes of a number. -/
def leBytes : Nat → Nat → List Byte
  | 0, _ => []
  | n + 1, w => BitVec.ofNat 8 w :: leBytes n (w / 256)

/-- `n` bytes of `l` from `off`, zero-padded where `l` ends (never needed on a well-formed image). -/
def slice (l : List Byte) (off n : Nat) : List Byte :=
  let x := (l.drop off).take n
  x ++ List.replicate (n - x.length) 0#8

/-- The 32 bytes of SHAKE256 and of KMAC256, and a signature of the device key: 18,469 bytes (06_canvases_glazes R145; 14 R389; 20 R513; log 4). -/
def shake (b : List Byte) : List Byte := slice (Config.shake256 b) 0 32
def kmac (key msg custom : List Byte) : List Byte := slice (Config.kmac256 key msg custom) 0 32
def devSig (n : Nat) (msg : List Byte) : List Byte := slice (Config.deviceSign n msg) 0 18469

/-- The little-endian number in `n` bytes of `l` at `off`. -/
def leAt (l : List Byte) (off n : Nat) : Nat := leNat (slice l off n)

/-- Byte `i` of `l`, as a number. -/
def byteAt (l : List Byte) (i : Nat) : Nat := (l.getD i 0#8).toNat

/-- Whether all `n` bytes of `l` from `off` are zero. -/
def zeroAt (l : List Byte) (off n : Nat) : Bool := (slice l off n).all (· == 0#8)

/-- The list with element `i` replaced (unchanged where there is none). -/
def setAt {α : Type} (l : List α) (i : Nat) (a : α) : List α := l.set i a

/-- A list cut into pieces of `n` (with `k` pieces at most). -/
def chunks {α : Type} (n : Nat) : Nat → List α → List (List α)
  | 0, _ => []
  | k + 1, l => match l with
    | [] => []
    | _ :: _ => l.take n :: chunks n k (l.drop n)

/-- Insert into a list kept in rising order of `key`, after equal keys. -/
def insertBy {α : Type} (key : α → Nat) (a : α) : List α → List α
  | [] => [a]
  | b :: l => if key a < key b then a :: b :: l else b :: insertBy key a l

/-! ### Sparse maps -/

/-- The entry of a key. -/
def SMap.find? {α : Type} (m : SMap α) (k : Nat) : Option α :=
  match m with
  | [] => none
  | (k', v) :: t => if k' = k then some v else SMap.find? t k

/-- The entry of a key, or the default. -/
def SMap.getD {α : Type} (m : SMap α) (k : Nat) (d : α) : α := (SMap.find? m k).getD d

/-- Put an entry in its place. -/
def SMap.put {α : Type} (m : SMap α) (k : Nat) (v : α) : SMap α :=
  match m with
  | [] => [(k, v)]
  | (k', v') :: t =>
    if k < k' then (k, v) :: (k', v') :: t
    else if k = k' then (k, v) :: t
    else (k', v') :: SMap.put t k v

/-- Remove a key. -/
def SMap.erase {α : Type} (m : SMap α) (k : Nat) : SMap α :=
  match m with
  | [] => []
  | (k', v') :: t => if k = k' then SMap.erase t k else (k', v') :: SMap.erase t k

/-- Write a value under the default `d`: writing `d` removes the entry, so equal stores are equal data. -/
def SMap.set {α : Type} [DecidableEq α] (d : α) (m : SMap α) (k : Nat) (v : α) : SMap α :=
  if v = d then SMap.erase m k else SMap.put m k v

/-- Remove every key of the range `[lo, lo + n)`. -/
def SMap.eraseRange {α : Type} (m : SMap α) (lo n : Nat) : SMap α :=
  m.filter fun p => p.1 < lo || lo + n ≤ p.1

/-- Keys strictly rise from `lo` on. -/
def SMap.sortedFrom {α : Type} (lo : Nat) : SMap α → Bool
  | [] => true
  | (k, _) :: t => lo ≤ k && SMap.sortedFrom (k + 1) t

/-- The canonical form of a store under a default. -/
def SMap.wf {α : Type} [DecidableEq α] (d : α) (m : SMap α) : Bool :=
  SMap.sortedFrom 0 m && m.all fun p => !(decide (p.2 = d))

/-! ### Byte memories -/

/-- What a byte that nothing has written reads as (log 3): 0. -/
def Memory.unlisted : Byte := 0#8

/-- The canonical form of a byte memory: rising addresses, no entry equal to what an unlisted address reads as. -/
def Memory.wf (m : Memory) : Bool := SMap.wf Memory.unlisted m

/-- One byte. -/
def Memory.read (m : Memory) (a : Nat) : Byte := SMap.getD m a Memory.unlisted

/-- Write one byte. -/
def Memory.write (m : Memory) (a : Nat) (b : Byte) : Memory := SMap.set Memory.unlisted m a b

/-- `n` bytes from `a`. -/
def Memory.readN (m : Memory) (a : Nat) : Nat → List Byte
  | 0 => []
  | n + 1 => Memory.read m a :: Memory.readN m (a + 1) n

/-- Write bytes from `a` on. -/
def Memory.writeN (m : Memory) (a : Nat) : List Byte → Memory
  | [] => m
  | b :: bs => Memory.writeN (Memory.write m a b) (a + 1) bs

/-- Forget every byte of a range. -/
def Memory.lose (m : Memory) (a n : Nat) : Memory := SMap.eraseRange m a n

end Sys2Proof.Machine
end

