-- ==== Sys2Proof/Machine/Flags.lean ====
section
/-! DEFINITION. The five sticky numeric flags of a cell, in the bit order of CEL_FLAGS (02_number_formats R31,
04_cell R108). A flag set is a `BitVec 5`; sets are joined with `|||`. -/
namespace Sys2Proof.Machine

/-- The flags of R31 in the bit order of CEL_FLAGS. -/
abbrev Flags := BitVec 5

def Flags.none : Flags := 0#5
def Flags.inexact : Flags := 1#5
def Flags.underflow : Flags := 2#5
def Flags.overflowClamp : Flags := 4#5
def Flags.invalid : Flags := 8#5
def Flags.accSat : Flags := 16#5

/-- `f` when the condition holds, else no flag. -/
def Flags.when (c : Bool) (f : Flags) : Flags := if c then f else Flags.none

/-- Whether every flag of `f` is set in `fs`. -/
def Flags.has (fs f : Flags) : Bool := fs &&& f == f

/-- Clearing the flags named, except those that hardware sets in the same cycle (04_cell R105). -/
def Flags.clear (old named setNow : Flags) : Flags := (old &&& ~~~named) ||| setNow

end Sys2Proof.Machine
end

