-- ==== Sys2Proof/Machine/Num.lean ====
section
/-! DEFINITION. The eight element formats, rounding, conversion, FP32 arithmetic, the special functions and MX
quantisation (02_number_formats R25 to R49; 04_cell R99 to R101). Values are exact: `(-1)^neg * m * 2^e`. -/
namespace Sys2Proof.Machine

/-- The formats of R25, in code order. -/
inductive Fmt where
  | fp32 | fp16 | bf16 | e4m3 | e5m2 | e3m2 | e2m1 | int8
  deriving DecidableEq, Repr

/-- The format of a 3-bit code (R25). -/
def Fmt.ofCode (c : Nat) : Fmt :=
  match c % 8 with
  | 0 => .fp32 | 1 => .fp16 | 2 => .bf16 | 3 => .e4m3 | 4 => .e5m2 | 5 => .e3m2 | 6 => .e2m1 | _ => .int8

/-- Width in bits (R25). -/
def Fmt.width : Fmt → Nat
  | .fp32 => 32 | .fp16 => 16 | .bf16 => 16 | .e4m3 => 8 | .e5m2 => 8 | .e3m2 => 6 | .e2m1 => 4 | .int8 => 8

/-- Fraction bits (R25; 0 for INT8, whose results round to integers). -/
def Fmt.fbits : Fmt → Nat
  | .fp32 => 23 | .fp16 => 10 | .bf16 => 7 | .e4m3 => 3 | .e5m2 => 2 | .e3m2 => 2 | .e2m1 => 1 | .int8 => 0

/-- Exponent bits (R25). -/
def Fmt.ebits : Fmt → Nat
  | .fp32 => 8 | .fp16 => 5 | .bf16 => 8 | .e4m3 => 4 | .e5m2 => 5 | .e3m2 => 3 | .e2m1 => 2 | .int8 => 0

/-- Exponent bias (R25). -/
def Fmt.bias : Fmt → Int
  | .fp32 => 127 | .fp16 => 15 | .bf16 => 127 | .e4m3 => 7 | .e5m2 => 15 | .e3m2 => 3 | .e2m1 => 1 | .int8 => 0

/-- Whether the format has infinities (R27). -/
def Fmt.hasInf : Fmt → Bool
  | .fp32 | .fp16 | .bf16 | .e5m2 => true
  | .e4m3 | .e3m2 | .e2m1 | .int8 => false

/-- Largest finite magnitude of a sign as significand and exponent of its last place (R27; INT8 reaches -128). -/
def Fmt.maxFin (f : Fmt) (neg : Bool) : Nat × Int :=
  match f with
  | .fp32 => (2 ^ 24 - 1, 104)
  | .fp16 => (2 ^ 11 - 1, 5)
  | .bf16 => (2 ^ 8 - 1, 120)
  | .e4m3 => (14, 5)
  | .e5m2 => (7, 13)
  | .e3m2 => (7, 2)
  | .e2m1 => (3, 1)
  | .int8 => (if neg then 128 else 127, 0)

/-- Largest element exponent of an MX block type (R33). -/
def Fmt.emax : Fmt → Int
  | .e4m3 => 8 | .e5m2 => 15 | .e3m2 => 4 | .e2m1 => 2 | .int8 => 0 | .fp32 => 127 | .fp16 => 15 | .bf16 => 127

/-- The canonical NaN (R30); where the format has none, the value that R49 gives a NaN source. -/
def Fmt.nanBits : Fmt → Nat
  | .fp32 => 0x7FC00000 | .fp16 => 0x7E00 | .bf16 => 0x7FC0 | .e4m3 => 0x7F | .e5m2 => 0x7E
  | .e3m2 | .e2m1 | .int8 => 0

/-- The bits of an infinity of a format that has them (R27). -/
def Fmt.infBits (f : Fmt) (neg : Bool) : Nat :=
  (b2n neg <<< (f.width - 1)) + ((2 ^ f.ebits - 1) <<< f.fbits)

/-- An exact value. -/
inductive Val where
  | nan
  | inf (neg : Bool)
  | fin (neg : Bool) (m : Nat) (e : Int)
  deriving DecidableEq, Repr

/-- `m * 2^(a-b)` when `b ≤ a`: the significand moved to a lower exponent. -/
def upShift (m : Nat) (a b : Int) : Nat := m <<< (a - b).toNat

/-- Whether `m * 2^e ≤ m' * 2^e'`. -/
def magLe (m : Nat) (e : Int) (m' : Nat) (e' : Int) : Bool :=
  let l := min e e'
  upShift m e l ≤ upShift m' e' l

/-- Whether `m * 2^e < m' * 2^e'`. -/
def magLt (m : Nat) (e : Int) (m' : Nat) (e' : Int) : Bool := !magLe m' e' m e

/-- floor(log2 (m * 2^e)) of a non-zero magnitude. -/
def ilog (m : Nat) (e : Int) : Int := (Nat.log2 m : Int) + e

/-- The value of a bit pattern (R26, R27). -/
def decodeVal (f : Fmt) (w : Nat) : Val :=
  match f with
  | .int8 => let k := toSigned 8 w; .fin (k < 0) k.natAbs 0
  | _ =>
    let neg := bit w (f.width - 1)
    let ex := bits w (f.width - 2) f.fbits
    let fr := w % 2 ^ f.fbits
    if ex = 0 then .fin neg fr (1 - f.bias - f.fbits)
    else if f.hasInf && ex == 2 ^ f.ebits - 1 then (if fr = 0 then .inf neg else .nan)
    else if f == .e4m3 && ex == 15 && fr == 7 then .nan
    else .fin neg (2 ^ f.fbits + fr) ((ex : Int) - f.bias - f.fbits)

/-! ### Rounding -/

/-- One xorshift step of a stochastic-rounding generator (R45). -/
def genStep (x : Word64) : Word64 :=
  let a := x ^^^ (x <<< 13)
  let b := a ^^^ (a >>> 7)
  b ^^^ (b <<< 17)

/-- The seed of generator `g` (R45). -/
def genSeed (seed : Word64) (g : Nat) : Word64 :=
  let x := seed ^^^ (BitVec.ofNat 64 (g + 1) <<< 56)
  if x = 0#64 then 1#64 else x

/-- A magnitude rounded to a whole multiple of `2^q` under a mode code (R42, R43, R45): the multiple, whether it is
inexact, and the generator after the draw that SR makes on an inexact value. -/
def roundMag (mode : Nat) (neg : Bool) (m : Nat) (e q : Int) (g : Word64) : Nat × Bool × Word64 :=
  if q ≤ e then (upShift m e q, false, g)
  else
    let sh := (q - e).toNat
    let a := m >>> sh
    let rem := m % 2 ^ sh
    if rem = 0 then (a, false, g)
    else
      match mode with
      | 1 => (a, true, g)
      | 2 => (if neg then a else a + 1, true, g)
      | 3 => (if neg then a + 1 else a, true, g)
      | 4 => (a ||| 1, true, g)
      | 5 =>
        let g' := genStep g
        let frac := (rem * 65536) >>> sh
        (if g'.toNat % 65536 + frac ≥ 65536 then a + 1 else a, true, g')
      | _ =>
        let half := 2 ^ (sh - 1)
        (if half < rem || (rem == half && a % 2 == 1) then a + 1 else a, true, g)

/-- What a rounding gives: the bits, the flags and the generator. -/
structure Rounded where
  bits : Nat
  flags : Flags
  gen : Word64
  deriving DecidableEq, Repr

/-- The bits of the largest finite magnitude with a sign. -/
def Fmt.maxBits (f : Fmt) (neg : Bool) : Nat :=
  match f with
  | .int8 => if neg then 0x80 else 0x7F
  | .e4m3 => (b2n neg <<< 7) + 0x7E
  | _ =>
    let top := if f.hasInf then 2 ^ f.ebits - 2 else 2 ^ f.ebits - 1
    (b2n neg <<< (f.width - 1)) + (top <<< f.fbits) + (2 ^ f.fbits - 1)

/-- Whether an overflow gives an infinity under a mode (R44). -/
def overflowInf (f : Fmt) (mode : Nat) (neg : Bool) (m : Nat) (e : Int) : Bool :=
  f.hasInf &&
    (match mode with
     | 0 | 6 | 7 => let (mm, me) := f.maxFin neg; magLe (2 * mm + 1) (me - 1) m e
     | 2 => !neg
     | 3 => neg
     | _ => false)

/-- The bits of `a * 2^q` with a sign, where `q` is the last-place exponent of its binade (R26; INT8 in two's
complement). -/
def encodeMag (f : Fmt) (neg : Bool) (a : Nat) (q : Int) : Nat :=
  match f with
  | .int8 => if neg then ofSigned 8 (-(a : Int)) else a
  | _ => (b2n neg <<< (f.width - 1)) + ((q + f.bias + f.fbits - 1).toNat <<< f.fbits) + a

/-- The last-place exponent of a magnitude in a format (R43). -/
def Fmt.lastPlace (f : Fmt) (m : Nat) (e : Int) : Int :=
  match f with
  | .int8 => 0
  | _ => max (ilog m e - f.fbits) (1 - f.bias - f.fbits)

/-- A finite value rounded once (R42 to R45), with the flags of R31. -/
def roundFin (f : Fmt) (mode : Nat) (g : Word64) (neg : Bool) (m : Nat) (e : Int) : Rounded :=
  if m = 0 then ⟨encodeMag f neg 0 (1 - f.bias - f.fbits), Flags.none, g⟩
  else
    let (mm, me) := f.maxFin neg
    if magLt mm me m e then
      if overflowInf f mode neg m e then ⟨f.infBits neg, Flags.inexact, g⟩
      else ⟨f.maxBits neg, Flags.overflowClamp ||| Flags.inexact, g⟩
    else
      let q := f.lastPlace m e
      let (a, ix, g') := roundMag mode neg m e q g
      let tiny := f != .int8 && ilog m e < 1 - f.bias
      ⟨encodeMag f neg a q, Flags.when ix Flags.inexact ||| Flags.when (ix && tiny) Flags.underflow, g'⟩

/-- A value of another format (or an accumulator value) put into a format: R44 and R49. -/
def roundVal (f : Fmt) (mode : Nat) (g : Word64) (v : Val) : Rounded :=
  match v with
  | .fin neg m e => roundFin f mode g neg m e
  | .nan =>
    match f with
    | .fp32 | .fp16 | .bf16 | .e5m2 => ⟨f.nanBits, Flags.none, g⟩
    | .e4m3 | .e3m2 | .e2m1 | .int8 => ⟨f.nanBits, Flags.invalid, g⟩
  | .inf neg =>
    match f with
    | .fp32 | .fp16 | .bf16 | .e5m2 => ⟨f.infBits neg, Flags.none, g⟩
    | .e4m3 => ⟨0x7F, Flags.invalid, g⟩
    | .e3m2 | .e2m1 | .int8 => ⟨f.maxBits neg, Flags.invalid ||| Flags.overflowClamp, g⟩

/-- A conversion between formats; from a format to itself only NaNs change, and no flag is set (R48). -/
def convert (src dst : Fmt) (mode : Nat) (g : Word64) (w : Nat) : Rounded :=
  if src = dst then
    ⟨if decodeVal src w = .nan then dst.nanBits else w % 2 ^ dst.width, Flags.none, g⟩
  else roundVal dst mode g (decodeVal src w)

/-! ### FP32 arithmetic (R99 to R101) -/

/-- The value of an FP32 pattern. -/
def fp (w : Word) : Val := decodeVal .fp32 w.toNat

/-- The canonical FP32 NaN (R30). -/
def nan32 : Word := 0x7FC00000#32

/-- A lane result with the flags it sets. -/
structure LaneOut where
  w : Word
  flags : Flags
  gen : Word64
  deriving DecidableEq, Repr

/-- A rounded FP32 lane. -/
def Rounded.lane (r : Rounded) : LaneOut := ⟨BitVec.ofNat 32 r.bits, r.flags, r.gen⟩

/-- The signed significand of a finite value at a lower exponent. -/
def signedAt (neg : Bool) (m : Nat) (e l : Int) : Int :=
  let u : Int := upShift m e l
  if neg then -u else u

/-- An exact sum; an exact zero of unlike signs is +0, or -0 under RD (IEEE 754 as named by R99). Log 7. -/
def addVal (mode : Nat) (a b : Val) : Val × Flags :=
  match a, b with
  | .nan, _ => (.nan, Flags.none)
  | _, .nan => (.nan, Flags.none)
  | .inf s, .inf t => if s = t then (.inf s, Flags.none) else (.nan, Flags.invalid)
  | .inf s, .fin _ _ _ => (.inf s, Flags.none)
  | .fin _ _ _, .inf t => (.inf t, Flags.none)
  | .fin s m e, .fin t n d =>
    let l := min e d
    let x := signedAt s m e l + signedAt t n d l
    if x = 0 then
      let neg := if s == t && m == 0 && n == 0 then s else mode == 3
      (.fin neg 0 l, Flags.none)
    else (.fin (x < 0) x.natAbs l, Flags.none)

/-- An exact product. -/
def mulVal (a b : Val) : Val × Flags :=
  match a, b with
  | .nan, _ => (.nan, Flags.none)
  | _, .nan => (.nan, Flags.none)
  | .inf s, .inf t => (.inf (s != t), Flags.none)
  | .inf s, .fin t n _ => if n = 0 then (.nan, Flags.invalid) else (.inf (s != t), Flags.none)
  | .fin s m _, .inf t => if m = 0 then (.nan, Flags.invalid) else (.inf (s != t), Flags.none)
  | .fin s m e, .fin t n d => (.fin (s != t) (m * n) (e + d), Flags.none)

/-- The value with its sign changed. -/
def Val.neg : Val → Val
  | .nan => .nan
  | .inf s => .inf (!s)
  | .fin s m e => .fin (!s) m e

/-- Round an exact FP32 result, joining the operation's own flags. -/
def finish (mode : Nat) (g : Word64) (r : Val × Flags) : LaneOut :=
  let o := (roundVal .fp32 mode g r.1).lane
  ⟨o.w, o.flags ||| r.2, o.gen⟩

/-- V.ADD in one lane. -/
def fadd (mode : Nat) (g : Word64) (a b : Word) : LaneOut := finish mode g (addVal mode (fp a) (fp b))
/-- V.SUB in one lane. -/
def fsub (mode : Nat) (g : Word64) (a b : Word) : LaneOut := finish mode g (addVal mode (fp a) (fp b).neg)
/-- V.MUL in one lane. -/
def fmul (mode : Nat) (g : Word64) (a b : Word) : LaneOut := finish mode g (mulVal (fp a) (fp b))

/-- V.FMA in one lane: a product 0 × ∞ is invalid whatever the addend holds (R101). -/
def ffma (mode : Nat) (g : Word64) (a b c : Word) : LaneOut :=
  let p := mulVal (fp a) (fp b)
  if p.2 = Flags.invalid then ⟨nan32, Flags.invalid, g⟩
  else finish mode g (addVal mode p.1 (fp c))

/-- The order of non-NaN FP32 patterns with -0 below +0 (R101). -/
def orderKey (w : Word) : Int :=
  let mag : Int := (w.toNat % 2 ^ 31 : Nat)
  if bit w.toNat 31 then -mag - 1 else mag

/-- The order of non-NaN FP32 patterns with the zeros equal. -/
def valueKey (w : Word) : Int :=
  let mag : Int := (w.toNat % 2 ^ 31 : Nat)
  if bit w.toNat 31 then -mag else mag

/-- V.MAX in one lane (R101). -/
def fmax (a b : Word) : Word :=
  if fp a = .nan ∨ fp b = .nan then nan32 else if orderKey a < orderKey b then b else a
/-- V.MIN in one lane (R101). -/
def fmin (a b : Word) : Word :=
  if fp a = .nan ∨ fp b = .nan then nan32 else if orderKey b < orderKey a then b else a
/-- The all-ones or zero mask of a compare (R100). -/
def mask (c : Bool) : Word := if c then 0xFFFFFFFF#32 else 0#32
/-- V.CMPLT in one lane (R101). -/
def fcmplt (a b : Word) : Word :=
  mask (decide (fp a ≠ .nan) && decide (fp b ≠ .nan) && decide (valueKey a < valueKey b))
/-- V.CMPEQ in one lane (R101). -/
def fcmpeq (a b : Word) : Word :=
  mask (decide (fp a ≠ .nan) && decide (fp b ≠ .nan) && decide (valueKey a = valueKey b))

/-! ### Special functions: truncated to FP32 or the next value above, both within 1 ulp (R100) -/

/-- The greatest number below `2^n` above `acc` for which a downward-closed test holds, bit by bit. -/
def greatest (ok : Nat → Bool) : Nat → Nat → Nat
  | 0, acc => acc
  | n + 1, acc => if ok (acc + 2 ^ n) then greatest ok n (acc + 2 ^ n) else greatest ok n acc

/-- The greatest FP32 magnitude pattern whose value passes `le`. -/
def specialFloor (le : Nat → Int → Bool) : Nat :=
  greatest (fun w => decide (w ≤ 0x7F7FFFFF) &&
    (match decodeVal .fp32 w with | .fin _ m e => le m e | _ => false)) 31 0

/-- Newton's steps towards the square root of `n`. -/
def sqrtNear (n : Nat) : Nat → Nat → Nat
  | 0, r => r
  | i + 1, r => sqrtNear n i ((r + n / r) / 2)

/-- Bounds of `2^f` in units of `2^-256`, for the fraction `f` whose first binary digits are the list, where the root of 2 that the next digit stands
for is bounded by `r` and the digits before by `acc`. -/
def pow2Bounds : List Bool → Nat × Nat → Nat × Nat → Nat × Nat
  | [], _, acc => acc
  | b :: t, r, acc =>
    let lo := r.1 * 2 ^ 256
    let hi := r.2 * 2 ^ 256
    let x := sqrtNear lo 10 (3 * 2 ^ 255)
    let y := sqrtNear hi 10 (3 * 2 ^ 255)
    let r' := (if x * x ≤ lo then x else lo / x, if hi ≤ y * y then y else hi / y + 1)
    pow2Bounds t r' (if b then (acc.1 * r'.1 / 2 ^ 256, acc.2 * r'.2 / 2 ^ 256 + 1) else acc)

/-- Bounds of `2^(p / 2^k)` in units of `2^-256`. -/
def ratBounds (p k : Nat) : Nat × Nat :=
  let b := pow2Bounds ((List.range k).map fun j => bit p (k - 1 - j)) (2 * 2 ^ 256, 2 * 2 ^ 256) (2 ^ 256, 2 ^ 256)
  (2 ^ (p / 2 ^ k) * b.1, 2 ^ (p / 2 ^ k) * b.2)

/-- `2^p ≤ m^(2^k)`, for a signed `p`: by bounds of the root, and exactly where they leave it open. -/
def powLe (p : Int) (k m : Nat) : Bool :=
  if p ≤ 0 then decide (0 < m)
  else
    let b := ratBounds p.toNat k
    if b.2 ≤ m * 2 ^ 256 then true else if m * 2 ^ 256 < b.1 then false else decide (2 ^ p.toNat ≤ m ^ (2 ^ k))

/-- `m^(2^k) ≤ 2^p`, for a signed `p`: by bounds of the root, and exactly where they leave it open. -/
def powGe (p : Int) (k m : Nat) : Bool :=
  if p < 0 then m == 0
  else
    let b := ratBounds p.toNat k
    if m * 2 ^ 256 ≤ b.1 then true else if b.2 < m * 2 ^ 256 then false else decide (m ^ (2 ^ k) ≤ 2 ^ p.toNat)

/-- `m * 2^e ≤ 2^x` for the rational `x = (-1)^neg n 2^d`. -/
def exp2Le (neg : Bool) (n : Nat) (d : Int) (m : Nat) (e : Int) : Bool :=
  let l := min d 0
  let p := signedAt neg n d l - e * (2 ^ (-l).toNat : Nat)
  powGe p (-l).toNat m

/-- `c * 2^e ≤ |log2 (m * 2^t)|`, which is below 256 for an FP32 value. -/
def log2Le (m : Nat) (t : Int) (c : Nat) (e : Int) : Bool :=
  if magLe 1 8 c e then false else
  let l := min e 0
  let k := (-l).toNat
  let y : Int := upShift c e l
  if 0 ≤ ilog m t then powLe (y - t * (2 ^ k : Nat)) k m
  else powGe (-y - t * (2 ^ k : Nat)) k m

/-- A special-function result: exact, or the truncated magnitude or its successor as `Config.specialUp` says. -/
def specialPick (code : Nat) (x : Word) (neg exact : Bool) (le : Nat → Int → Bool) : Word × Flags :=
  let a := specialFloor le
  let w := if exact then a else if Config.specialUp code x then a + 1 else a
  let tiny := a < 0x00800000
  (BitVec.ofNat 32 (w + (b2n neg <<< 31)),
    if exact then Flags.none else Flags.inexact ||| Flags.when tiny Flags.underflow)

/-- The FP32 pattern of ±∞ and ±0. -/
def inf32 (neg : Bool) : Word := if neg then 0xFF800000#32 else 0x7F800000#32
def zero32 (neg : Bool) : Word := if neg then 0x80000000#32 else 0#32

/-- Whether a significand is a power of two. -/
def isPow2 (m : Nat) : Bool := m != 0 && 2 ^ Nat.log2 m == m

/-- V.EXP2 in one lane (R100, R101). -/
def fexp2 (x : Word) : Word × Flags :=
  match fp x with
  | .nan => (nan32, Flags.none)
  | .inf neg => (if neg then 0#32 else inf32 false, Flags.none)
  | .fin neg n d =>
    if !neg && magLe 1 7 n d then (inf32 false, Flags.inexact)
    else
      let whole := n == 0 || 0 ≤ d || n % 2 ^ (-d).toNat == 0
      let exact := whole && (!neg || magLe n d 149 0)
      specialPick 0 x false exact (exp2Le neg n d)

/-- V.LOG2 in one lane (R100, R101). -/
def flog2 (x : Word) : Word × Flags :=
  match fp x with
  | .nan => (nan32, Flags.none)
  | .inf neg => if neg then (nan32, Flags.invalid) else (inf32 false, Flags.none)
  | .fin neg m e =>
    if m = 0 then (inf32 true, Flags.none)
    else if neg then (nan32, Flags.invalid)
    else if isPow2 m && ilog m e == 0 then (0#32, Flags.none)
    else specialPick 1 x (ilog m e < 0) (isPow2 m) (log2Le m e)

/-- V.RCP in one lane (R100, R101). A reciprocal beyond the FP32 range has no stated result: free (log 2). -/
def frcp (x : Word) : Word × Flags :=
  match fp x with
  | .nan => (nan32, Flags.none)
  | .inf neg => (zero32 neg, Flags.none)
  | .fin neg m e =>
    if m = 0 then (inf32 neg, Flags.none)
    else if magLe m e 1 (-128) then (Config.rcpOverflow x, Flags.inexact)
    else specialPick 2 x neg (isPow2 m) (fun c d => magLe (c * m) (d + e) 1 0)

/-- V.RSQ in one lane (R100, R101). -/
def frsq (x : Word) : Word × Flags :=
  match fp x with
  | .nan => (nan32, Flags.invalid)
  | .inf neg => if neg then (nan32, Flags.invalid) else (0#32, Flags.none)
  | .fin neg m e =>
    if m = 0 then (inf32 neg, Flags.none)
    else if neg then (nan32, Flags.invalid)
    else specialPick 3 x false (isPow2 m && ilog m e % 2 == 0) (fun c d => magLe (c * c * m) (d + d + e) 1 0)

/-! ### MX blocks -/

/-- The value of an MX element under a scale byte (R32, R34); NaN under the NaN scale (R38). -/
def mxVal (f : Fmt) (scale w : Nat) : Val :=
  if scale = 255 then .nan
  else
    let x : Int := (scale : Int) - 127
    match decodeVal f w with
    | .fin neg m e => .fin neg m (e + x - (if f = .int8 then 6 else 0))
    | v => v

/-- One quantised MX element: `v / 2^X` rounded once, clamped at the largest finite element (R41 steps 4 and 5). -/
def mxElement (f : Fmt) (mode : Nat) (x : Int) (g : Word64) (v : Val) : Rounded :=
  match v with
  | .fin neg m e =>
    let e' := e - x + (if f = .int8 then 6 else 0)
    let (mm, me) := f.maxFin false
    if magLt mm me m e' then
      ⟨if f = .int8 then (if neg then 0x81 else 0x7F) else f.maxBits neg, Flags.overflowClamp ||| Flags.inexact, g⟩
    else roundFin f mode g neg m e'
  | _ => ⟨0, Flags.none, g⟩

/-- The larger of two magnitudes (as significand and exponent). -/
def maxMag (a b : Nat × Int) : Nat × Int := if magLe a.1 a.2 b.1 b.2 then b else a

/-- A quantised block: scale byte, element codes, flags, generators. -/
structure MxBlock where
  scale : Nat
  codes : List Nat
  flags : Flags
  gens : List Word64
  deriving DecidableEq, Repr

/-- The elements of a block, each against its own generator, in order. -/
def mxElements (f : Fmt) (mode : Nat) (x : Int) : List Val → List Word64 → List Rounded
  | v :: vs, g :: gs => mxElement f mode x g v :: mxElements f mode x vs gs
  | _, _ => []

/-- Quantising 32 values into an MX block (R41). -/
def mxQuantise (f : Fmt) (mode : Nat) (vs : List Val) (gens : List Word64) : MxBlock :=
  let bad := vs.any fun v => match v with | .fin _ _ _ => false | _ => true
  if bad then ⟨255, vs.map fun _ => 0, Flags.invalid, gens⟩
  else
    let a := vs.foldl (fun acc v => match v with | .fin _ m e => maxMag acc (m, e) | _ => acc) (0, 0)
    if a.1 = 0 then ⟨0, vs.map fun _ => 0, Flags.none, gens⟩
    else
      let x := max (-127) (min 127 (ilog a.1 a.2 - f.emax))
      let rs := mxElements f mode x vs gens
      ⟨(x + 127).toNat, rs.map (·.bits), rs.foldl (fun acc r => acc ||| r.flags) Flags.none, rs.map (·.gen)⟩

/-! ### Packing (R35, R36, R549) -/

/-- The bit stream of element codes of a width, element 0 in the lowest bits. -/
def packNat (width : Nat) : List Nat → Nat
  | [] => 0
  | c :: cs => c % 2 ^ width + (packNat width cs <<< width)

/-- The bytes that hold a list of element codes of a format. -/
def packCodes (f : Fmt) (cs : List Nat) : List Byte := leBytes ((f.width * cs.length + 7) / 8) (packNat f.width cs)

/-- The first `n` element codes held in a byte list. -/
def unpackCodes (f : Fmt) (bs : List Byte) (n : Nat) : List Nat :=
  let w := leNat bs
  (List.range n).map fun i => (w >>> (f.width * i)) % 2 ^ f.width

end Sys2Proof.Machine
end

