-- ==== Sys2Proof/Machine/Accum.lean ====
section
/-! DEFINITION. The wide accumulator: exact, MX exact and windowed summation, special states, output rounding, carry
form and split form (03_exact_accumulation R53 to R76). -/
namespace Sys2Proof.Machine

/-- The special state of an accumulator (R53). -/
inductive AccSpecial where
  | none | nan | inf (neg : Bool) | sat (neg : Bool)
  deriving DecidableEq, Repr

/-- A wide accumulator (R53); `empty` marks one to which no non-zero group has been added (R55, R58). -/
structure Acc where
  empty : Bool := true
  v : Int := 0
  l : Int := -50
  windowed : Bool := false
  sticky : Bool := false
  special : AccSpecial := .none
  deriving DecidableEq, Repr

/-- A cleared accumulator (R55). -/
def Acc.clear : Acc := { }

/-- The summation classes of R54. -/
inductive SumClass where
  | plain | mx | windowed
  deriving DecidableEq, Repr

/-- The class that two operand formats fix (R52, R54). -/
def sumClass (a b : Fmt) (amx bmx : Bool) : SumClass :=
  if a = .bf16 ∨ a = .fp32 ∨ b = .bf16 ∨ b = .fp32 then .windowed
  else if amx || bmx then .mx else .plain

/-- One factor of a product: its value, and whether a NaN comes from a NaN scale (R38). -/
structure Factor where
  val : Val
  nanScale : Bool := false
  deriving DecidableEq, Repr

/-- One product: finite, infinite, or NaN with whether INVALID is set (R64). -/
inductive Prod1 where
  | fin (neg : Bool) (m : Nat) (e : Int)
  | inf (neg : Bool)
  | nan (invalid : Bool)
  deriving DecidableEq, Repr

/-- The product of two factors (R38, R64). -/
def product (a b : Factor) : Prod1 :=
  if a.nanScale || b.nanScale then .nan true
  else
    match mulVal a.val b.val with
    | (.nan, fl) => .nan (fl == Flags.invalid)
    | (.inf s, _) => .inf s
    | (.fin s m e, _) => .fin s m e

/-- A special state met by a cause of R64, with INVALID where the table gives it. -/
def AccSpecial.join (a b : AccSpecial) : AccSpecial × Flags :=
  match a, b with
  | .nan, _ => (.nan, Flags.none)
  | _, .nan => (.nan, Flags.none)
  | .inf s, .inf t => if s = t then (.inf s, Flags.none) else (.nan, Flags.invalid)
  | .inf s, _ => (.inf s, Flags.none)
  | _, .inf t => (.inf t, Flags.none)
  | .sat s, .sat t => if s = t then (.sat s, Flags.none) else (.nan, Flags.invalid)
  | .sat s, .none => (.sat s, Flags.none)
  | .none, x => (x, Flags.none)

/-- The special state that one product brings, and its flag. -/
def Prod1.special : Prod1 → AccSpecial × Flags
  | .fin _ _ _ => (.none, Flags.none)
  | .inf s => (.inf s, Flags.none)
  | .nan inv => (.nan, Flags.when inv Flags.invalid)

/-- Join the special states of a group's products, in any order. -/
def groupSpecial (ps : List Prod1) : AccSpecial × Flags :=
  ps.foldl (fun acc p =>
    let (x, f) := p.special
    let (y, g) := acc.1.join x
    (y, acc.2 ||| f ||| g)) (.none, Flags.none)

/-- Whether a group holds an infinity of each sign (R64: INVALID whatever else the group holds). Log 8. -/
def bothInf (ps : List Prod1) : Bool := ps.contains (.inf false) && ps.contains (.inf true)

/-- Whether `v` is outside the 116-bit range. -/
def out116 (v : Int) : Bool := v < -(2 ^ 115 : Nat) || (2 ^ 115 : Nat) ≤ v

/-- Width of an integer in two's complement. -/
def widthTwos (s : Int) : Nat :=
  let m := if s < 0 then (-s - 1).toNat else s.toNat
  (if m = 0 then 0 else Nat.log2 m + 1) + 1

/-- floor(log2 |v * 2^l|) of a non-zero value. -/
def ilogInt (v l : Int) : Int := ilog v.natAbs l

/-- Floor of `v * 2^l` in units of `2^l'`, and whether anything was discarded. -/
def truncTo (v l l' : Int) : Int × Bool :=
  if l' ≤ l then (v * (2 ^ (l - l').toNat : Nat), false)
  else
    let d : Int := (2 ^ (l' - l).toNat : Nat)
    (v / d, v % d != 0)

/-- Raise the window to `ew` (R60): V moves right, and the discarded bits go into the sticky bit. -/
def Acc.raise (a : Acc) (ew : Int) : Acc :=
  let (v, lost) := truncTo a.v a.l (ew - 81)
  { a with v := v, l := ew - 81, sticky := a.sticky || lost }

/-- After an add in windowed mode: raise the window over a sum outside it (R60 step 3) or saturate above 592 (R62). -/
def Acc.settle (a : Acc) : Acc × Flags :=
  let b := if out116 a.v then a.raise (ilogInt a.v a.l - 33) else a
  if b.l > 511 then ({ b with special := .sat (a.v < 0) }, Flags.accSat) else (b, Flags.none)

/-- The finite products of a group, signed, with their exponents. -/
def signedProds (ps : List Prod1) : List (Int × Int) :=
  ps.filterMap fun p => match p with
    | .fin neg m e => if m = 0 then none else some (if neg then -(m : Int) else m, e)
    | _ => none

/-- The exact sum of signed values at the lowest weight among them. -/
def exactSum (ps : List (Int × Int)) : Int × Int :=
  let l := ps.foldl (fun acc p => min acc p.2) (ps.headD (0, 0)).2
  (ps.foldl (fun acc p => acc + p.1 * (2 ^ (p.2 - l).toNat : Nat)) 0, l)

/-- The largest product exponent of a group. -/
def groupExp (ps : List (Int × Int)) : Int :=
  ps.foldl (fun acc p => max acc (ilogInt p.1 p.2)) (match ps with | p :: _ => ilogInt p.1 p.2 | [] => 0)

/-- Add a group in windowed mode (R60). `prods` are the terms that are each truncated to the window. -/
def Acc.addWindowed (a : Acc) (prods : List (Int × Int)) (eGrp : Int) : Acc × Flags :=
  let ew := max (a.l + 81) eGrp
  let b := if a.l + 81 < ew then a.raise ew else a
  let c := prods.foldl (fun acc p =>
    let (t, lost) := truncTo p.1 p.2 acc.l
    { acc with v := acc.v + t, sticky := acc.sticky || lost }) b
  c.settle

/-- Enter windowed mode at the exact sum `s * 2^l` (R61). -/
def Acc.enterWindowed (a : Acc) (s l eGrp : Int) : Acc × Flags :=
  let ew := max eGrp (ilogInt s l - 33)
  let (v, lost) := truncTo s l (ew - 81)
  Acc.settle { a with empty := false, v := v, l := ew - 81, windowed := true, sticky := lost }

/-- The plain exact add (R56, R57) of an integer multiple of 2^-50. -/
def Acc.addPlain (a : Acc) (p : Int) : Acc × Flags :=
  let s := a.v + p
  if out116 s then ({ a with empty := false, v := s, special := .sat (s < 0) }, Flags.accSat)
  else ({ a with empty := false, v := s, l := -50 }, Flags.none)

/-- The MX exact add of R58. -/
def Acc.addMx (a : Acc) (p w eGrp : Int) : Acc × Flags :=
  if a.empty then ({ a with empty := false, v := p, l := w }, Flags.none)
  else
    let l := min a.l w
    let s := a.v * (2 ^ (a.l - l).toNat : Nat) + p * (2 ^ (w - l).toNat : Nat)
    let k := widthTwos s - 116
    if k = 0 then ({ a with v := s, l := l }, Flags.none)
    else if s % (2 ^ k : Nat) = 0 then ({ a with v := s / (2 ^ k : Nat), l := l + k }, Flags.none)
    else a.enterWindowed s l eGrp

/-- Add one group of products (R55, R57, R58, R60, R64). `w` is the weight of an MX block-pair sum, x_a + x_b + q. -/
def Acc.addGroup (c : SumClass) (w : Int) (a : Acc) (ps : List Prod1) : Acc × Flags :=
  let (sp, f) := groupSpecial ps
  let (joined, g) := a.special.join sp
  let fl := f ||| g ||| Flags.when (bothInf ps) Flags.invalid
  if joined ≠ .none then ({ a with special := joined }, fl)
  else
    let xs := signedProds ps
    let (p, l) := exactSum xs
    if p = 0 then (a, fl)
    else
      let (r, h) :=
        if a.windowed then a.addWindowed xs (groupExp xs)
        else match c with
          | .plain => a.addPlain (p * (2 ^ (l + 50).toNat : Nat))
          | .mx => a.addMx ((truncTo p l w).1) w (groupExp xs)
          | .windowed => Acc.addWindowed { a with empty := false, windowed := true, l := groupExp xs - 81 } xs
                            (groupExp xs)
      (r, fl ||| h)

/-! ### Carry form (R69, R70) -/

/-- The 128-bit image of an accumulator (R69). -/
def Acc.image (a : Acc) : Nat :=
  match a.special with
  | .nan => (3 <<< 126) + 1
  | .inf neg => (3 <<< 126) + (if neg then 3 else 2)
  | .sat neg => (3 <<< 126) + (if neg then 5 else 4)
  | .none =>
    let kind := if a.windowed then (if a.sticky then 2 else 1) else 0
    let lexp := if a.v = 0 && kind != 2 then 0x3CE else ofSigned 10 a.l
    (kind <<< 126) + (lexp <<< 116) + ofSigned 116 a.v

/-- The special state that a special image names; a malformed one is NaN with INVALID (R70). -/
def imageSpecial (img : Nat) : AccSpecial × Flags :=
  let v := img % 2 ^ 116
  if bits img 125 116 ≠ 0 then (.nan, Flags.invalid)
  else match v with
    | 1 => (.nan, Flags.none)
    | 2 => (.inf false, Flags.none)
    | 3 => (.inf true, Flags.none)
    | 4 => (.sat false, Flags.none)
    | 5 => (.sat true, Flags.none)
    | _ => (.nan, Flags.invalid)

/-- The group exponent of an exact side of a merge (R70). -/
def exactSideExp (v l : Int) : Int := ilogInt v l - 33

/-- A merge in which either side is windowed (R70). -/
def Acc.mergeWindowed (a : Acc) (v l : Int) (imgWindowed sticky : Bool) : Acc × Flags :=
  let ewImg := if imgWindowed then l + 81 else exactSideExp v l
  let ew := if a.windowed then max (a.l + 81) ewImg
    else if a.v = 0 then ewImg else max (exactSideExp a.v a.l) ewImg
  let (x, lostA) := truncTo a.v a.l (ew - 81)
  let (y, lostB) := truncTo v l (ew - 81)
  let st := (a.windowed && a.sticky) || sticky || lostA || lostB
  Acc.settle { a with empty := false, windowed := true, v := x + y, l := ew - 81, sticky := st }

/-- Add a carry-form image as one group (R70), to an accumulator of class `c`. An exact image whose LEXP is not -50,
met by a plain exact accumulator, adds its value V × 2^LEXP where that is a multiple of 2^-50 and a free value else
(log 8). -/
def Acc.merge (c : SumClass) (a : Acc) (img : Nat) : Acc × Flags :=
  let kind := bits img 127 126
  let v := toSigned 116 img
  let l := toSigned 10 (img >>> 116)
  if kind = 3 then
    let (sp, f) := imageSpecial img
    let (j, g) := a.special.join sp
    let satNow := match a.special, j with
      | .sat _, _ => false
      | _, .sat _ => true
      | _, _ => false
    ({ a with special := j }, f ||| g ||| Flags.when satNow Flags.accSat)
  else if kind ≤ 1 && v == 0 then (a, Flags.none)
  else if a.special ≠ .none then (a, Flags.none)
  else if kind = 0 && !a.windowed then
    match c with
    | .plain =>
      let (t, lost) := truncTo v l (-50)
      a.addPlain (if lost then Config.freeImage v l else t)
    | .mx => a.addMx v l (exactSideExp v l)
    | .windowed => a.mergeWindowed v l false false
  else a.mergeWindowed v l (kind != 0) (kind == 2)

/-! ### Output (R65 to R67) and split form (R72 to R76) -/

/-- The exact value of a non-special accumulator, with the sticky half-bit (R65). -/
def Acc.exactVal (a : Acc) : Val :=
  if a.windowed && a.sticky then
    let u := 2 * a.v + 1
    .fin (u < 0) u.natAbs (a.l - 1)
  else .fin (a.v < 0) a.v.natAbs a.l

/-- The value that output rounding takes: ±SAT stands beyond every format's range (R67); a zero is +0 (R66). -/
def Acc.outVal (a : Acc) : Val :=
  match a.special with
  | .nan => .nan
  | .inf s => .inf s
  | .sat s => .fin s 1 1024
  | .none => a.exactVal

/-- A split-form value. -/
structure Split where
  word : Word64
  flags : Flags
  deriving DecidableEq, Repr

/-- The split word of HI and LO bits (R72). -/
def splitWord (hi lo : Nat) : Word64 := BitVec.ofNat 64 (hi % 2 ^ 32 + (lo % 2 ^ 32) <<< 32)

/-- A value put into split form (R73). -/
def splitOf (v : Val) : Split :=
  match v with
  | .nan => ⟨splitWord 0x7FC00000 0, Flags.none⟩
  | .inf s => ⟨splitWord (Fmt.infBits .fp32 s) 0, Flags.none⟩
  | .fin neg m e =>
    if magLe (2 ^ 25 - 1) 103 m e then ⟨splitWord (Fmt.infBits .fp32 neg) 0, Flags.inexact⟩
    else
      let hi := (roundFin .fp32 0 0#64 neg m e).bits
      match addVal 0 (.fin neg m e) (decodeVal .fp32 hi).neg with
      | (.fin n m' e', _) =>
        let lo := roundFin .fp32 4 0#64 (n && m' != 0) m' e'
        let ix := lo.flags.has Flags.inexact
        let tiny := m != 0 && ilog m e < -126
        ⟨splitWord hi lo.bits, Flags.when ix Flags.inexact ||| Flags.when (ix && tiny) Flags.underflow⟩
      | _ => ⟨splitWord hi 0, Flags.none⟩

/-- An accumulator put into split form (R73). -/
def Acc.split (a : Acc) : Split :=
  match a.special with
  | .sat s => ⟨splitWord (Fmt.infBits .fp32 s) 0, Flags.accSat⟩
  | .nan => splitOf .nan
  | .inf s => splitOf (.inf s)
  | .none => splitOf a.exactVal

/-- The exact sum of FP32 words, specials joined by R64 (R74). -/
def sumWords (ws : List Nat) : Val :=
  let vs := ws.map (decodeVal .fp32)
  let sp := vs.foldl (fun acc v =>
    (AccSpecial.join acc (match v with | .nan => .nan | .inf s => .inf s | .fin _ _ _ => .none)).1) .none
  match sp with
  | .nan => .nan
  | .inf s => .inf s
  | .sat s => .inf s
  | .none =>
    let x := vs.foldl (fun acc v => match v with
      | .fin neg m e => acc + signedAt neg m e (-149)
      | _ => acc) (0 : Int)
    .fin (x < 0) x.natAbs (-149)

/-- HI and LO of a split-form word (R72). -/
def splitParts (w : Word64) : List Nat := [w.toNat % 2 ^ 32, w.toNat >>> 32]

/-- Split-form partials combined (R74): the exact sum, put into split form again. -/
def splitCombine (ws : List Word64) : Split := splitOf (sumWords (ws.flatMap splitParts))

/-- A split-form value converted to a format (R76). -/
def splitConvert (f : Fmt) (mode : Nat) (g : Word64) (w : Word64) : Rounded :=
  roundVal f mode g (sumWords (splitParts w))

end Sys2Proof.Machine
end

