-- ==== Sys2Proof/Machine/Regs.lean ====
section
/-! DEFINITION. The register map: the address of every register in the control space (00_scope R10, R11), the place of
every field, and each register's fields with their access codes (R5) and reset values, from the register tables of
every chapter. CMD_TAIL and CPL_HEAD stand in the doorbell pages of BAR4/5 (13_host_ports R362) and are keyed above the
control space. -/
namespace Sys2Proof.Machine

/-- A field: bits `hi` to `lo`. -/
structure Fld where
  hi : Nat
  lo : Nat
  deriving DecidableEq, Repr

/-- The access codes of R5 (RO/V as RO: a write has no effect). -/
inductive Acc5 where
  | ro | rw | w1c | wo
  deriving DecidableEq, Repr

/-- One field of a register: its bits, its access code and its reset value. -/
structure RField where
  hi : Nat
  lo : Nat
  acc : Acc5
  rst : Nat
  deriving DecidableEq, Repr

/-- One register, or an array of them: the offset of its first, the count and stride of each index (outermost first),
and its fields; bits not listed are reserved and read 0 (R7). -/
structure RegRow where
  base : Nat
  dims : List (Nat × Nat)
  fields : List RField
  deriving DecidableEq, Repr

/-! ### Addresses -/

/-- CEL_DIE_INFO (R108). -/
def Reg.CEL_DIE_INFO (e m : Nat) : Nat := 0x1100000 + 0x400000 * e + 0x80000 * m
/-- CEL_LMAP (R108). -/
def Reg.CEL_LMAP (e m k : Nat) : Nat := 0x1100400 + 0x400000 * e + 0x80000 * m + 0x4 * k
/-- CEL_STATE (R108). -/
def Reg.CEL_STATE (e m c : Nat) : Nat := 0x1110000 + 0x400000 * e + 0x80000 * m + 0x200 * c
/-- CEL_FLAGS (R108). -/
def Reg.CEL_FLAGS (e m c : Nat) : Nat := 0x1110004 + 0x400000 * e + 0x80000 * m + 0x200 * c
/-- CEL_FAULT (R108). -/
def Reg.CEL_FAULT (e m c : Nat) : Nat := 0x1110008 + 0x400000 * e + 0x80000 * m + 0x200 * c
/-- CEL_FAULT_AT (R108). -/
def Reg.CEL_FAULT_AT (e m c : Nat) : Nat := 0x111000C + 0x400000 * e + 0x80000 * m + 0x200 * c
/-- CEL_ACNT (R108). -/
def Reg.CEL_ACNT (e m c n : Nat) : Nat := 0x1110040 + 0x400000 * e + 0x80000 * m + 0x200 * c + 0x4 * n
/-- CEL_SREG (R108). -/
def Reg.CEL_SREG (e m c n : Nat) : Nat := 0x1110080 + 0x400000 * e + 0x80000 * m + 0x200 * c + 0x4 * n
/-- FAB_WDOG (R136). -/
def Reg.FAB_WDOG (e m : Nat) : Nat := 0x1101000 + 0x400000 * e + 0x80000 * m
/-- FAB_FAULT (R136). -/
def Reg.FAB_FAULT (e m : Nat) : Nat := 0x1101004 + 0x400000 * e + 0x80000 * m
/-- FAB_FAULT_AT (R136). -/
def Reg.FAB_FAULT_AT (e m : Nat) : Nat := 0x1101008 + 0x400000 * e + 0x80000 * m
/-- FAB_XING (R136). -/
def Reg.FAB_XING (e m p : Nat) : Nat := 0x1101010 + 0x400000 * e + 0x80000 * m + 0x4 * p
/-- FAB_QOCC (R136). -/
def Reg.FAB_QOCC (e m c : Nat) : Nat := 0x1102000 + 0x400000 * e + 0x80000 * m + 0x4 * c
/-- ENG_CANVAS_ADDR (R173). -/
def Reg.ENG_CANVAS_ADDR (e : Nat) : Nat := 0x1000800 + 0x400000 * e
/-- ENG_CANVAS_CTRL (R173). -/
def Reg.ENG_CANVAS_CTRL (e : Nat) : Nat := 0x1000804 + 0x400000 * e
/-- ENG_CANVAS_STATUS (R173). -/
def Reg.ENG_CANVAS_STATUS (e : Nat) : Nat := 0x1000808 + 0x400000 * e
/-- ENG_CANVAS_POS (R173). -/
def Reg.ENG_CANVAS_POS (e : Nat) : Nat := 0x100080C + 0x400000 * e
/-- ENG_CANVAS_ID (R173). -/
def Reg.ENG_CANVAS_ID (e n : Nat) : Nat := 0x1000810 + 0x400000 * e + 0x4 * n
/-- ENG_STBY_COVER (R173). -/
def Reg.ENG_STBY_COVER (e n : Nat) : Nat := 0x1000820 + 0x400000 * e + 0x4 * n
/-- ENG_STBY_AREA (R173). -/
def Reg.ENG_STBY_AREA (e : Nat) : Nat := 0x1000828 + 0x400000 * e
/-- ENG_STBY_ARM (R173). -/
def Reg.ENG_STBY_ARM (e : Nat) : Nat := 0x100082C + 0x400000 * e
/-- ENG_SPM_POWER (R198). -/
def Reg.ENG_SPM_POWER (e : Nat) : Nat := 0x1000900 + 0x400000 * e
/-- ENG_SPM_ZERO (R198). -/
def Reg.ENG_SPM_ZERO (e : Nat) : Nat := 0x1000904 + 0x400000 * e
/-- ENG_SPM_STATUS (R198). -/
def Reg.ENG_SPM_STATUS (e : Nat) : Nat := 0x1000908 + 0x400000 * e
/-- ENG_SPM_ERR (R198). -/
def Reg.ENG_SPM_ERR (e : Nat) : Nat := 0x100090C + 0x400000 * e
/-- ENG_SPM_SPARE (R198). -/
def Reg.ENG_SPM_SPARE (e : Nat) : Nat := 0x1000910 + 0x400000 * e
/-- ENG_SPM_CTRL (R198). -/
def Reg.ENG_SPM_CTRL (e : Nat) : Nat := 0x1000914 + 0x400000 * e
/-- ENG_ACNT_SETV (R198). -/
def Reg.ENG_ACNT_SETV (e : Nat) : Nat := 0x1000918 + 0x400000 * e
/-- ENG_ACNT_SETI (R198). -/
def Reg.ENG_ACNT_SETI (e : Nat) : Nat := 0x100091C + 0x400000 * e
/-- ENG_ACNT (R198). -/
def Reg.ENG_ACNT (e n : Nat) : Nat := 0x1000C00 + 0x400000 * e + 0x4 * n
/-- ENG_HUB_INFO (R231). -/
def Reg.ENG_HUB_INFO (e : Nat) : Nat := 0x1000000 + 0x400000 * e
/-- ENG_NEAR_LIMIT (R231). -/
def Reg.ENG_NEAR_LIMIT (e : Nat) : Nat := 0x1000010 + 0x400000 * e
/-- ENG_SPREAD_SIZE (R231). -/
def Reg.ENG_SPREAD_SIZE (e : Nat) : Nat := 0x1000014 + 0x400000 * e
/-- ENG_CHK_FAIL_AT (R231). -/
def Reg.ENG_CHK_FAIL_AT (e n : Nat) : Nat := 0x1000020 + 0x400000 * e + 0x4 * n
/-- ENG_MERGE_STAT (R231). -/
def Reg.ENG_MERGE_STAT (e : Nat) : Nat := 0x1000030 + 0x400000 * e
/-- ENG_STREAM_STAT (R231). -/
def Reg.ENG_STREAM_STAT (e : Nat) : Nat := 0x1000034 + 0x400000 * e
/-- ENG_DMAQ_BASE (R231). -/
def Reg.ENG_DMAQ_BASE (e q : Nat) : Nat := 0x1001000 + 0x400000 * e + 0x20 * q
/-- ENG_DMAQ_CFG (R231). -/
def Reg.ENG_DMAQ_CFG (e q : Nat) : Nat := 0x1001004 + 0x400000 * e + 0x20 * q
/-- ENG_DMAQ_TAIL (R231). -/
def Reg.ENG_DMAQ_TAIL (e q : Nat) : Nat := 0x1001008 + 0x400000 * e + 0x20 * q
/-- ENG_DMAQ_HEAD (R231). -/
def Reg.ENG_DMAQ_HEAD (e q : Nat) : Nat := 0x100100C + 0x400000 * e + 0x20 * q
/-- ENG_DMAQ_STATUS (R231). -/
def Reg.ENG_DMAQ_STATUS (e q : Nat) : Nat := 0x1001010 + 0x400000 * e + 0x20 * q
/-- ENG_DMAQ_CTRL (R231). -/
def Reg.ENG_DMAQ_CTRL (e q : Nat) : Nat := 0x1001014 + 0x400000 * e + 0x20 * q
/-- MC_STACK (R231). -/
def Reg.MC_STACK (e s : Nat) : Nat := 0x1040000 + 0x400000 * e + 0x100 * s
/-- MC_ERR (R231). -/
def Reg.MC_ERR (e s : Nat) : Nat := 0x1040004 + 0x400000 * e + 0x100 * s
/-- MC_SCRUB (R231). -/
def Reg.MC_SCRUB (e : Nat) : Nat := 0x1040400 + 0x400000 * e
/-- MC_SCRUB_STAT (R231). -/
def Reg.MC_SCRUB_STAT (e : Nat) : Nat := 0x1040404 + 0x400000 * e
/-- PT_CTRL (R252). -/
def Reg.PT_CTRL (e : Nat) : Nat := 0x1080000 + 0x400000 * e
/-- PT_SNAP_ADDR (R252). -/
def Reg.PT_SNAP_ADDR (e : Nat) : Nat := 0x1080004 + 0x400000 * e
/-- PT_STATUS (R252). -/
def Reg.PT_STATUS (e : Nat) : Nat := 0x1080008 + 0x400000 * e
/-- PT_CMD_ARG (R252). -/
def Reg.PT_CMD_ARG (e n : Nat) : Nat := 0x1080010 + 0x400000 * e + 0x4 * n
/-- PT_CMD_LIST (R252). -/
def Reg.PT_CMD_LIST (e n : Nat) : Nat := 0x1080020 + 0x400000 * e + 0x4 * n
/-- PT_CMD (R252). -/
def Reg.PT_CMD (e : Nat) : Nat := 0x1080028 + 0x400000 * e
/-- PT_CMD_STATUS (R252). -/
def Reg.PT_CMD_STATUS (e : Nat) : Nat := 0x108002C + 0x400000 * e
/-- PT_CMD_LEN (R252). -/
def Reg.PT_CMD_LEN (e : Nat) : Nat := 0x1080030 + 0x400000 * e
/-- PT_CTX_SEL (R252). -/
def Reg.PT_CTX_SEL (e : Nat) : Nat := 0x1080040 + 0x400000 * e
/-- PT_CTX_DATA (R252). -/
def Reg.PT_CTX_DATA (e n : Nat) : Nat := 0x1080044 + 0x400000 * e + 0x4 * n
/-- PT_WALK_HIT (R252). -/
def Reg.PT_WALK_HIT (e : Nat) : Nat := 0x1080070 + 0x400000 * e
/-- PT_WALK_MISS (R252). -/
def Reg.PT_WALK_MISS (e : Nat) : Nat := 0x1080074 + 0x400000 * e
/-- PT_QSTAT (R252). -/
def Reg.PT_QSTAT (e q : Nat) : Nat := 0x1080100 + 0x400000 * e + 0x4 * q
/-- VS_CTRL (R272). -/
def Reg.VS_CTRL (e : Nat) : Nat := 0x10C0000 + 0x400000 * e
/-- VS_STATUS (R272). -/
def Reg.VS_STATUS (e : Nat) : Nat := 0x10C0004 + 0x400000 * e
/-- VS_EXPORT_ADDR (R272). -/
def Reg.VS_EXPORT_ADDR (e n : Nat) : Nat := 0x10C0008 + 0x400000 * e + 0x4 * n
/-- VS_MISSED (R272). -/
def Reg.VS_MISSED (e : Nat) : Nat := 0x10C0010 + 0x400000 * e
/-- VS_STALL_CTRL (R272). -/
def Reg.VS_STALL_CTRL (e : Nat) : Nat := 0x10C0020 + 0x400000 * e
/-- VS_HST (R272). -/
def Reg.VS_HST (e n : Nat) : Nat := 0x10C0100 + 0x400000 * e + 0x4 * n
/-- VS_RST (R272). -/
def Reg.VS_RST (e n : Nat) : Nat := 0x10C0200 + 0x400000 * e + 0x4 * n
/-- CEL_STALL (R272). -/
def Reg.CEL_STALL (e m c n : Nat) : Nat := 0x1110100 + 0x400000 * e + 0x80000 * m + 0x200 * c + 0x4 * n
/-- CEL_STALL_WHY (R272). -/
def Reg.CEL_STALL_WHY (e m c : Nat) : Nat := 0x1110148 + 0x400000 * e + 0x80000 * m + 0x200 * c
/-- NET_ID (R298). -/
def Reg.NET_ID (e : Nat) : Nat := 0x1002000 + 0x400000 * e
/-- NET_WDOG (R298). -/
def Reg.NET_WDOG (e : Nat) : Nat := 0x1002004 + 0x400000 * e
/-- NET_INJ (R298). -/
def Reg.NET_INJ (e : Nat) : Nat := 0x1002008 + 0x400000 * e
/-- NET_FAULT (R298). -/
def Reg.NET_FAULT (e : Nat) : Nat := 0x100200C + 0x400000 * e
/-- NET_FAULT_AT (R298). -/
def Reg.NET_FAULT_AT (e : Nat) : Nat := 0x1002010 + 0x400000 * e
/-- NET_LINK (R298). -/
def Reg.NET_LINK (e n : Nat) : Nat := 0x1002020 + 0x400000 * e + 0x4 * n
/-- NET_BAR_CFG (R298). -/
def Reg.NET_BAR_CFG (e : Nat) : Nat := 0x1002040 + 0x400000 * e
/-- NET_BAR_ARRIVE (R298). -/
def Reg.NET_BAR_ARRIVE (e : Nat) : Nat := 0x1002044 + 0x400000 * e
/-- NET_BAR_STATUS (R298). -/
def Reg.NET_BAR_STATUS (e : Nat) : Nat := 0x1002048 + 0x400000 * e
/-- NET_ABORT (R298). -/
def Reg.NET_ABORT (e : Nat) : Nat := 0x1002050 + 0x400000 * e
/-- NET_ABORT_STAT (R298). -/
def Reg.NET_ABORT_STAT (e : Nat) : Nat := 0x1002054 + 0x400000 * e
/-- NET_RT_FEID (R298). -/
def Reg.NET_RT_FEID (e i : Nat) : Nat := 0x1002400 + 0x400000 * e + 0x4 * i
/-- NET_RT_POS (R298). -/
def Reg.NET_RT_POS (e p : Nat) : Nat := 0x1002800 + 0x400000 * e + 0x4 * p
/-- NET_RT_REMOTE (R298). -/
def Reg.NET_RT_REMOTE (e k n : Nat) : Nat := 0x1002900 + 0x400000 * e + 0x8 * k + 0x4 * n
/-- CAD_MASTER (R324). -/
def Reg.CAD_MASTER (n : Nat) : Nat := 0x400000 + 0x4 * n
/-- CAD_BEAT_CFG (R324). -/
def Reg.CAD_BEAT_CFG : Nat := 0x400010
/-- CAD_BEAT_PERIOD (R324). -/
def Reg.CAD_BEAT_PERIOD : Nat := 0x400014
/-- CAD_BEAT_STAT (R324). -/
def Reg.CAD_BEAT_STAT : Nat := 0x400018
/-- CAD_BEAT_ERR (R324). -/
def Reg.CAD_BEAT_ERR : Nat := 0x40001C
/-- CAD_BEAT_LAST (R324). -/
def Reg.CAD_BEAT_LAST (n : Nat) : Nat := 0x400020 + 0x4 * n
/-- CAD_BEAT_CNT (R324). -/
def Reg.CAD_BEAT_CNT : Nat := 0x400028
/-- CAD_PTM_OFFSET (R324). -/
def Reg.CAD_PTM_OFFSET (n : Nat) : Nat := 0x400030 + 0x4 * n
/-- CAD_SET (R324). -/
def Reg.CAD_SET (n : Nat) : Nat := 0x400038 + 0x4 * n
/-- CAD_CTRL (R324). -/
def Reg.CAD_CTRL : Nat := 0x400040
/-- CAD_FAULT (R324). -/
def Reg.CAD_FAULT : Nat := 0x400044
/-- CAD_MARGIN_CFG (R324). -/
def Reg.CAD_MARGIN_CFG : Nat := 0x400048
/-- CAD_PART_ORIGIN (R324). -/
def Reg.CAD_PART_ORIGIN (p n : Nat) : Nat := 0x400100 + 0x10 * p + 0x4 * n
/-- CAD_PART_PERIOD (R324). -/
def Reg.CAD_PART_PERIOD (p : Nat) : Nat := 0x400108 + 0x10 * p
/-- CAD_ENG_CLK (R324). -/
def Reg.CAD_ENG_CLK (e : Nat) : Nat := 0x401000 + 0x40 * e
/-- CAD_ENG_DROOP (R324). -/
def Reg.CAD_ENG_DROOP (e : Nat) : Nat := 0x401004 + 0x40 * e
/-- CAD_ENG_MARGIN (R324). -/
def Reg.CAD_ENG_MARGIN (e : Nat) : Nat := 0x401008 + 0x40 * e
/-- CAD_ENG_FAULT (R324). -/
def Reg.CAD_ENG_FAULT (e : Nat) : Nat := 0x40100C + 0x40 * e
/-- CAD_ENG_COUNT (R324). -/
def Reg.CAD_ENG_COUNT (e n : Nat) : Nat := 0x401010 + 0x40 * e + 0x4 * n
/-- CAD_ENG_PERIOD (R324). -/
def Reg.CAD_ENG_PERIOD (e : Nat) : Nat := 0x401018 + 0x40 * e
/-- CAD_ENG_PHASE (R324). -/
def Reg.CAD_ENG_PHASE (e : Nat) : Nat := 0x40101C + 0x40 * e
/-- CAD_ENG_LAG (R324). -/
def Reg.CAD_ENG_LAG (e : Nat) : Nat := 0x401020 + 0x40 * e
/-- CAD_ENG_BUDGET (R324). -/
def Reg.CAD_ENG_BUDGET (e : Nat) : Nat := 0x401024 + 0x40 * e
/-- CAD_ENG_CTRL (R324). -/
def Reg.CAD_ENG_CTRL (e : Nat) : Nat := 0x401028 + 0x40 * e
/-- HP_PORT_STAT (R361). -/
def Reg.HP_PORT_STAT (p : Nat) : Nat := 0x500000 + 0x40000 * p
/-- HP_PORT_ERR (R361). -/
def Reg.HP_PORT_ERR (p : Nat) : Nat := 0x500004 + 0x40000 * p
/-- HP_WERR (R361). -/
def Reg.HP_WERR (p n : Nat) : Nat := 0x500010 + 0x40000 * p + 0x4 * n
/-- HP_WIN (R361). -/
def Reg.HP_WIN (p w : Nat) : Nat := 0x500100 + 0x40000 * p + 0x4 * w
/-- HP_VFWIN (R361). -/
def Reg.HP_VFWIN (p v : Nat) : Nat := 0x500200 + 0x40000 * p + 0x4 * v
/-- HP_QC_ARG (R361). -/
def Reg.HP_QC_ARG (p f n : Nat) : Nat := 0x501000 + 0x40000 * p + 0x40 * f + 0x4 * n
/-- HP_QC_CMD (R361). -/
def Reg.HP_QC_CMD (p f : Nat) : Nat := 0x501014 + 0x40000 * p + 0x40 * f
/-- HP_QC_RESULT (R361). -/
def Reg.HP_QC_RESULT (p f : Nat) : Nat := 0x501018 + 0x40000 * p + 0x40 * f
/-- HP_EVT_BASE (R361). -/
def Reg.HP_EVT_BASE (p f n : Nat) : Nat := 0x501020 + 0x40000 * p + 0x40 * f + 0x4 * n
/-- HP_EVT_CFG (R361). -/
def Reg.HP_EVT_CFG (p f : Nat) : Nat := 0x501028 + 0x40000 * p + 0x40 * f
/-- HP_EVT_HEAD (R361). -/
def Reg.HP_EVT_HEAD (p f : Nat) : Nat := 0x50102C + 0x40000 * p + 0x40 * f
/-- HP_EVT_TAIL (R361). -/
def Reg.HP_EVT_TAIL (p f : Nat) : Nat := 0x501030 + 0x40000 * p + 0x40 * f
/-- HP_VF_ESEL (R361). -/
def Reg.HP_VF_ESEL (p f : Nat) : Nat := 0x501034 + 0x40000 * p + 0x40 * f
/-- HP_QCTX (R361). -/
def Reg.HP_QCTX (p k : Nat) : Nat := 0x502000 + 0x40000 * p + 0x4 * k
/-- FQ_CFG (R362). -/
def Reg.FQ_CFG (p f : Nat) : Nat := 0x600000 + 0x1000 * p + 0x10 * f
/-- FQ_STAT (R362). -/
def Reg.FQ_STAT (p f : Nat) : Nat := 0x600004 + 0x1000 * p + 0x10 * f
/-- FQ_ERR (R362). -/
def Reg.FQ_ERR (p f : Nat) : Nat := 0x600008 + 0x1000 * p + 0x10 * f
/-- FQ_CTRL (R362). -/
def Reg.FQ_CTRL (p f : Nat) : Nat := 0x60000C + 0x1000 * p + 0x10 * f
/-- LNK_PORT_STAT (R398). -/
def Reg.LNK_PORT_STAT (p : Nat) : Nat := 0x700000 + 0x40 * p
/-- LNK_PORT_CTRL (R398). -/
def Reg.LNK_PORT_CTRL (p : Nat) : Nat := 0x700004 + 0x40 * p
/-- LNK_PORT_PEER (R398). -/
def Reg.LNK_PORT_PEER (p : Nat) : Nat := 0x700008 + 0x40 * p
/-- LNK_PORT_DELAY (R398). -/
def Reg.LNK_PORT_DELAY (p : Nat) : Nat := 0x70000C + 0x40 * p
/-- LNK_PORT_CNT (R398). -/
def Reg.LNK_PORT_CNT (p n : Nat) : Nat := 0x700010 + 0x40 * p + 0x4 * n
/-- LNK_CFG (R398). -/
def Reg.LNK_CFG : Nat := 0x700400
/-- LNK_ACCESS (R398). -/
def Reg.LNK_ACCESS : Nat := 0x700404
/-- LNK_TIMEOUT (R398). -/
def Reg.LNK_TIMEOUT : Nat := 0x700408
/-- LNK_FAULT (R398). -/
def Reg.LNK_FAULT : Nat := 0x70040C
/-- LNK_REDIR (R398). -/
def Reg.LNK_REDIR (i : Nat) : Nat := 0x700500 + 0x4 * i
/-- LNK_COLL_CFG (R398). -/
def Reg.LNK_COLL_CFG (c n : Nat) : Nat := 0x701000 + 0x20 * c + 0x4 * n
/-- LNK_COLL_STAT (R398). -/
def Reg.LNK_COLL_STAT (c : Nat) : Nat := 0x701010 + 0x20 * c
/-- LNK_COLL_CTRL (R398). -/
def Reg.LNK_COLL_CTRL (c : Nat) : Nat := 0x701014 + 0x20 * c
/-- LNK_PAIR_CTRL (R398). -/
def Reg.LNK_PAIR_CTRL : Nat := 0x702000
/-- LNK_PAIR_STAT (R398). -/
def Reg.LNK_PAIR_STAT : Nat := 0x702004
/-- LNK_PAIR_STAGE (R398). -/
def Reg.LNK_PAIR_STAGE (n : Nat) : Nat := 0x702010 + 0x4 * n
/-- LNK_PAIR_REGION (R398). -/
def Reg.LNK_PAIR_REGION (i n : Nat) : Nat := 0x702100 + 0x10 * i + 0x4 * n
/-- LNK_PAIR_MAP (R398). -/
def Reg.LNK_PAIR_MAP (e : Nat) : Nat := 0x702200 + 0x4 * e
/-- LNK_QUORUM (R398). -/
def Reg.LNK_QUORUM : Nat := 0x703000
/-- LNK_QUORUM_MGR (R398). -/
def Reg.LNK_QUORUM_MGR (n : Nat) : Nat := 0x703004 + 0x4 * n
/-- LNK_EXPEL (R398). -/
def Reg.LNK_EXPEL (i : Nat) : Nat := 0x703020 + 0x4 * i
/-- SK_GUEST_STAT (R416). -/
def Reg.SK_GUEST_STAT (g : Nat) : Nat := 0x800000 + 0x100 * g
/-- SK_GUEST_CTRL (R416). -/
def Reg.SK_GUEST_CTRL (g : Nat) : Nat := 0x800004 + 0x100 * g
/-- SK_GUEST_PWR (R416). -/
def Reg.SK_GUEST_PWR (g : Nat) : Nat := 0x800008 + 0x100 * g
/-- SK_GUEST_ACCESS (R416). -/
def Reg.SK_GUEST_ACCESS (g : Nat) : Nat := 0x80000C + 0x100 * g
/-- SK_GUEST_TIMEOUT (R416). -/
def Reg.SK_GUEST_TIMEOUT (g : Nat) : Nat := 0x800010 + 0x100 * g
/-- SK_GUEST_ERR (R416). -/
def Reg.SK_GUEST_ERR (g : Nat) : Nat := 0x800014 + 0x100 * g
/-- SK_GUEST_PORT (R416). -/
def Reg.SK_GUEST_PORT (g n : Nat) : Nat := 0x800018 + 0x100 * g + 0x4 * n
/-- SK_GUEST_CAP (R416). -/
def Reg.SK_GUEST_CAP (g n : Nat) : Nat := 0x800020 + 0x100 * g + 0x4 * n
/-- SK_PORT (R416). -/
def Reg.SK_PORT (e n : Nat) : Nat := 0x801000 + 0x40 * e + 0x4 * n
/-- PWR_MODE (R439). -/
def Reg.PWR_MODE : Nat := 0x300000
/-- PWR_INPUT (R439). -/
def Reg.PWR_INPUT : Nat := 0x300004
/-- PWR_LIMIT (R439). -/
def Reg.PWR_LIMIT : Nat := 0x300008
/-- PWR_BUDGET (R439). -/
def Reg.PWR_BUDGET : Nat := 0x30000C
/-- PWR_PEAK (R439). -/
def Reg.PWR_PEAK : Nat := 0x300010
/-- PWR_FAULT (R439). -/
def Reg.PWR_FAULT : Nat := 0x300014
/-- PWR_COLBUS (R439). -/
def Reg.PWR_COLBUS (c : Nat) : Nat := 0x300020 + 0x4 * c
/-- PWR_ENG_CTRL (R439). -/
def Reg.PWR_ENG_CTRL (e : Nat) : Nat := 0x301000 + 0x40 * e
/-- PWR_ENG_STAT (R439). -/
def Reg.PWR_ENG_STAT (e : Nat) : Nat := 0x301004 + 0x40 * e
/-- PWR_ENG_RES (R439). -/
def Reg.PWR_ENG_RES (e : Nat) : Nat := 0x301008 + 0x40 * e
/-- PWR_ENG_VLOGIC (R439). -/
def Reg.PWR_ENG_VLOGIC (e : Nat) : Nat := 0x30100C + 0x40 * e
/-- PWR_ENG_VSET (R439). -/
def Reg.PWR_ENG_VSET (e : Nat) : Nat := 0x301010 + 0x40 * e
/-- PWR_ENG_DRAW (R439). -/
def Reg.PWR_ENG_DRAW (e : Nat) : Nat := 0x301014 + 0x40 * e
/-- PWR_ENG_REG (R439). -/
def Reg.PWR_ENG_REG (e : Nat) : Nat := 0x301018 + 0x40 * e
/-- PWR_ENG_PHASE (R439). -/
def Reg.PWR_ENG_PHASE (e : Nat) : Nat := 0x30101C + 0x40 * e
/-- PWR_ENG_BRK (R439). -/
def Reg.PWR_ENG_BRK (e : Nat) : Nat := 0x301020 + 0x40 * e
/-- PNL_BOOT (R466). -/
def Reg.PNL_BOOT : Nat := 0x1000
/-- PNL_INPUT (R466). -/
def Reg.PNL_INPUT : Nat := 0x1004
/-- PNL_RESET (R466). -/
def Reg.PNL_RESET : Nat := 0x1008
/-- PNL_RESET_STAT (R466). -/
def Reg.PNL_RESET_STAT : Nat := 0x100C
/-- PNL_DEFECT (R466). -/
def Reg.PNL_DEFECT : Nat := 0x1010
/-- PNL_ENG_STATE (R466). -/
def Reg.PNL_ENG_STATE (e : Nat) : Nat := 0x1100 + 0x4 * e
/-- EZ_STEP (R466). -/
def Reg.EZ_STEP : Nat := 0x104000
/-- EZ_STEP_ENG (R466). -/
def Reg.EZ_STEP_ENG (n : Nat) : Nat := 0x104004 + 0x4 * n
/-- EZ_STEP_STAT (R466). -/
def Reg.EZ_STEP_STAT : Nat := 0x10400C
/-- ENG_RESET (R466). -/
def Reg.ENG_RESET (e : Nat) : Nat := 0x1000040 + 0x400000 * e
/-- FLT_SRC (R488). -/
def Reg.FLT_SRC (i : Nat) : Nat := 0x200000 + 0x4 * i
/-- FLT_PEND (R488). -/
def Reg.FLT_PEND (k : Nat) : Nat := 0x200200 + 0x4 * k
/-- FLT_PIN (R488). -/
def Reg.FLT_PIN : Nat := 0x200300
/-- FLT_NOTIFY (R488). -/
def Reg.FLT_NOTIFY (p : Nat) : Nat := 0x200310 + 0x4 * p
/-- FLT_LOG_STAT (R488). -/
def Reg.FLT_LOG_STAT : Nat := 0x200320
/-- FLT_LOG_SEL (R488). -/
def Reg.FLT_LOG_SEL : Nat := 0x200324
/-- FLT_LOG_DATA (R488). -/
def Reg.FLT_LOG_DATA (n : Nat) : Nat := 0x200328 + 0x4 * n
/-- FLT_INJECT (R488). -/
def Reg.FLT_INJECT : Nat := 0x200340
/-- THM_COOLANT (R499). -/
def Reg.THM_COOLANT : Nat := 0x380000
/-- THM_FLOW (R499). -/
def Reg.THM_FLOW : Nat := 0x380004
/-- THM_FLOW_CFG (R499). -/
def Reg.THM_FLOW_CFG : Nat := 0x380008
/-- THM_FLOW_CNT (R499). -/
def Reg.THM_FLOW_CNT : Nat := 0x38000C
/-- THM_STAT (R499). -/
def Reg.THM_STAT : Nat := 0x380010
/-- THM_ENG_TEMP (R499). -/
def Reg.THM_ENG_TEMP (e : Nat) : Nat := 0x381000 + 0x40 * e
/-- THM_ENG_STAT (R499). -/
def Reg.THM_ENG_STAT (e : Nat) : Nat := 0x381004 + 0x40 * e
/-- THM_ENG_CYCLE (R499). -/
def Reg.THM_ENG_CYCLE (e n : Nat) : Nat := 0x381010 + 0x40 * e + 0x4 * n
/-- EZ_INFO (R532). -/
def Reg.EZ_INFO : Nat := 0x100000
/-- EZ_TAKEOVER (R532). -/
def Reg.EZ_TAKEOVER : Nat := 0x100004
/-- EZ_FW_SVN (R532). -/
def Reg.EZ_FW_SVN : Nat := 0x100008
/-- EZ_MIN_SVN (R532). -/
def Reg.EZ_MIN_SVN : Nat := 0x10000C
/-- EZ_MB_CTRL (R532). -/
def Reg.EZ_MB_CTRL (p : Nat) : Nat := 0x101000 + 0x100 * p
/-- EZ_MB_STAT (R532). -/
def Reg.EZ_MB_STAT (p : Nat) : Nat := 0x101004 + 0x100 * p
/-- SEC_ROLE (R532). -/
def Reg.SEC_ROLE : Nat := 0x900000
/-- SEC_SERIAL (R532). -/
def Reg.SEC_SERIAL (n : Nat) : Nat := 0x900008 + 0x4 * n
/-- SEC_SIG_INDEX (R532). -/
def Reg.SEC_SIG_INDEX (n : Nat) : Nat := 0x900010 + 0x4 * n
/-- SEC_KEYS (R532). -/
def Reg.SEC_KEYS : Nat := 0x900018
/-- LOG_STAT (R532). -/
def Reg.LOG_STAT : Nat := 0x980000
/-- LOG_SEQ (R532). -/
def Reg.LOG_SEQ (n : Nat) : Nat := 0x980008 + 0x4 * n
/-- LOG_UTC (R532). -/
def Reg.LOG_UTC (n : Nat) : Nat := 0x980010 + 0x4 * n
/-- LOG_UTC_AT (R532). -/
def Reg.LOG_UTC_AT (n : Nat) : Nat := 0x980018 + 0x4 * n
/-- PNL_PHYS (R548). -/
def Reg.PNL_PHYS : Nat := 0x1200
/-- CMD_TAIL (R362). -/
def Reg.CMD_TAIL (p k : Nat) : Nat := 0x10000000 + 0x100000 * p + 0x1000 * k
/-- CPL_HEAD (R362). -/
def Reg.CPL_HEAD (p k : Nat) : Nat := 0x10000004 + 0x100000 * p + 0x1000 * k

/-! ### Fields -/

def Fld.CEL_DIE_INFO.BORROWED : Fld := ⟨21, 16⟩
def Fld.CEL_DIE_INFO.GOOD : Fld := ⟨15, 6⟩
def Fld.CEL_DIE_INFO.LOGICAL : Fld := ⟨5, 3⟩
def Fld.CEL_DIE_INFO.POSITION : Fld := ⟨2, 0⟩
def Fld.CEL_LMAP.PROW_HI : Fld := ⟨25, 21⟩
def Fld.CEL_LMAP.PCOL_HI : Fld := ⟨20, 16⟩
def Fld.CEL_LMAP.PROW_LO : Fld := ⟨9, 5⟩
def Fld.CEL_LMAP.PCOL_LO : Fld := ⟨4, 0⟩
def Fld.CEL_STATE.ITER : Fld := ⟨31, 16⟩
def Fld.CEL_STATE.RUN : Fld := ⟨15, 12⟩
def Fld.CEL_STATE.GLAZE : Fld := ⟨10, 8⟩
def Fld.CEL_STATE.SLOT : Fld := ⟨7, 0⟩
def Fld.CEL_FLAGS.ACC_SAT : Fld := ⟨4, 4⟩
def Fld.CEL_FLAGS.INVALID : Fld := ⟨3, 3⟩
def Fld.CEL_FLAGS.OVERFLOW_CLAMP : Fld := ⟨2, 2⟩
def Fld.CEL_FLAGS.UNDERFLOW : Fld := ⟨1, 1⟩
def Fld.CEL_FLAGS.INEXACT : Fld := ⟨0, 0⟩
def Fld.CEL_FAULT.SLOT_PAR : Fld := ⟨3, 3⟩
def Fld.CEL_FAULT.NET_PAR : Fld := ⟨2, 2⟩
def Fld.CEL_FAULT.SP_UE : Fld := ⟨1, 1⟩
def Fld.CEL_FAULT.ADDR : Fld := ⟨0, 0⟩
def Fld.CEL_FAULT_AT.ADDRESS : Fld := ⟨30, 14⟩
def Fld.CEL_FAULT_AT.UNIT : Fld := ⟨13, 11⟩
def Fld.CEL_FAULT_AT.GLAZE : Fld := ⟨10, 8⟩
def Fld.CEL_FAULT_AT.SLOT : Fld := ⟨7, 0⟩
def Fld.CEL_ACNT.COUNT : Fld := ⟨31, 0⟩
def Fld.CEL_SREG.VALUE : Fld := ⟨31, 0⟩
def Fld.FAB_WDOG.ENABLE : Fld := ⟨16, 16⟩
def Fld.FAB_WDOG.AGE_EXP : Fld := ⟨12, 8⟩
def Fld.FAB_WDOG.LIMIT_EXP : Fld := ⟨4, 0⟩
def Fld.FAB_FAULT.QCHANGE : Fld := ⟨2, 2⟩
def Fld.FAB_FAULT.STALL_AGE : Fld := ⟨1, 1⟩
def Fld.FAB_FAULT.STALL_QUIET : Fld := ⟨0, 0⟩
def Fld.FAB_FAULT_AT.KIND : Fld := ⟨20, 19⟩
def Fld.FAB_FAULT_AT.GLAZE : Fld := ⟨18, 16⟩
def Fld.FAB_FAULT_AT.POINT : Fld := ⟨15, 12⟩
def Fld.FAB_FAULT_AT.NET : Fld := ⟨11, 10⟩
def Fld.FAB_FAULT_AT.CELL : Fld := ⟨9, 0⟩
def Fld.FAB_XING.LATENCY : Fld := ⟨15, 8⟩
def Fld.FAB_XING.WIDTH : Fld := ⟨4, 2⟩
def Fld.FAB_XING.VIA_HUB : Fld := ⟨1, 1⟩
def Fld.FAB_XING.PRESENT : Fld := ⟨0, 0⟩
def Fld.FAB_QOCC.VQ3 : Fld := ⟨31, 24⟩
def Fld.FAB_QOCC.VQ2 : Fld := ⟨23, 16⟩
def Fld.FAB_QOCC.VQ1 : Fld := ⟨15, 8⟩
def Fld.FAB_QOCC.VQ0 : Fld := ⟨7, 0⟩
def Fld.ENG_CANVAS_ADDR.ADDR : Fld := ⟨31, 0⟩
def Fld.ENG_CANVAS_CTRL.STANDBY : Fld := ⟨4, 4⟩
def Fld.ENG_CANVAS_CTRL.UNLOAD : Fld := ⟨3, 3⟩
def Fld.ENG_CANVAS_CTRL.STOP : Fld := ⟨2, 2⟩
def Fld.ENG_CANVAS_CTRL.START : Fld := ⟨1, 1⟩
def Fld.ENG_CANVAS_CTRL.LOAD : Fld := ⟨0, 0⟩
def Fld.ENG_CANVAS_STATUS.CMD_REJ : Fld := ⟨16, 16⟩
def Fld.ENG_CANVAS_STATUS.CODE : Fld := ⟨12, 8⟩
def Fld.ENG_CANVAS_STATUS.STATE : Fld := ⟨3, 0⟩
def Fld.ENG_CANVAS_POS.REPEAT_LEFT : Fld := ⟨31, 16⟩
def Fld.ENG_CANVAS_POS.GLAZE : Fld := ⟨10, 8⟩
def Fld.ENG_CANVAS_POS.STEP : Fld := ⟨5, 0⟩
def Fld.ENG_CANVAS_ID.ID : Fld := ⟨31, 0⟩
def Fld.ENG_STBY_COVER.NO_VARNISH : Fld := ⟨31, 31⟩
def Fld.ENG_STBY_COVER.ENGINES : Fld := ⟨31, 0⟩
def Fld.ENG_STBY_COVER.ENGINES1 : Fld := ⟨15, 0⟩
def Fld.ENG_STBY_AREA.AREA_BLK : Fld := ⟨25, 0⟩
def Fld.ENG_STBY_ARM.ARMED : Fld := ⟨31, 31⟩
def Fld.ENG_STBY_ARM.ARM_CODE : Fld := ⟨27, 24⟩
def Fld.ENG_STBY_ARM.SLOT : Fld := ⟨18, 16⟩
def Fld.ENG_STBY_ARM.STANDBY_ENG : Fld := ⟨13, 8⟩
def Fld.ENG_STBY_ARM.DISARM : Fld := ⟨1, 1⟩
def Fld.ENG_STBY_ARM.ARM : Fld := ⟨0, 0⟩
def Fld.ENG_SPM_POWER.BANKS : Fld := ⟨31, 0⟩
def Fld.ENG_SPM_ZERO.START : Fld := ⟨15, 0⟩
def Fld.ENG_SPM_STATUS.ZBUSY : Fld := ⟨31, 16⟩
def Fld.ENG_SPM_STATUS.PBUSY : Fld := ⟨15, 0⟩
def Fld.ENG_SPM_ERR.CELL_CE : Fld := ⟨31, 16⟩
def Fld.ENG_SPM_ERR.HUB_CE : Fld := ⟨15, 0⟩
def Fld.ENG_SPM_SPARE.ARRAYS_USED : Fld := ⟨22, 16⟩
def Fld.ENG_SPM_SPARE.ROWS_MAPPED : Fld := ⟨15, 0⟩
def Fld.ENG_SPM_CTRL.WB_EN : Fld := ⟨1, 1⟩
def Fld.ENG_SPM_CTRL.CE_CLR : Fld := ⟨0, 0⟩
def Fld.ENG_ACNT_SETV.VALUE : Fld := ⟨31, 0⟩
def Fld.ENG_ACNT_SETI.INDEX : Fld := ⟨7, 0⟩
def Fld.ENG_ACNT.COUNT : Fld := ⟨31, 0⟩
def Fld.ENG_HUB_INFO.PARTITION : Fld := ⟨23, 20⟩
def Fld.ENG_HUB_INFO.SERVED : Fld := ⟨19, 18⟩
def Fld.ENG_HUB_INFO.ENGINE : Fld := ⟨5, 0⟩
def Fld.ENG_NEAR_LIMIT.LIMIT : Fld := ⟨10, 0⟩
def Fld.ENG_SPREAD_SIZE.GIB : Fld := ⟨12, 0⟩
def Fld.ENG_CHK_FAIL_AT.ADDR_LO : Fld := ⟨31, 0⟩
def Fld.ENG_CHK_FAIL_AT.VALID : Fld := ⟨31, 31⟩
def Fld.ENG_CHK_FAIL_AT.FAILS : Fld := ⟨15, 4⟩
def Fld.ENG_CHK_FAIL_AT.ADDR_HI : Fld := ⟨3, 0⟩
def Fld.ENG_MERGE_STAT.MERGED : Fld := ⟨31, 0⟩
def Fld.ENG_STREAM_STAT.CUT : Fld := ⟨15, 0⟩
def Fld.ENG_DMAQ_BASE.BASE64 : Fld := ⟨21, 0⟩
def Fld.ENG_DMAQ_CFG.ENABLE : Fld := ⟨8, 8⟩
def Fld.ENG_DMAQ_CFG.SIZE : Fld := ⟨3, 0⟩
def Fld.ENG_DMAQ_TAIL.TAIL : Fld := ⟨15, 0⟩
def Fld.ENG_DMAQ_HEAD.DONE : Fld := ⟨31, 16⟩
def Fld.ENG_DMAQ_HEAD.HEAD : Fld := ⟨15, 0⟩
def Fld.ENG_DMAQ_STATUS.HALTED : Fld := ⟨31, 31⟩
def Fld.ENG_DMAQ_STATUS.CODE : Fld := ⟨19, 16⟩
def Fld.ENG_DMAQ_STATUS.INDEX : Fld := ⟨15, 0⟩
def Fld.ENG_DMAQ_CTRL.CLEAR : Fld := ⟨2, 2⟩
def Fld.ENG_DMAQ_CTRL.SKIP : Fld := ⟨1, 1⟩
def Fld.ENG_DMAQ_CTRL.RESUME : Fld := ⟨0, 0⟩
def Fld.MC_STACK.TEMP : Fld := ⟨31, 24⟩
def Fld.MC_STACK.REFRESH_X2 : Fld := ⟨16, 16⟩
def Fld.MC_STACK.STATE : Fld := ⟨3, 0⟩
def Fld.MC_ERR.ECC_CE : Fld := ⟨31, 16⟩
def Fld.MC_ERR.PAR_RETRY : Fld := ⟨15, 8⟩
def Fld.MC_ERR.UE : Fld := ⟨7, 0⟩
def Fld.MC_SCRUB.ENABLE : Fld := ⟨31, 31⟩
def Fld.MC_SCRUB.BLOCKS : Fld := ⟨15, 0⟩
def Fld.MC_SCRUB_STAT.FAILS : Fld := ⟨31, 16⟩
def Fld.MC_SCRUB_STAT.SWEEPS : Fld := ⟨15, 0⟩
def Fld.PT_CTRL.RESTORE_EN : Fld := ⟨1, 1⟩
def Fld.PT_CTRL.SNAP_EN : Fld := ⟨0, 0⟩
def Fld.PT_SNAP_ADDR.BASE64 : Fld := ⟨21, 0⟩
def Fld.PT_STATUS.SNAP_BUSY : Fld := ⟨31, 31⟩
def Fld.PT_STATUS.RESTORE_BAD : Fld := ⟨30, 30⟩
def Fld.PT_STATUS.BOUND : Fld := ⟨12, 0⟩
def Fld.PT_CMD_ARG.ARGS : Fld := ⟨31, 0⟩
def Fld.PT_CMD_LIST.BASE_LO : Fld := ⟨31, 0⟩
def Fld.PT_CMD_LIST.REL : Fld := ⟨16, 16⟩
def Fld.PT_CMD_LIST.BASE_HI : Fld := ⟨15, 0⟩
def Fld.PT_CMD.GO : Fld := ⟨0, 0⟩
def Fld.PT_CMD_STATUS.BUSY : Fld := ⟨31, 31⟩
def Fld.PT_CMD_STATUS.CMD_REJ : Fld := ⟨30, 30⟩
def Fld.PT_CMD_STATUS.STATUS : Fld := ⟨23, 16⟩
def Fld.PT_CMD_STATUS.HANDLE : Fld := ⟨15, 0⟩
def Fld.PT_CMD_LEN.LENGTH : Fld := ⟨16, 0⟩
def Fld.PT_CTX_SEL.ID : Fld := ⟨11, 0⟩
def Fld.PT_CTX_DATA.WORD : Fld := ⟨31, 0⟩
def Fld.PT_WALK_HIT.HITS : Fld := ⟨31, 0⟩
def Fld.PT_WALK_MISS.MISSES : Fld := ⟨31, 0⟩
def Fld.PT_QSTAT.HANDLE : Fld := ⟨31, 16⟩
def Fld.PT_QSTAT.DATA_CODE : Fld := ⟨11, 8⟩
def Fld.PT_QSTAT.STATUS : Fld := ⟨7, 0⟩
def Fld.VS_CTRL.AUTO : Fld := ⟨2, 2⟩
def Fld.VS_CTRL.EXPORT_EN : Fld := ⟨1, 1⟩
def Fld.VS_CTRL.SNAP : Fld := ⟨0, 0⟩
def Fld.VS_STATUS.READY : Fld := ⟨31, 31⟩
def Fld.VS_STATUS.EXP_BUSY : Fld := ⟨30, 30⟩
def Fld.VS_STATUS.EXP_CODE : Fld := ⟨3, 0⟩
def Fld.VS_EXPORT_ADDR.ADDR_LO : Fld := ⟨31, 0⟩
def Fld.VS_EXPORT_ADDR.ADDR_HI : Fld := ⟨3, 0⟩
def Fld.VS_MISSED.MISSED : Fld := ⟨15, 0⟩
def Fld.VS_STALL_CTRL.CLEAR : Fld := ⟨1, 1⟩
def Fld.VS_STALL_CTRL.FREEZE : Fld := ⟨0, 0⟩
def Fld.VS_HST.COUNT : Fld := ⟨31, 0⟩
def Fld.VS_RST.COUNT : Fld := ⟨31, 0⟩
def Fld.CEL_STALL.COUNT : Fld := ⟨31, 0⟩
def Fld.CEL_STALL_WHY.DETAIL : Fld := ⟨15, 8⟩
def Fld.CEL_STALL_WHY.REASON : Fld := ⟨3, 0⟩
def Fld.NET_ID.PANEL : Fld := ⟨31, 16⟩
def Fld.NET_ID.RING_STOP : Fld := ⟨8, 8⟩
def Fld.NET_ID.FLOOR : Fld := ⟨7, 4⟩
def Fld.NET_WDOG.ENABLE : Fld := ⟨16, 16⟩
def Fld.NET_WDOG.LIMIT_EXP : Fld := ⟨4, 0⟩
def Fld.NET_INJ.BURST : Fld := ⟨23, 16⟩
def Fld.NET_INJ.RATE : Fld := ⟨10, 0⟩
def Fld.NET_FAULT.SYNC_MISMATCH : Fld := ⟨5, 5⟩
def Fld.NET_FAULT.BAR_OVERRUN : Fld := ⟨4, 4⟩
def Fld.NET_FAULT.ROUTE_LOST : Fld := ⟨3, 3⟩
def Fld.NET_FAULT.LANE_FAIL : Fld := ⟨2, 2⟩
def Fld.NET_FAULT.LINK_DOWN : Fld := ⟨1, 1⟩
def Fld.NET_FAULT.WDOG_BITE : Fld := ⟨0, 0⟩
def Fld.NET_FAULT_AT.KIND : Fld := ⟨19, 16⟩
def Fld.NET_FAULT_AT.NET : Fld := ⟨15, 12⟩
def Fld.NET_FAULT_AT.PORT : Fld := ⟨11, 8⟩
def Fld.NET_FAULT_AT.POSITION : Fld := ⟨5, 0⟩
def Fld.NET_LINK.CRC_REPLAY : Fld := ⟨31, 16⟩
def Fld.NET_LINK.GROUPS : Fld := ⟨11, 8⟩
def Fld.NET_LINK.SPARE_USED : Fld := ⟨7, 7⟩
def Fld.NET_LINK.STATE : Fld := ⟨4, 2⟩
def Fld.NET_LINK.PRESENT : Fld := ⟨0, 0⟩
def Fld.NET_BAR_CFG.SEQ_ARRIVE : Fld := ⟨1, 1⟩
def Fld.NET_BAR_CFG.MEMBER : Fld := ⟨0, 0⟩
def Fld.NET_BAR_ARRIVE.ARRIVE : Fld := ⟨0, 0⟩
def Fld.NET_BAR_STATUS.GEN : Fld := ⟨31, 16⟩
def Fld.NET_BAR_STATUS.OVERRUN : Fld := ⟨3, 3⟩
def Fld.NET_BAR_STATUS.LOST : Fld := ⟨2, 2⟩
def Fld.NET_BAR_STATUS.PENDING : Fld := ⟨1, 1⟩
def Fld.NET_BAR_STATUS.ARRIVED : Fld := ⟨0, 0⟩
def Fld.NET_ABORT.ASSERT : Fld := ⟨0, 0⟩
def Fld.NET_ABORT_STAT.COUNT : Fld := ⟨31, 16⟩
def Fld.NET_ABORT_STAT.PANEL_SEEN : Fld := ⟨1, 1⟩
def Fld.NET_ABORT_STAT.PART_SEEN : Fld := ⟨0, 0⟩
def Fld.NET_RT_FEID.VALID : Fld := ⟨7, 7⟩
def Fld.NET_RT_FEID.PRIMARY : Fld := ⟨6, 6⟩
def Fld.NET_RT_FEID.POSITION : Fld := ⟨5, 0⟩
def Fld.NET_RT_POS.DOWN : Fld := ⟨18, 18⟩
def Fld.NET_RT_POS.CTL_ALT : Fld := ⟨17, 15⟩
def Fld.NET_RT_POS.CTL_PRI : Fld := ⟨14, 12⟩
def Fld.NET_RT_POS.REP_ALT : Fld := ⟨11, 9⟩
def Fld.NET_RT_POS.REP_PRI : Fld := ⟨8, 6⟩
def Fld.NET_RT_POS.REQ_ALT : Fld := ⟨5, 3⟩
def Fld.NET_RT_POS.REQ_PRI : Fld := ⟨2, 0⟩
def Fld.NET_RT_REMOTE.PANEL_HI : Fld := ⟨31, 16⟩
def Fld.NET_RT_REMOTE.PANEL_LO : Fld := ⟨15, 0⟩
def Fld.NET_RT_REMOTE.VALID : Fld := ⟨31, 31⟩
def Fld.NET_RT_REMOTE.POSITION : Fld := ⟨5, 0⟩
def Fld.CAD_MASTER.COUNT : Fld := ⟨31, 0⟩
def Fld.CAD_BEAT_CFG.HOST : Fld := ⟨8, 8⟩
def Fld.CAD_BEAT_CFG.LINK : Fld := ⟨6, 4⟩
def Fld.CAD_BEAT_CFG.SOURCE : Fld := ⟨2, 0⟩
def Fld.CAD_BEAT_PERIOD.PERIOD : Fld := ⟨29, 0⟩
def Fld.CAD_BEAT_STAT.MISSED : Fld := ⟨11, 8⟩
def Fld.CAD_BEAT_STAT.STATE : Fld := ⟨2, 0⟩
def Fld.CAD_BEAT_ERR.ERR : Fld := ⟨31, 0⟩
def Fld.CAD_BEAT_LAST.COUNT : Fld := ⟨31, 0⟩
def Fld.CAD_BEAT_CNT.WINDOW : Fld := ⟨31, 24⟩
def Fld.CAD_BEAT_CNT.NARROW : Fld := ⟨23, 16⟩
def Fld.CAD_BEAT_CNT.ACCEPTED : Fld := ⟨15, 0⟩
def Fld.CAD_PTM_OFFSET.OFFSET : Fld := ⟨31, 0⟩
def Fld.CAD_SET.VALUE : Fld := ⟨31, 0⟩
def Fld.CAD_CTRL.SET : Fld := ⟨0, 0⟩
def Fld.CAD_FAULT.CFG_REJ : Fld := ⟨7, 7⟩
def Fld.CAD_FAULT.SCHED_LOST : Fld := ⟨6, 6⟩
def Fld.CAD_FAULT.MARGIN_LOST : Fld := ⟨5, 5⟩
def Fld.CAD_FAULT.MARGIN_WARN : Fld := ⟨4, 4⟩
def Fld.CAD_FAULT.TIME_UNLOCK : Fld := ⟨3, 3⟩
def Fld.CAD_FAULT.REF_LOST : Fld := ⟨2, 2⟩
def Fld.CAD_FAULT.BEAT_STUCK : Fld := ⟨1, 1⟩
def Fld.CAD_FAULT.BEAT_LOST : Fld := ⟨0, 0⟩
def Fld.CAD_MARGIN_CFG.WARN_LIMIT : Fld := ⟨15, 0⟩
def Fld.CAD_PART_ORIGIN.ORIGIN : Fld := ⟨31, 0⟩
def Fld.CAD_PART_PERIOD.PERIOD : Fld := ⟨31, 0⟩
def Fld.CAD_ENG_CLK.FREQ : Fld := ⟨21, 12⟩
def Fld.CAD_ENG_CLK.REF : Fld := ⟨9, 8⟩
def Fld.CAD_ENG_CLK.HOPS : Fld := ⟨5, 0⟩
def Fld.CAD_ENG_DROOP.DROOPS : Fld := ⟨31, 16⟩
def Fld.CAD_ENG_DROOP.MIN_FREQ : Fld := ⟨9, 0⟩
def Fld.CAD_ENG_MARGIN.WARN : Fld := ⟨31, 16⟩
def Fld.CAD_ENG_MARGIN.POSITION : Fld := ⟨10, 8⟩
def Fld.CAD_ENG_MARGIN.REPLICA : Fld := ⟨7, 4⟩
def Fld.CAD_ENG_FAULT.SYNC_MISS : Fld := ⟨15, 8⟩
def Fld.CAD_ENG_FAULT.SCHED_LOST : Fld := ⟨4, 4⟩
def Fld.CAD_ENG_FAULT.MARGIN_LOST : Fld := ⟨3, 3⟩
def Fld.CAD_ENG_FAULT.MARGIN_WARN : Fld := ⟨2, 2⟩
def Fld.CAD_ENG_FAULT.TIME_UNLOCK : Fld := ⟨1, 1⟩
def Fld.CAD_ENG_FAULT.REF_LOST : Fld := ⟨0, 0⟩
def Fld.CAD_ENG_COUNT.COUNT : Fld := ⟨31, 0⟩
def Fld.CAD_ENG_PERIOD.SEQ : Fld := ⟨31, 0⟩
def Fld.CAD_ENG_PHASE.SKIPPED : Fld := ⟨31, 16⟩
def Fld.CAD_ENG_PHASE.PLAN : Fld := ⟨8, 8⟩
def Fld.CAD_ENG_PHASE.PHASE : Fld := ⟨2, 0⟩
def Fld.CAD_ENG_LAG.LAG : Fld := ⟨31, 0⟩
def Fld.CAD_ENG_BUDGET.LEFT : Fld := ⟨31, 0⟩
def Fld.CAD_ENG_CTRL.REALIGN : Fld := ⟨0, 0⟩
def Fld.HP_PORT_STAT.REVERSED : Fld := ⟨19, 19⟩
def Fld.HP_PORT_STAT.RATE : Fld := ⟨18, 16⟩
def Fld.HP_PORT_STAT.WIDTH : Fld := ⟨12, 8⟩
def Fld.HP_PORT_STAT.STATE : Fld := ⟨1, 0⟩
def Fld.HP_PORT_ERR.PERST_STUCK : Fld := ⟨31, 31⟩
def Fld.HP_PORT_ERR.SURPRISE : Fld := ⟨30, 30⟩
def Fld.HP_PORT_ERR.PERST_NARROW : Fld := ⟨15, 8⟩
def Fld.HP_PORT_ERR.SD_COUNT : Fld := ⟨7, 0⟩
def Fld.HP_WERR.ADDR_LO : Fld := ⟨31, 0⟩
def Fld.HP_WERR.VALID : Fld := ⟨31, 31⟩
def Fld.HP_WERR.SPACE : Fld := ⟨29, 28⟩
def Fld.HP_WERR.CODE : Fld := ⟨27, 24⟩
def Fld.HP_WERR.FUNCTION : Fld := ⟨23, 20⟩
def Fld.HP_WERR.FAILS : Fld := ⟨19, 8⟩
def Fld.HP_WERR.ADDR_HI : Fld := ⟨3, 0⟩
def Fld.HP_WIN.ENABLE : Fld := ⟨31, 31⟩
def Fld.HP_WIN.COUNTER : Fld := ⟨25, 18⟩
def Fld.HP_WIN.BASE : Fld := ⟨17, 0⟩
def Fld.HP_VFWIN.ENABLE : Fld := ⟨31, 31⟩
def Fld.HP_VFWIN.COUNTER : Fld := ⟨25, 18⟩
def Fld.HP_VFWIN.BASE : Fld := ⟨17, 0⟩
def Fld.HP_QC_ARG.CMD_BASE_LO : Fld := ⟨31, 12⟩
def Fld.HP_QC_ARG.CMD_BASE_HI : Fld := ⟨31, 0⟩
def Fld.HP_QC_ARG.CPL_BASE_LO : Fld := ⟨31, 12⟩
def Fld.HP_QC_ARG.CPL_BASE_HI : Fld := ⟨31, 0⟩
def Fld.HP_QC_ARG.IRQ_EN : Fld := ⟨19, 19⟩
def Fld.HP_QC_ARG.VECTOR : Fld := ⟨18, 8⟩
def Fld.HP_QC_ARG.CPL_SIZE : Fld := ⟨7, 4⟩
def Fld.HP_QC_ARG.CMD_SIZE : Fld := ⟨3, 0⟩
def Fld.HP_QC_CMD.CTX : Fld := ⟨21, 16⟩
def Fld.HP_QC_CMD.OP : Fld := ⟨7, 0⟩
def Fld.HP_QC_RESULT.BUSY : Fld := ⟨31, 31⟩
def Fld.HP_QC_RESULT.STATUS : Fld := ⟨23, 16⟩
def Fld.HP_QC_RESULT.CTX : Fld := ⟨5, 0⟩
def Fld.HP_EVT_BASE.BASE_LO : Fld := ⟨31, 12⟩
def Fld.HP_EVT_BASE.BASE_HI : Fld := ⟨31, 0⟩
def Fld.HP_EVT_CFG.ENABLE : Fld := ⟨31, 31⟩
def Fld.HP_EVT_CFG.VECTOR : Fld := ⟨15, 5⟩
def Fld.HP_EVT_CFG.SIZE : Fld := ⟨3, 0⟩
def Fld.HP_EVT_HEAD.HEAD : Fld := ⟨15, 0⟩
def Fld.HP_EVT_TAIL.DROPPED : Fld := ⟨31, 16⟩
def Fld.HP_EVT_TAIL.TAIL : Fld := ⟨15, 0⟩
def Fld.HP_VF_ESEL.ENGINE : Fld := ⟨5, 0⟩
def Fld.HP_QCTX.HEAD : Fld := ⟨31, 16⟩
def Fld.HP_QCTX.CODE : Fld := ⟨15, 8⟩
def Fld.HP_QCTX.OWNER : Fld := ⟨7, 4⟩
def Fld.HP_QCTX.STATE : Fld := ⟨2, 0⟩
def Fld.FQ_CFG.ENABLE : Fld := ⟨31, 31⟩
def Fld.FQ_CFG.NOTICE : Fld := ⟨30, 29⟩
def Fld.FQ_CFG.FRAMED : Fld := ⟨28, 28⟩
def Fld.FQ_CFG.ORDER : Fld := ⟨27, 27⟩
def Fld.FQ_CFG.VECTOR : Fld := ⟨26, 16⟩
def Fld.FQ_CFG.FUNCTION : Fld := ⟨11, 8⟩
def Fld.FQ_CFG.ENGINE : Fld := ⟨5, 0⟩
def Fld.FQ_STAT.FULL : Fld := ⟨31, 31⟩
def Fld.FQ_STAT.OVERRUN : Fld := ⟨30, 30⟩
def Fld.FQ_STAT.DAMAGED : Fld := ⟨29, 29⟩
def Fld.FQ_STAT.UE : Fld := ⟨28, 28⟩
def Fld.FQ_STAT.CFG_REJ : Fld := ⟨27, 27⟩
def Fld.FQ_STAT.PACKETS : Fld := ⟨22, 12⟩
def Fld.FQ_STAT.WORDS : Fld := ⟨10, 0⟩
def Fld.FQ_ERR.CE : Fld := ⟨31, 16⟩
def Fld.FQ_ERR.UE : Fld := ⟨15, 0⟩
def Fld.FQ_CTRL.FLUSH : Fld := ⟨0, 0⟩
def Fld.LNK_PORT_STAT.LANES : Fld := ⟨20, 16⟩
def Fld.LNK_PORT_STAT.PAIR : Fld := ⟨8, 8⟩
def Fld.LNK_PORT_STAT.STATE : Fld := ⟨3, 0⟩
def Fld.LNK_PORT_CTRL.ALT_EN : Fld := ⟨7, 7⟩
def Fld.LNK_PORT_CTRL.ALT_PORT : Fld := ⟨6, 4⟩
def Fld.LNK_PORT_CTRL.DATELINE : Fld := ⟨2, 2⟩
def Fld.LNK_PORT_CTRL.BEAT_TX : Fld := ⟨1, 1⟩
def Fld.LNK_PORT_CTRL.RETRAIN : Fld := ⟨0, 0⟩
def Fld.LNK_PORT_PEER.PANEL : Fld := ⟨31, 16⟩
def Fld.LNK_PORT_PEER.PORT : Fld := ⟨10, 8⟩
def Fld.LNK_PORT_PEER.MISMATCH : Fld := ⟨7, 0⟩
def Fld.LNK_PORT_DELAY.DELAY : Fld := ⟨15, 0⟩
def Fld.LNK_PORT_CNT.REPLAY : Fld := ⟨31, 16⟩
def Fld.LNK_PORT_CNT.LANE_FAIL : Fld := ⟨15, 0⟩
def Fld.LNK_PORT_CNT.ABORTED : Fld := ⟨31, 16⟩
def Fld.LNK_PORT_CNT.BAD : Fld := ⟨15, 0⟩
def Fld.LNK_CFG.HORIZON : Fld := ⟨27, 16⟩
def Fld.LNK_CFG.COLL_TIMEOUT : Fld := ⟨15, 0⟩
def Fld.LNK_ACCESS.PARTS : Fld := ⟨15, 0⟩
def Fld.LNK_TIMEOUT.US : Fld := ⟨15, 0⟩
def Fld.LNK_FAULT.CFG_REJ : Fld := ⟨7, 7⟩
def Fld.LNK_FAULT.EXPELLED : Fld := ⟨6, 6⟩
def Fld.LNK_FAULT.PAIR_UNPROTECTED : Fld := ⟨5, 5⟩
def Fld.LNK_FAULT.PAIR_SPLIT : Fld := ⟨4, 4⟩
def Fld.LNK_FAULT.PAIR_OVERFLOW : Fld := ⟨3, 3⟩
def Fld.LNK_FAULT.COLL_ABORT : Fld := ⟨2, 2⟩
def Fld.LNK_FAULT.HOP_LIMIT : Fld := ⟨1, 1⟩
def Fld.LNK_FAULT.PORT : Fld := ⟨0, 0⟩
def Fld.LNK_REDIR.FAILED : Fld := ⟨31, 16⟩
def Fld.LNK_REDIR.ADOPTER : Fld := ⟨15, 0⟩
def Fld.LNK_COLL_CFG.ENABLE : Fld := ⟨31, 31⟩
def Fld.LNK_COLL_CFG.OP : Fld := ⟨30, 30⟩
def Fld.LNK_COLL_CFG.DIE : Fld := ⟨29, 27⟩
def Fld.LNK_COLL_CFG.PARENT : Fld := ⟨26, 23⟩
def Fld.LNK_COLL_CFG.CHILDREN : Fld := ⟨22, 15⟩
def Fld.LNK_COLL_CFG.LOCAL : Fld := ⟨14, 9⟩
def Fld.LNK_COLL_CFG.DIAMETER : Fld := ⟨31, 20⟩
def Fld.LNK_COLL_CFG.WORDS : Fld := ⟨19, 0⟩
def Fld.LNK_COLL_CFG.RESULT_LO : Fld := ⟨31, 0⟩
def Fld.LNK_COLL_CFG.RESULT_CTR : Fld := ⟨11, 4⟩
def Fld.LNK_COLL_CFG.RESULT_HI : Fld := ⟨3, 0⟩
def Fld.LNK_COLL_STAT.STEP : Fld := ⟨31, 16⟩
def Fld.LNK_COLL_STAT.CAUSE : Fld := ⟨15, 12⟩
def Fld.LNK_COLL_STAT.STATE : Fld := ⟨1, 0⟩
def Fld.LNK_COLL_CTRL.ABORT : Fld := ⟨1, 1⟩
def Fld.LNK_COLL_CTRL.RESET : Fld := ⟨0, 0⟩
def Fld.LNK_PAIR_CTRL.PART : Fld := ⟨7, 4⟩
def Fld.LNK_PAIR_CTRL.TAKEOVER : Fld := ⟨1, 1⟩
def Fld.LNK_PAIR_CTRL.ENABLE : Fld := ⟨0, 0⟩
def Fld.LNK_PAIR_STAT.PARTNER : Fld := ⟨31, 16⟩
def Fld.LNK_PAIR_STAT.CODE : Fld := ⟨15, 8⟩
def Fld.LNK_PAIR_STAT.STATE : Fld := ⟨2, 0⟩
def Fld.LNK_PAIR_STAGE.BASE_LO : Fld := ⟨31, 0⟩
def Fld.LNK_PAIR_STAGE.BASE_HI : Fld := ⟨3, 0⟩
def Fld.LNK_PAIR_STAGE.BLOCKS : Fld := ⟨20, 0⟩
def Fld.LNK_PAIR_REGION.BASE : Fld := ⟨31, 0⟩
def Fld.LNK_PAIR_REGION.LEN : Fld := ⟨24, 0⟩
def Fld.LNK_PAIR_REGION.MIRROR : Fld := ⟨31, 0⟩
def Fld.LNK_PAIR_MAP.VALID : Fld := ⟨6, 6⟩
def Fld.LNK_PAIR_MAP.STANDIN : Fld := ⟨5, 0⟩
def Fld.LNK_QUORUM.BAD : Fld := ⟨31, 16⟩
def Fld.LNK_QUORUM.SIZE : Fld := ⟨2, 0⟩
def Fld.LNK_QUORUM_MGR.PANEL_B : Fld := ⟨31, 16⟩
def Fld.LNK_QUORUM_MGR.PANEL_A : Fld := ⟨15, 0⟩
def Fld.LNK_EXPEL.VALID : Fld := ⟨31, 31⟩
def Fld.LNK_EXPEL.PANEL : Fld := ⟨15, 0⟩
def Fld.SK_GUEST_STAT.QUALIFIED : Fld := ⟨7, 7⟩
def Fld.SK_GUEST_STAT.ADMITTED : Fld := ⟨6, 6⟩
def Fld.SK_GUEST_STAT.IN_RESET : Fld := ⟨5, 5⟩
def Fld.SK_GUEST_STAT.POWERED : Fld := ⟨4, 4⟩
def Fld.SK_GUEST_STAT.PRESENT : Fld := ⟨3, 3⟩
def Fld.SK_GUEST_CTRL.REVOKE : Fld := ⟨3, 3⟩
def Fld.SK_GUEST_CTRL.RELEASE : Fld := ⟨2, 2⟩
def Fld.SK_GUEST_CTRL.RESET : Fld := ⟨1, 1⟩
def Fld.SK_GUEST_CTRL.ADMIT : Fld := ⟨0, 0⟩
def Fld.SK_GUEST_PWR.AMPS : Fld := ⟨31, 16⟩
def Fld.SK_GUEST_PWR.MV5 : Fld := ⟨6, 0⟩
def Fld.SK_GUEST_ACCESS.PARTS : Fld := ⟨15, 0⟩
def Fld.SK_GUEST_TIMEOUT.US : Fld := ⟨15, 0⟩
def Fld.SK_GUEST_ERR.GUEST_TRIP : Fld := ⟨31, 31⟩
def Fld.SK_GUEST_ERR.GUEST_TIMEOUT : Fld := ⟨30, 30⟩
def Fld.SK_GUEST_ERR.MISMATCH_ID : Fld := ⟨29, 29⟩
def Fld.SK_GUEST_ERR.BAD : Fld := ⟨15, 0⟩
def Fld.SK_GUEST_PORT.RETRY : Fld := ⟨31, 16⟩
def Fld.SK_GUEST_PORT.REPAIRED : Fld := ⟨15, 8⟩
def Fld.SK_GUEST_PORT.WIDTH : Fld := ⟨4, 2⟩
def Fld.SK_GUEST_PORT.STATE : Fld := ⟨1, 0⟩
def Fld.SK_GUEST_CAP.WORD : Fld := ⟨31, 0⟩
def Fld.SK_PORT.RETRY : Fld := ⟨31, 16⟩
def Fld.SK_PORT.REPAIRED : Fld := ⟨15, 8⟩
def Fld.SK_PORT.WIDTH : Fld := ⟨4, 2⟩
def Fld.SK_PORT.STATE : Fld := ⟨1, 0⟩
def Fld.PWR_MODE.TRAY : Fld := ⟨7, 7⟩
def Fld.PWR_MODE.MISMATCH : Fld := ⟨6, 6⟩
def Fld.PWR_MODE.MODE : Fld := ⟨5, 4⟩
def Fld.PWR_MODE.IMAGE : Fld := ⟨3, 2⟩
def Fld.PWR_MODE.STRAP : Fld := ⟨1, 0⟩
def Fld.PWR_INPUT.AMPS : Fld := ⟨31, 16⟩
def Fld.PWR_INPUT.DECIVOLT : Fld := ⟨15, 0⟩
def Fld.PWR_LIMIT.INST : Fld := ⟨31, 16⟩
def Fld.PWR_LIMIT.SUSTAIN : Fld := ⟨15, 0⟩
def Fld.PWR_BUDGET.HELD : Fld := ⟨31, 16⟩
def Fld.PWR_BUDGET.DRAW : Fld := ⟨15, 0⟩
def Fld.PWR_PEAK.THROTTLING : Fld := ⟨31, 31⟩
def Fld.PWR_PEAK.STORE : Fld := ⟨6, 0⟩
def Fld.PWR_FAULT.REG_LOSS : Fld := ⟨8, 8⟩
def Fld.PWR_FAULT.BRK_TRIP : Fld := ⟨7, 7⟩
def Fld.PWR_FAULT.RAMP_ABORT : Fld := ⟨6, 6⟩
def Fld.PWR_FAULT.EDGE_UV : Fld := ⟨5, 5⟩
def Fld.PWR_FAULT.THROTTLE : Fld := ⟨4, 4⟩
def Fld.PWR_FAULT.MODE_MISMATCH : Fld := ⟨3, 3⟩
def Fld.PWR_FAULT.INPUT_LOST : Fld := ⟨2, 2⟩
def Fld.PWR_FAULT.INPUT_HIGH : Fld := ⟨1, 1⟩
def Fld.PWR_FAULT.INPUT_LOW : Fld := ⟨0, 0⟩
def Fld.PWR_COLBUS.MV : Fld := ⟨15, 0⟩
def Fld.PWR_ENG_CTRL.OFF : Fld := ⟨1, 1⟩
def Fld.PWR_ENG_CTRL.ON : Fld := ⟨0, 0⟩
def Fld.PWR_ENG_STAT.THROTTLE : Fld := ⟨19, 16⟩
def Fld.PWR_ENG_STAT.CODE : Fld := ⟨11, 8⟩
def Fld.PWR_ENG_STAT.STATE : Fld := ⟨2, 0⟩
def Fld.PWR_ENG_RES.WATTS : Fld := ⟨11, 0⟩
def Fld.PWR_ENG_VLOGIC.STEP : Fld := ⟨4, 0⟩
def Fld.PWR_ENG_VSET.VSET : Fld := ⟨31, 20⟩
def Fld.PWR_ENG_VSET.MIN : Fld := ⟨19, 8⟩
def Fld.PWR_ENG_VSET.DIE : Fld := ⟨2, 0⟩
def Fld.PWR_ENG_DRAW.AMPS : Fld := ⟨31, 16⟩
def Fld.PWR_ENG_DRAW.WATTS : Fld := ⟨15, 0⟩
def Fld.PWR_ENG_REG.HUB : Fld := ⟨29, 25⟩
def Fld.PWR_ENG_REG.M0 : Fld := ⟨4, 0⟩
def Fld.PWR_ENG_REG.M1 : Fld := ⟨9, 5⟩
def Fld.PWR_ENG_REG.M2 : Fld := ⟨14, 10⟩
def Fld.PWR_ENG_REG.M3 : Fld := ⟨19, 15⟩
def Fld.PWR_ENG_REG.M4 : Fld := ⟨24, 20⟩
def Fld.PWR_ENG_PHASE.CAP : Fld := ⟨21, 12⟩
def Fld.PWR_ENG_PHASE.PHASES : Fld := ⟨4, 0⟩
def Fld.PWR_ENG_BRK.LATCHED : Fld := ⟨31, 31⟩
def Fld.PWR_ENG_BRK.TRIP : Fld := ⟨30, 30⟩
def Fld.PWR_ENG_BRK.LIMIT : Fld := ⟨23, 12⟩
def Fld.PWR_ENG_BRK.CAUSE : Fld := ⟨11, 8⟩
def Fld.PWR_ENG_BRK.TRIPS : Fld := ⟨7, 0⟩
def Fld.PNL_BOOT.TIME_MS : Fld := ⟨31, 16⟩
def Fld.PNL_BOOT.INSERVICE : Fld := ⟨15, 10⟩
def Fld.PNL_BOOT.CLASS : Fld := ⟨8, 8⟩
def Fld.PNL_BOOT.STATE : Fld := ⟨3, 0⟩
def Fld.PNL_INPUT.MRST_STUCK : Fld := ⟨31, 31⟩
def Fld.PNL_INPUT.MRST : Fld := ⟨30, 30⟩
def Fld.PNL_INPUT.PWRGD : Fld := ⟨29, 29⟩
def Fld.PNL_INPUT.PWRGD_NARROW : Fld := ⟨15, 8⟩
def Fld.PNL_INPUT.MRST_NARROW : Fld := ⟨7, 0⟩
def Fld.PNL_RESET.GO : Fld := ⟨31, 31⟩
def Fld.PNL_RESET.PART : Fld := ⟨19, 16⟩
def Fld.PNL_RESET.ENGINE : Fld := ⟨13, 8⟩
def Fld.PNL_RESET.SCOPE : Fld := ⟨2, 0⟩
def Fld.PNL_RESET_STAT.BUSY : Fld := ⟨31, 31⟩
def Fld.PNL_RESET_STAT.SCOPE : Fld := ⟨30, 28⟩
def Fld.PNL_RESET_STAT.CODE : Fld := ⟨11, 8⟩
def Fld.PNL_RESET_STAT.FULLS : Fld := ⟨7, 0⟩
def Fld.PNL_DEFECT.FULL : Fld := ⟨31, 31⟩
def Fld.PNL_DEFECT.ENTRIES : Fld := ⟨18, 0⟩
def Fld.PNL_ENG_STATE.TIME_MS : Fld := ⟨31, 16⟩
def Fld.PNL_ENG_STATE.RESULT : Fld := ⟨15, 12⟩
def Fld.PNL_ENG_STATE.SPARE : Fld := ⟨10, 8⟩
def Fld.PNL_ENG_STATE.WAVE : Fld := ⟨7, 4⟩
def Fld.PNL_ENG_STATE.STATE : Fld := ⟨3, 0⟩
def Fld.EZ_STEP.STEP : Fld := ⟨7, 0⟩
def Fld.EZ_STEP_ENG.ENGINES : Fld := ⟨31, 0⟩
def Fld.EZ_STEP_ENG.ENGINES1 : Fld := ⟨15, 0⟩
def Fld.EZ_STEP_STAT.BUSY : Fld := ⟨31, 31⟩
def Fld.EZ_STEP_STAT.STEP : Fld := ⟨23, 16⟩
def Fld.EZ_STEP_STAT.CODE : Fld := ⟨15, 8⟩
def Fld.ENG_RESET.BUSY : Fld := ⟨31, 31⟩
def Fld.ENG_RESET.CODE : Fld := ⟨27, 24⟩
def Fld.ENG_RESET.DIE : Fld := ⟨17, 17⟩
def Fld.ENG_RESET.CELL : Fld := ⟨16, 16⟩
def Fld.ENG_RESET.LDIE : Fld := ⟨11, 10⟩
def Fld.ENG_RESET.LCELL : Fld := ⟨9, 0⟩
def Fld.FLT_SRC.COUNT : Fld := ⟨31, 16⟩
def Fld.FLT_SRC.ESC_EN : Fld := ⟨8, 8⟩
def Fld.FLT_SRC.SEVERITY : Fld := ⟨2, 0⟩
def Fld.FLT_PEND.CLASS : Fld := ⟨12, 0⟩
def Fld.FLT_PIN.ASSERTED : Fld := ⟨31, 31⟩
def Fld.FLT_PIN.PULSE : Fld := ⟨30, 30⟩
def Fld.FLT_PIN.HOLD : Fld := ⟨8, 8⟩
def Fld.FLT_PIN.MIN_SEV : Fld := ⟨2, 0⟩
def Fld.FLT_NOTIFY.ENABLE : Fld := ⟨31, 31⟩
def Fld.FLT_NOTIFY.MIN_SEV : Fld := ⟨18, 16⟩
def Fld.FLT_NOTIFY.VECTOR : Fld := ⟨10, 0⟩
def Fld.FLT_LOG_STAT.LOST : Fld := ⟨31, 16⟩
def Fld.FLT_LOG_STAT.TAIL : Fld := ⟨15, 0⟩
def Fld.FLT_LOG_SEL.INDEX : Fld := ⟨8, 0⟩
def Fld.FLT_LOG_DATA.WORD : Fld := ⟨31, 0⟩
def Fld.FLT_INJECT.GO : Fld := ⟨31, 31⟩
def Fld.FLT_INJECT.ENGINE : Fld := ⟨23, 16⟩
def Fld.FLT_INJECT.SOURCE : Fld := ⟨7, 0⟩
def Fld.THM_COOLANT.INLET : Fld := ⟨31, 16⟩
def Fld.THM_COOLANT.OUTLET : Fld := ⟨15, 0⟩
def Fld.THM_FLOW.FLOW : Fld := ⟨15, 0⟩
def Fld.THM_FLOW_CFG.REARM : Fld := ⟨31, 31⟩
def Fld.THM_FLOW_CFG.PPL : Fld := ⟨15, 0⟩
def Fld.THM_FLOW_CNT.FAST : Fld := ⟨31, 16⟩
def Fld.THM_FLOW_CNT.NARROW : Fld := ⟨15, 0⟩
def Fld.THM_STAT.SHUTDOWN : Fld := ⟨5, 5⟩
def Fld.THM_STAT.STUCK : Fld := ⟨4, 4⟩
def Fld.THM_STAT.SENSOR : Fld := ⟨3, 3⟩
def Fld.THM_STAT.INLET_RANGE : Fld := ⟨2, 2⟩
def Fld.THM_STAT.FLOW_CRIT : Fld := ⟨1, 1⟩
def Fld.THM_STAT.FLOW_LOW : Fld := ⟨0, 0⟩
def Fld.THM_ENG_TEMP.JUNCTION : Fld := ⟨31, 24⟩
def Fld.THM_ENG_TEMP.STACK0 : Fld := ⟨23, 16⟩
def Fld.THM_ENG_TEMP.STACK1 : Fld := ⟨15, 8⟩
def Fld.THM_ENG_TEMP.LEVEL : Fld := ⟨3, 0⟩
def Fld.THM_ENG_STAT.TEMP_TRIP : Fld := ⟨31, 31⟩
def Fld.THM_ENG_STAT.TEMP_HIGH : Fld := ⟨30, 30⟩
def Fld.THM_ENG_STAT.NO_SENSOR : Fld := ⟨29, 29⟩
def Fld.THM_ENG_STAT.HOT_DIE : Fld := ⟨10, 8⟩
def Fld.THM_ENG_STAT.MAX : Fld := ⟨7, 0⟩
def Fld.THM_ENG_CYCLE.HALVES : Fld := ⟨31, 0⟩
def Fld.EZ_INFO.FW_VERSION : Fld := ⟨31, 16⟩
def Fld.EZ_INFO.SHED : Fld := ⟨9, 8⟩
def Fld.EZ_INFO.STANDBY_OK : Fld := ⟨2, 2⟩
def Fld.EZ_INFO.ACTIVE : Fld := ⟨0, 0⟩
def Fld.EZ_TAKEOVER.PLANNED : Fld := ⟨31, 24⟩
def Fld.EZ_TAKEOVER.UNPLANNED : Fld := ⟨23, 16⟩
def Fld.EZ_TAKEOVER.CAUSE : Fld := ⟨3, 0⟩
def Fld.EZ_FW_SVN.SVN : Fld := ⟨31, 0⟩
def Fld.EZ_MIN_SVN.SVN : Fld := ⟨31, 0⟩
def Fld.EZ_MB_CTRL.GO : Fld := ⟨31, 31⟩
def Fld.EZ_MB_CTRL.IRQ_EN : Fld := ⟨16, 16⟩
def Fld.EZ_MB_CTRL.VECTOR : Fld := ⟨10, 0⟩
def Fld.EZ_MB_STAT.BUSY : Fld := ⟨31, 31⟩
def Fld.EZ_MB_STAT.DONE : Fld := ⟨30, 30⟩
def Fld.EZ_MB_STAT.REJ : Fld := ⟨29, 29⟩
def Fld.EZ_MB_STAT.STATUS : Fld := ⟨23, 16⟩
def Fld.EZ_MB_STAT.RETRY_US : Fld := ⟨15, 0⟩
def Fld.SEC_ROLE.OWNER_VALID : Fld := ⟨31, 31⟩
def Fld.SEC_ROLE.OWNER_PORT : Fld := ⟨16, 16⟩
def Fld.SEC_ROLE.HANDOVER : Fld := ⟨2, 2⟩
def Fld.SEC_ROLE.SESSION : Fld := ⟨1, 1⟩
def Fld.SEC_ROLE.TOKEN_SET : Fld := ⟨0, 0⟩
def Fld.SEC_SERIAL.SERIAL : Fld := ⟨31, 0⟩
def Fld.SEC_SIG_INDEX.NEXT_LO : Fld := ⟨31, 0⟩
def Fld.SEC_SIG_INDEX.NEXT_HI : Fld := ⟨7, 0⟩
def Fld.SEC_KEYS.CHAIN : Fld := ⟨4, 4⟩
def Fld.SEC_KEYS.OWNER : Fld := ⟨3, 1⟩
def Fld.LOG_STAT.DENIED : Fld := ⟨31, 16⟩
def Fld.LOG_STAT.LEVEL : Fld := ⟨12, 0⟩
def Fld.LOG_SEQ.SEQ : Fld := ⟨31, 0⟩
def Fld.LOG_UTC.UTC : Fld := ⟨31, 0⟩
def Fld.LOG_UTC_AT.COUNT : Fld := ⟨31, 0⟩
def Fld.PNL_PHYS.MATE : Fld := ⟨31, 31⟩
def Fld.PNL_PHYS.CPRSNT : Fld := ⟨30, 29⟩
def Fld.PNL_PHYS.MATE_NARROW : Fld := ⟨15, 8⟩
def Fld.PNL_PHYS.CPRSNT_NARROW : Fld := ⟨7, 0⟩
def Fld.CMD_TAIL.TAIL : Fld := ⟨15, 0⟩
def Fld.CPL_HEAD.HEAD : Fld := ⟨15, 0⟩


/-! ### The register tables -/

/-- Registers of a matrix die block. -/
def dieRows : List RegRow := [
  ⟨0x0, [], [⟨21, 16, .ro, 0x0⟩, ⟨15, 6, .ro, 0x0⟩, ⟨5, 3, .ro, 0x0⟩, ⟨2, 0, .ro, 0x0⟩]⟩,
  ⟨0x400, [(432, 0x4)], [⟨25, 21, .ro, 0x0⟩, ⟨20, 16, .ro, 0x0⟩, ⟨9, 5, .ro, 0x0⟩, ⟨4, 0, .ro, 0x0⟩]⟩,
  ⟨0x10000, [(864, 0x200)], [⟨31, 16, .ro, 0x0⟩, ⟨15, 12, .ro, 0x0⟩, ⟨10, 8, .ro, 0x0⟩, ⟨7, 0, .ro, 0x0⟩]⟩,
  ⟨0x10004, [(864, 0x200)], [⟨4, 4, .w1c, 0x0⟩, ⟨3, 3, .w1c, 0x0⟩, ⟨2, 2, .w1c, 0x0⟩, ⟨1, 1, .w1c, 0x0⟩, ⟨0, 0, .w1c, 0x0⟩]⟩,
  ⟨0x10008, [(864, 0x200)], [⟨3, 3, .w1c, 0x0⟩, ⟨2, 2, .w1c, 0x0⟩, ⟨1, 1, .w1c, 0x0⟩, ⟨0, 0, .w1c, 0x0⟩]⟩,
  ⟨0x1000C, [(864, 0x200)], [⟨30, 14, .ro, 0x0⟩, ⟨13, 11, .ro, 0x0⟩, ⟨10, 8, .ro, 0x0⟩, ⟨7, 0, .ro, 0x0⟩]⟩,
  ⟨0x10040, [(864, 0x200), (16, 0x4)], [⟨31, 0, .ro, 0x0⟩]⟩,
  ⟨0x10080, [(864, 0x200), (32, 0x4)], [⟨31, 0, .ro, 0x0⟩]⟩,
  ⟨0x1000, [], [⟨16, 16, .rw, 0x1⟩, ⟨12, 8, .rw, 0x14⟩, ⟨4, 0, .rw, 0xE⟩]⟩,
  ⟨0x1004, [], [⟨2, 2, .w1c, 0x0⟩, ⟨1, 1, .w1c, 0x0⟩, ⟨0, 0, .w1c, 0x0⟩]⟩,
  ⟨0x1008, [], [⟨20, 19, .ro, 0x0⟩, ⟨18, 16, .ro, 0x0⟩, ⟨15, 12, .ro, 0x0⟩, ⟨11, 10, .ro, 0x0⟩, ⟨9, 0, .ro, 0x0⟩]⟩,
  ⟨0x1010, [(4, 0x4)], [⟨15, 8, .ro, 0x0⟩, ⟨4, 2, .ro, 0x0⟩, ⟨1, 1, .ro, 0x0⟩, ⟨0, 0, .ro, 0x0⟩]⟩,
  ⟨0x2000, [(864, 0x4)], [⟨31, 24, .ro, 0x0⟩, ⟨23, 16, .ro, 0x0⟩, ⟨15, 8, .ro, 0x0⟩, ⟨7, 0, .ro, 0x0⟩]⟩,
  ⟨0x10100, [(864, 0x200), (18, 0x4)], [⟨31, 0, .ro, 0x0⟩]⟩,
  ⟨0x10148, [(864, 0x200)], [⟨15, 8, .ro, 0x0⟩, ⟨3, 0, .ro, 0x0⟩]⟩]

/-- Registers of the hub control block. -/
def hubRows1 : List RegRow := [
  ⟨0x800, [], [⟨31, 0, .rw, 0x0⟩]⟩,
  ⟨0x804, [], [⟨4, 4, .wo, 0x0⟩, ⟨3, 3, .wo, 0x0⟩, ⟨2, 2, .wo, 0x0⟩, ⟨1, 1, .wo, 0x0⟩, ⟨0, 0, .wo, 0x0⟩]⟩,
  ⟨0x808, [], [⟨16, 16, .w1c, 0x0⟩, ⟨12, 8, .ro, 0x0⟩, ⟨3, 0, .ro, 0x0⟩]⟩,
  ⟨0x80C, [], [⟨31, 16, .ro, 0x0⟩, ⟨10, 8, .ro, 0x0⟩, ⟨5, 0, .ro, 0x0⟩]⟩,
  ⟨0x810, [(2, 0x4)], [⟨31, 0, .ro, 0x0⟩]⟩,
  ⟨0x820, [], [⟨31, 0, .rw, 0x0⟩]⟩,
  ⟨0x824, [], [⟨31, 31, .w1c, 0x0⟩, ⟨15, 0, .rw, 0x0⟩]⟩,
  ⟨0x828, [], [⟨25, 0, .rw, 0x0⟩]⟩,
  ⟨0x82C, [], [⟨31, 31, .ro, 0x0⟩, ⟨27, 24, .ro, 0x0⟩, ⟨18, 16, .ro, 0x0⟩, ⟨13, 8, .rw, 0x0⟩, ⟨1, 1, .wo, 0x0⟩, ⟨0, 0, .wo, 0x0⟩]⟩,
  ⟨0x900, [], [⟨31, 0, .rw, 0x0⟩]⟩,
  ⟨0x904, [], [⟨15, 0, .wo, 0x0⟩]⟩,
  ⟨0x908, [], [⟨31, 16, .ro, 0x0⟩, ⟨15, 0, .ro, 0x0⟩]⟩,
  ⟨0x90C, [], [⟨31, 16, .ro, 0x0⟩, ⟨15, 0, .ro, 0x0⟩]⟩,
  ⟨0x910, [], [⟨22, 16, .ro, 0x0⟩, ⟨15, 0, .ro, 0x0⟩]⟩,
  ⟨0x914, [], [⟨1, 1, .rw, 0x1⟩, ⟨0, 0, .wo, 0x0⟩]⟩,
  ⟨0x918, [], [⟨31, 0, .rw, 0x0⟩]⟩,
  ⟨0x91C, [], [⟨7, 0, .wo, 0x0⟩]⟩,
  ⟨0xC00, [(256, 0x4)], [⟨31, 0, .ro, 0x0⟩]⟩,
  ⟨0x0, [], [⟨23, 20, .ro, 0x0⟩, ⟨19, 18, .ro, 0x0⟩, ⟨5, 0, .ro, 0x0⟩]⟩,
  ⟨0x10, [], [⟨10, 0, .ro, 0x0⟩]⟩]

/-- Registers of the hub control block. -/
def hubRows2 : List RegRow := [
  ⟨0x14, [], [⟨12, 0, .ro, 0x0⟩]⟩,
  ⟨0x20, [], [⟨31, 0, .ro, 0x0⟩]⟩,
  ⟨0x24, [], [⟨31, 31, .w1c, 0x0⟩, ⟨15, 4, .ro, 0x0⟩, ⟨3, 0, .ro, 0x0⟩]⟩,
  ⟨0x30, [], [⟨31, 0, .ro, 0x0⟩]⟩,
  ⟨0x34, [], [⟨15, 0, .ro, 0x0⟩]⟩,
  ⟨0x1000, [(64, 0x20)], [⟨21, 0, .rw, 0x0⟩]⟩,
  ⟨0x1004, [(64, 0x20)], [⟨8, 8, .rw, 0x0⟩, ⟨3, 0, .rw, 0x0⟩]⟩,
  ⟨0x1008, [(64, 0x20)], [⟨15, 0, .rw, 0x0⟩]⟩,
  ⟨0x100C, [(64, 0x20)], [⟨31, 16, .ro, 0x0⟩, ⟨15, 0, .ro, 0x0⟩]⟩,
  ⟨0x1010, [(64, 0x20)], [⟨31, 31, .ro, 0x0⟩, ⟨19, 16, .ro, 0x0⟩, ⟨15, 0, .ro, 0x0⟩]⟩,
  ⟨0x1014, [(64, 0x20)], [⟨2, 2, .wo, 0x0⟩, ⟨1, 1, .wo, 0x0⟩, ⟨0, 0, .wo, 0x0⟩]⟩,
  ⟨0x2000, [], [⟨31, 16, .ro, 0x0⟩, ⟨8, 8, .ro, 0x0⟩, ⟨7, 4, .ro, 0x0⟩]⟩,
  ⟨0x2004, [], [⟨16, 16, .rw, 0x1⟩, ⟨4, 0, .rw, 0xC⟩]⟩,
  ⟨0x2008, [], [⟨23, 16, .rw, 0x10⟩, ⟨10, 0, .rw, 0x0⟩]⟩,
  ⟨0x200C, [], [⟨5, 5, .w1c, 0x0⟩, ⟨4, 4, .w1c, 0x0⟩, ⟨3, 3, .w1c, 0x0⟩, ⟨2, 2, .w1c, 0x0⟩, ⟨1, 1, .w1c, 0x0⟩, ⟨0, 0, .w1c, 0x0⟩]⟩,
  ⟨0x2010, [], [⟨19, 16, .ro, 0x0⟩, ⟨15, 12, .ro, 0x0⟩, ⟨11, 8, .ro, 0x0⟩, ⟨5, 0, .ro, 0x0⟩]⟩,
  ⟨0x2020, [(8, 0x4)], [⟨31, 16, .ro, 0x0⟩, ⟨11, 8, .ro, 0x0⟩, ⟨7, 7, .ro, 0x0⟩, ⟨4, 2, .ro, 0x0⟩, ⟨0, 0, .ro, 0x0⟩]⟩,
  ⟨0x2040, [], [⟨1, 1, .rw, 0x0⟩, ⟨0, 0, .rw, 0x1⟩]⟩,
  ⟨0x2044, [], [⟨0, 0, .wo, 0x0⟩]⟩,
  ⟨0x2048, [], [⟨31, 16, .ro, 0x0⟩, ⟨3, 3, .w1c, 0x0⟩, ⟨2, 2, .w1c, 0x0⟩, ⟨1, 1, .ro, 0x0⟩, ⟨0, 0, .ro, 0x0⟩]⟩]

/-- Registers of the hub control block. -/
def hubRows3 : List RegRow := [
  ⟨0x2050, [], [⟨0, 0, .wo, 0x0⟩]⟩,
  ⟨0x2054, [], [⟨31, 16, .ro, 0x0⟩, ⟨1, 1, .w1c, 0x0⟩, ⟨0, 0, .w1c, 0x0⟩]⟩,
  ⟨0x2400, [(256, 0x4)], [⟨7, 7, .ro, 0x0⟩, ⟨6, 6, .ro, 0x0⟩, ⟨5, 0, .ro, 0x0⟩]⟩,
  ⟨0x2800, [(64, 0x4)], [⟨18, 18, .ro, 0x0⟩, ⟨17, 15, .ro, 0x0⟩, ⟨14, 12, .ro, 0x0⟩, ⟨11, 9, .ro, 0x0⟩, ⟨8, 6, .ro, 0x0⟩, ⟨5, 3, .ro, 0x0⟩, ⟨2, 0, .ro, 0x0⟩]⟩,
  ⟨0x2900, [(16, 0x8)], [⟨31, 16, .ro, 0x0⟩, ⟨15, 0, .ro, 0x0⟩]⟩,
  ⟨0x2904, [(16, 0x8)], [⟨31, 31, .ro, 0x0⟩, ⟨5, 0, .ro, 0x0⟩]⟩,
  ⟨0x40, [], [⟨31, 31, .ro, 0x0⟩, ⟨27, 24, .ro, 0x0⟩, ⟨17, 17, .wo, 0x0⟩, ⟨16, 16, .wo, 0x0⟩, ⟨11, 10, .rw, 0x0⟩, ⟨9, 0, .rw, 0x0⟩]⟩]

/-- Registers of the hub control block. -/
def hubRows : List RegRow := hubRows1 ++ hubRows2 ++ hubRows3

/-- Registers of MC block. -/
def mcRows : List RegRow := [
  ⟨0x40000, [(2, 0x100)], [⟨31, 24, .ro, 0x0⟩, ⟨16, 16, .ro, 0x0⟩, ⟨3, 0, .ro, 0x0⟩]⟩,
  ⟨0x40004, [(2, 0x100)], [⟨31, 16, .ro, 0x0⟩, ⟨15, 8, .ro, 0x0⟩, ⟨7, 0, .ro, 0x0⟩]⟩,
  ⟨0x40400, [], [⟨31, 31, .rw, 0x0⟩, ⟨15, 0, .rw, 0x10⟩]⟩,
  ⟨0x40404, [], [⟨31, 16, .ro, 0x0⟩, ⟨15, 0, .ro, 0x0⟩]⟩]

/-- Registers of PT block. -/
def ptRows : List RegRow := [
  ⟨0x80000, [], [⟨1, 1, .rw, 0x0⟩, ⟨0, 0, .rw, 0x0⟩]⟩,
  ⟨0x80004, [], [⟨21, 0, .rw, 0x0⟩]⟩,
  ⟨0x80008, [], [⟨31, 31, .ro, 0x0⟩, ⟨30, 30, .w1c, 0x0⟩, ⟨12, 0, .ro, 0x0⟩]⟩,
  ⟨0x80010, [(4, 0x4)], [⟨31, 0, .rw, 0x0⟩]⟩,
  ⟨0x80020, [], [⟨31, 0, .rw, 0x0⟩]⟩,
  ⟨0x80024, [], [⟨16, 16, .rw, 0x0⟩, ⟨15, 0, .rw, 0x0⟩]⟩,
  ⟨0x80028, [], [⟨0, 0, .wo, 0x0⟩]⟩,
  ⟨0x8002C, [], [⟨31, 31, .ro, 0x0⟩, ⟨30, 30, .w1c, 0x0⟩, ⟨23, 16, .ro, 0x0⟩, ⟨15, 0, .ro, 0x0⟩]⟩,
  ⟨0x80030, [], [⟨16, 0, .ro, 0x0⟩]⟩,
  ⟨0x80040, [], [⟨11, 0, .rw, 0x0⟩]⟩,
  ⟨0x80044, [(8, 0x4)], [⟨31, 0, .ro, 0x0⟩]⟩,
  ⟨0x80070, [], [⟨31, 0, .ro, 0x0⟩]⟩,
  ⟨0x80074, [], [⟨31, 0, .ro, 0x0⟩]⟩,
  ⟨0x80100, [(64, 0x4)], [⟨31, 16, .ro, 0x0⟩, ⟨11, 8, .ro, 0x0⟩, ⟨7, 0, .ro, 0x0⟩]⟩]

/-- Registers of VS block. -/
def vsRows : List RegRow := [
  ⟨0xC0000, [], [⟨2, 2, .rw, 0x1⟩, ⟨1, 1, .rw, 0x0⟩, ⟨0, 0, .wo, 0x0⟩]⟩,
  ⟨0xC0004, [], [⟨31, 31, .ro, 0x1⟩, ⟨30, 30, .ro, 0x0⟩, ⟨3, 0, .ro, 0x0⟩]⟩,
  ⟨0xC0008, [], [⟨31, 0, .rw, 0x0⟩]⟩,
  ⟨0xC000C, [], [⟨3, 0, .rw, 0x0⟩]⟩,
  ⟨0xC0010, [], [⟨15, 0, .ro, 0x0⟩]⟩,
  ⟨0xC0020, [], [⟨1, 1, .wo, 0x0⟩, ⟨0, 0, .rw, 0x0⟩]⟩,
  ⟨0xC0100, [(10, 0x4)], [⟨31, 0, .ro, 0x0⟩]⟩,
  ⟨0xC0200, [(12, 0x4)], [⟨31, 0, .ro, 0x0⟩]⟩]

/-- Registers of CAD block. -/
def cadRows1 : List RegRow := [
  ⟨0x400000, [(2, 0x4)], [⟨31, 0, .ro, 0x0⟩]⟩,
  ⟨0x400010, [], [⟨8, 8, .rw, 0x0⟩, ⟨6, 4, .rw, 0x0⟩, ⟨2, 0, .rw, 0x0⟩]⟩,
  ⟨0x400014, [], [⟨29, 0, .rw, 0xF4240⟩]⟩,
  ⟨0x400018, [], [⟨11, 8, .ro, 0x0⟩, ⟨2, 0, .ro, 0x0⟩]⟩,
  ⟨0x40001C, [], [⟨31, 0, .ro, 0x0⟩]⟩,
  ⟨0x400020, [(2, 0x4)], [⟨31, 0, .ro, 0x0⟩]⟩,
  ⟨0x400028, [], [⟨31, 24, .ro, 0x0⟩, ⟨23, 16, .ro, 0x0⟩, ⟨15, 0, .ro, 0x0⟩]⟩,
  ⟨0x400030, [(2, 0x4)], [⟨31, 0, .rw, 0x0⟩]⟩,
  ⟨0x400038, [(2, 0x4)], [⟨31, 0, .rw, 0x0⟩]⟩,
  ⟨0x400040, [], [⟨0, 0, .wo, 0x0⟩]⟩,
  ⟨0x400044, [], [⟨7, 7, .w1c, 0x0⟩, ⟨6, 6, .w1c, 0x0⟩, ⟨5, 5, .w1c, 0x0⟩, ⟨4, 4, .w1c, 0x0⟩, ⟨3, 3, .w1c, 0x0⟩, ⟨2, 2, .w1c, 0x0⟩, ⟨1, 1, .w1c, 0x0⟩, ⟨0, 0, .w1c, 0x0⟩]⟩,
  ⟨0x400048, [], [⟨15, 0, .rw, 0x40⟩]⟩,
  ⟨0x400100, [(16, 0x10), (2, 0x4)], [⟨31, 0, .rw, 0x0⟩]⟩,
  ⟨0x400108, [(16, 0x10)], [⟨31, 0, .rw, 0x0⟩]⟩,
  ⟨0x401000, [(48, 0x40)], [⟨21, 12, .ro, 0x0⟩, ⟨9, 8, .ro, 0x0⟩, ⟨5, 0, .ro, 0x0⟩]⟩,
  ⟨0x401004, [(48, 0x40)], [⟨31, 16, .ro, 0x0⟩, ⟨9, 0, .ro, 0x3AC⟩]⟩,
  ⟨0x401008, [(48, 0x40)], [⟨31, 16, .ro, 0x0⟩, ⟨10, 8, .ro, 0x0⟩, ⟨7, 4, .ro, 0x0⟩]⟩,
  ⟨0x40100C, [(48, 0x40)], [⟨15, 8, .ro, 0x0⟩, ⟨4, 4, .w1c, 0x0⟩, ⟨3, 3, .w1c, 0x0⟩, ⟨2, 2, .w1c, 0x0⟩, ⟨1, 1, .w1c, 0x0⟩, ⟨0, 0, .w1c, 0x0⟩]⟩,
  ⟨0x401010, [(48, 0x40), (2, 0x4)], [⟨31, 0, .ro, 0x0⟩]⟩,
  ⟨0x401018, [(48, 0x40)], [⟨31, 0, .ro, 0x0⟩]⟩]

/-- Registers of CAD block. -/
def cadRows2 : List RegRow := [
  ⟨0x40101C, [(48, 0x40)], [⟨31, 16, .ro, 0x0⟩, ⟨8, 8, .ro, 0x0⟩, ⟨2, 0, .ro, 0x0⟩]⟩,
  ⟨0x401020, [(48, 0x40)], [⟨31, 0, .ro, 0x0⟩]⟩,
  ⟨0x401024, [(48, 0x40)], [⟨31, 0, .ro, 0x0⟩]⟩,
  ⟨0x401028, [(48, 0x40)], [⟨0, 0, .wo, 0x0⟩]⟩]

/-- Registers of CAD block. -/
def cadRows : List RegRow := cadRows1 ++ cadRows2

/-- Registers of HP block. -/
def hpRows : List RegRow := [
  ⟨0x500000, [(2, 0x40000)], [⟨19, 19, .ro, 0x0⟩, ⟨18, 16, .ro, 0x0⟩, ⟨12, 8, .ro, 0x0⟩, ⟨1, 0, .ro, 0x0⟩]⟩,
  ⟨0x500004, [(2, 0x40000)], [⟨31, 31, .w1c, 0x0⟩, ⟨30, 30, .w1c, 0x0⟩, ⟨15, 8, .ro, 0x0⟩, ⟨7, 0, .ro, 0x0⟩]⟩,
  ⟨0x500010, [(2, 0x40000)], [⟨31, 0, .ro, 0x0⟩]⟩,
  ⟨0x500014, [(2, 0x40000)], [⟨31, 31, .w1c, 0x0⟩, ⟨29, 28, .ro, 0x0⟩, ⟨27, 24, .ro, 0x0⟩, ⟨23, 20, .ro, 0x0⟩, ⟨19, 8, .ro, 0x0⟩, ⟨3, 0, .ro, 0x0⟩]⟩,
  ⟨0x500100, [(2, 0x40000), (16, 0x4)], [⟨31, 31, .rw, 0x0⟩, ⟨25, 18, .rw, 0x0⟩, ⟨17, 0, .rw, 0x0⟩]⟩,
  ⟨0x500204, [(2, 0x40000), (15, 0x4)], [⟨31, 31, .rw, 0x0⟩, ⟨25, 18, .rw, 0x0⟩, ⟨17, 0, .rw, 0x0⟩]⟩,
  ⟨0x501000, [(2, 0x40000), (16, 0x40)], [⟨31, 12, .rw, 0x0⟩]⟩,
  ⟨0x501004, [(2, 0x40000), (16, 0x40)], [⟨31, 0, .rw, 0x0⟩]⟩,
  ⟨0x501008, [(2, 0x40000), (16, 0x40)], [⟨31, 12, .rw, 0x0⟩]⟩,
  ⟨0x50100C, [(2, 0x40000), (16, 0x40)], [⟨31, 0, .rw, 0x0⟩]⟩,
  ⟨0x501010, [(2, 0x40000), (16, 0x40)], [⟨19, 19, .rw, 0x0⟩, ⟨18, 8, .rw, 0x0⟩, ⟨7, 4, .rw, 0x0⟩, ⟨3, 0, .rw, 0x0⟩]⟩,
  ⟨0x501014, [(2, 0x40000), (16, 0x40)], [⟨21, 16, .wo, 0x0⟩, ⟨7, 0, .wo, 0x0⟩]⟩,
  ⟨0x501018, [(2, 0x40000), (16, 0x40)], [⟨31, 31, .ro, 0x0⟩, ⟨23, 16, .ro, 0x0⟩, ⟨5, 0, .ro, 0x0⟩]⟩,
  ⟨0x501020, [(2, 0x40000), (16, 0x40)], [⟨31, 12, .rw, 0x0⟩]⟩,
  ⟨0x501024, [(2, 0x40000), (16, 0x40)], [⟨31, 0, .rw, 0x0⟩]⟩,
  ⟨0x501028, [(2, 0x40000), (16, 0x40)], [⟨31, 31, .rw, 0x0⟩, ⟨15, 5, .rw, 0x0⟩, ⟨3, 0, .rw, 0x0⟩]⟩,
  ⟨0x50102C, [(2, 0x40000), (16, 0x40)], [⟨15, 0, .rw, 0x0⟩]⟩,
  ⟨0x501030, [(2, 0x40000), (16, 0x40)], [⟨31, 16, .ro, 0x0⟩, ⟨15, 0, .ro, 0x0⟩]⟩,
  ⟨0x501074, [(2, 0x40000), (15, 0x40)], [⟨5, 0, .rw, 0x0⟩]⟩,
  ⟨0x502000, [(2, 0x40000), (64, 0x4)], [⟨31, 16, .ro, 0x0⟩, ⟨15, 8, .ro, 0x0⟩, ⟨7, 4, .ro, 0x0⟩, ⟨2, 0, .ro, 0x0⟩]⟩]

/-- Registers of FQ block. -/
def fqRows : List RegRow := [
  ⟨0x600000, [(2, 0x1000), (16, 0x10)], [⟨31, 31, .rw, 0x0⟩, ⟨30, 29, .rw, 0x0⟩, ⟨28, 28, .rw, 0x1⟩, ⟨27, 27, .rw, 0x0⟩, ⟨26, 16, .rw, 0x0⟩, ⟨11, 8, .rw, 0x0⟩, ⟨5, 0, .rw, 0x0⟩]⟩,
  ⟨0x600004, [(2, 0x1000), (16, 0x10)], [⟨31, 31, .ro, 0x0⟩, ⟨30, 30, .w1c, 0x0⟩, ⟨29, 29, .ro, 0x0⟩, ⟨28, 28, .ro, 0x0⟩, ⟨27, 27, .w1c, 0x0⟩, ⟨22, 12, .ro, 0x0⟩, ⟨10, 0, .ro, 0x0⟩]⟩,
  ⟨0x600008, [(2, 0x1000), (16, 0x10)], [⟨31, 16, .ro, 0x0⟩, ⟨15, 0, .ro, 0x0⟩]⟩,
  ⟨0x60000C, [(2, 0x1000), (16, 0x10)], [⟨0, 0, .wo, 0x0⟩]⟩]

/-- Registers of LNK block. -/
def lnkRows1 : List RegRow := [
  ⟨0x700000, [(8, 0x40)], [⟨20, 16, .ro, 0x0⟩, ⟨8, 8, .ro, 0x0⟩, ⟨3, 0, .ro, 0x0⟩]⟩,
  ⟨0x700004, [(8, 0x40)], [⟨7, 7, .rw, 0x0⟩, ⟨6, 4, .rw, 0x0⟩, ⟨2, 2, .rw, 0x0⟩, ⟨1, 1, .rw, 0x0⟩, ⟨0, 0, .wo, 0x0⟩]⟩,
  ⟨0x700008, [(8, 0x40)], [⟨31, 16, .ro, 0x0⟩, ⟨10, 8, .ro, 0x0⟩, ⟨7, 0, .ro, 0x0⟩]⟩,
  ⟨0x70000C, [(8, 0x40)], [⟨15, 0, .ro, 0x0⟩]⟩,
  ⟨0x700010, [(8, 0x40)], [⟨31, 16, .ro, 0x0⟩, ⟨15, 0, .ro, 0x0⟩]⟩,
  ⟨0x700014, [(8, 0x40)], [⟨31, 16, .ro, 0x0⟩, ⟨15, 0, .ro, 0x0⟩]⟩,
  ⟨0x700400, [], [⟨27, 16, .rw, 0xFFF⟩, ⟨15, 0, .rw, 0x64⟩]⟩,
  ⟨0x700404, [], [⟨15, 0, .rw, 0x0⟩]⟩,
  ⟨0x700408, [], [⟨15, 0, .rw, 0x2710⟩]⟩,
  ⟨0x70040C, [], [⟨7, 7, .w1c, 0x0⟩, ⟨6, 6, .w1c, 0x0⟩, ⟨5, 5, .w1c, 0x0⟩, ⟨4, 4, .w1c, 0x0⟩, ⟨3, 3, .w1c, 0x0⟩, ⟨2, 2, .w1c, 0x0⟩, ⟨1, 1, .w1c, 0x0⟩, ⟨0, 0, .w1c, 0x0⟩]⟩,
  ⟨0x700500, [(16, 0x4)], [⟨31, 16, .ro, 0x0⟩, ⟨15, 0, .ro, 0x0⟩]⟩,
  ⟨0x701000, [(64, 0x20)], [⟨31, 31, .rw, 0x0⟩, ⟨30, 30, .rw, 0x0⟩, ⟨29, 27, .rw, 0x0⟩, ⟨26, 23, .rw, 0x0⟩, ⟨22, 15, .rw, 0x0⟩, ⟨14, 9, .rw, 0x0⟩]⟩,
  ⟨0x701004, [(64, 0x20)], [⟨31, 20, .rw, 0x0⟩, ⟨19, 0, .rw, 0x0⟩]⟩,
  ⟨0x701008, [(64, 0x20)], [⟨31, 0, .rw, 0x0⟩]⟩,
  ⟨0x70100C, [(64, 0x20)], [⟨11, 4, .rw, 0x0⟩, ⟨3, 0, .rw, 0x0⟩]⟩,
  ⟨0x701010, [(64, 0x20)], [⟨31, 16, .ro, 0x0⟩, ⟨15, 12, .ro, 0x0⟩, ⟨1, 0, .ro, 0x0⟩]⟩,
  ⟨0x701014, [(64, 0x20)], [⟨1, 1, .wo, 0x0⟩, ⟨0, 0, .wo, 0x0⟩]⟩,
  ⟨0x702000, [], [⟨7, 4, .rw, 0x0⟩, ⟨1, 1, .wo, 0x0⟩, ⟨0, 0, .rw, 0x0⟩]⟩,
  ⟨0x702004, [], [⟨31, 16, .ro, 0x0⟩, ⟨15, 8, .ro, 0x0⟩, ⟨2, 0, .ro, 0x0⟩]⟩,
  ⟨0x702010, [], [⟨31, 0, .rw, 0x0⟩]⟩]

/-- Registers of LNK block. -/
def lnkRows2 : List RegRow := [
  ⟨0x702014, [], [⟨3, 0, .rw, 0x0⟩]⟩,
  ⟨0x702018, [], [⟨20, 0, .rw, 0x0⟩]⟩,
  ⟨0x702100, [(16, 0x10)], [⟨31, 0, .rw, 0x0⟩]⟩,
  ⟨0x702104, [(16, 0x10)], [⟨24, 0, .rw, 0x0⟩]⟩,
  ⟨0x702108, [(16, 0x10)], [⟨31, 0, .rw, 0x0⟩]⟩,
  ⟨0x702200, [(48, 0x4)], [⟨6, 6, .rw, 0x0⟩, ⟨5, 0, .rw, 0x0⟩]⟩,
  ⟨0x703000, [], [⟨31, 16, .ro, 0x0⟩, ⟨2, 0, .rw, 0x3⟩]⟩,
  ⟨0x703004, [(4, 0x4)], [⟨31, 16, .rw, 0x0⟩, ⟨15, 0, .rw, 0x0⟩]⟩,
  ⟨0x703020, [(16, 0x4)], [⟨31, 31, .w1c, 0x0⟩, ⟨15, 0, .ro, 0x0⟩]⟩]

/-- Registers of LNK block. -/
def lnkRows : List RegRow := lnkRows1 ++ lnkRows2

/-- Registers of SK block. -/
def skRows : List RegRow := [
  ⟨0x800000, [(4, 0x100)], [⟨7, 7, .ro, 0x0⟩, ⟨6, 6, .ro, 0x0⟩, ⟨5, 5, .ro, 0x0⟩, ⟨4, 4, .ro, 0x0⟩, ⟨3, 3, .ro, 0x0⟩]⟩,
  ⟨0x800004, [(4, 0x100)], [⟨3, 3, .wo, 0x0⟩, ⟨2, 2, .wo, 0x0⟩, ⟨1, 1, .wo, 0x0⟩, ⟨0, 0, .wo, 0x0⟩]⟩,
  ⟨0x800008, [(4, 0x100)], [⟨31, 16, .ro, 0x0⟩, ⟨6, 0, .ro, 0x0⟩]⟩,
  ⟨0x80000C, [(4, 0x100)], [⟨15, 0, .rw, 0x0⟩]⟩,
  ⟨0x800010, [(4, 0x100)], [⟨15, 0, .rw, 0x64⟩]⟩,
  ⟨0x800014, [(4, 0x100)], [⟨31, 31, .w1c, 0x0⟩, ⟨30, 30, .w1c, 0x0⟩, ⟨29, 29, .w1c, 0x0⟩, ⟨15, 0, .ro, 0x0⟩]⟩,
  ⟨0x800018, [(4, 0x100), (2, 0x4)], [⟨31, 16, .ro, 0x0⟩, ⟨15, 8, .ro, 0x0⟩, ⟨4, 2, .ro, 0x0⟩, ⟨1, 0, .ro, 0x0⟩]⟩,
  ⟨0x800020, [(4, 0x100), (8, 0x4)], [⟨31, 0, .ro, 0x0⟩]⟩,
  ⟨0x801000, [(48, 0x40), (14, 0x4)], [⟨31, 16, .ro, 0x0⟩, ⟨15, 8, .ro, 0x0⟩, ⟨4, 2, .ro, 0x0⟩, ⟨1, 0, .ro, 0x0⟩]⟩]

/-- Registers of PWR and THM block. -/
def pwrRows1 : List RegRow := [
  ⟨0x300000, [], [⟨7, 7, .ro, 0x0⟩, ⟨6, 6, .ro, 0x0⟩, ⟨5, 4, .ro, 0x3⟩, ⟨3, 2, .ro, 0x0⟩, ⟨1, 0, .ro, 0x0⟩]⟩,
  ⟨0x300004, [], [⟨31, 16, .ro, 0x0⟩, ⟨15, 0, .ro, 0x0⟩]⟩,
  ⟨0x300008, [], [⟨31, 16, .ro, 0x0⟩, ⟨15, 0, .ro, 0x0⟩]⟩,
  ⟨0x30000C, [], [⟨31, 16, .ro, 0x0⟩, ⟨15, 0, .ro, 0x0⟩]⟩,
  ⟨0x300010, [], [⟨31, 31, .ro, 0x0⟩, ⟨6, 0, .ro, 0x78⟩]⟩,
  ⟨0x300014, [], [⟨8, 8, .w1c, 0x0⟩, ⟨7, 7, .w1c, 0x0⟩, ⟨6, 6, .w1c, 0x0⟩, ⟨5, 5, .w1c, 0x0⟩, ⟨4, 4, .w1c, 0x0⟩, ⟨3, 3, .w1c, 0x0⟩, ⟨2, 2, .w1c, 0x0⟩, ⟨1, 1, .w1c, 0x0⟩, ⟨0, 0, .w1c, 0x0⟩]⟩,
  ⟨0x300020, [(9, 0x4)], [⟨15, 0, .ro, 0x0⟩]⟩,
  ⟨0x301000, [(48, 0x40)], [⟨1, 1, .wo, 0x0⟩, ⟨0, 0, .wo, 0x0⟩]⟩,
  ⟨0x301004, [(48, 0x40)], [⟨19, 16, .ro, 0x0⟩, ⟨11, 8, .ro, 0x0⟩, ⟨2, 0, .ro, 0x0⟩]⟩,
  ⟨0x301008, [(48, 0x40)], [⟨11, 0, .rw, 0x37B⟩]⟩,
  ⟨0x30100C, [(48, 0x40)], [⟨4, 0, .rw, 0x0⟩]⟩,
  ⟨0x301010, [(48, 0x40)], [⟨31, 20, .ro, 0x0⟩, ⟨19, 8, .ro, 0x0⟩, ⟨2, 0, .ro, 0x0⟩]⟩,
  ⟨0x301014, [(48, 0x40)], [⟨31, 16, .ro, 0x0⟩, ⟨15, 0, .ro, 0x0⟩]⟩,
  ⟨0x301018, [(48, 0x40)], [⟨29, 25, .ro, 0x0⟩, ⟨4, 0, .ro, 0x0⟩, ⟨9, 5, .ro, 0x0⟩, ⟨14, 10, .ro, 0x0⟩, ⟨19, 15, .ro, 0x0⟩, ⟨24, 20, .ro, 0x0⟩]⟩,
  ⟨0x30101C, [(48, 0x40)], [⟨21, 12, .ro, 0x3AC⟩, ⟨4, 0, .ro, 0x0⟩]⟩,
  ⟨0x301020, [(48, 0x40)], [⟨31, 31, .ro, 0x0⟩, ⟨30, 30, .w1c, 0x0⟩, ⟨23, 12, .rw, 0x384⟩, ⟨11, 8, .ro, 0x0⟩, ⟨7, 0, .ro, 0x0⟩]⟩,
  ⟨0x380000, [], [⟨31, 16, .ro, 0x0⟩, ⟨15, 0, .ro, 0x0⟩]⟩,
  ⟨0x380004, [], [⟨15, 0, .ro, 0x0⟩]⟩,
  ⟨0x380008, [], [⟨31, 31, .wo, 0x0⟩, ⟨15, 0, .rw, 0x64⟩]⟩,
  ⟨0x38000C, [], [⟨31, 16, .ro, 0x0⟩, ⟨15, 0, .ro, 0x0⟩]⟩]

/-- Registers of PWR and THM block. -/
def pwrRows2 : List RegRow := [
  ⟨0x380010, [], [⟨5, 5, .ro, 0x0⟩, ⟨4, 4, .ro, 0x0⟩, ⟨3, 3, .w1c, 0x0⟩, ⟨2, 2, .ro, 0x0⟩, ⟨1, 1, .ro, 0x0⟩, ⟨0, 0, .ro, 0x0⟩]⟩,
  ⟨0x381000, [(48, 0x40)], [⟨31, 24, .ro, 0x0⟩, ⟨23, 16, .ro, 0x0⟩, ⟨15, 8, .ro, 0x0⟩, ⟨3, 0, .ro, 0x0⟩]⟩,
  ⟨0x381004, [(48, 0x40)], [⟨31, 31, .w1c, 0x0⟩, ⟨30, 30, .w1c, 0x0⟩, ⟨29, 29, .ro, 0x0⟩, ⟨10, 8, .ro, 0x0⟩, ⟨7, 0, .ro, 0x0⟩]⟩,
  ⟨0x381010, [(48, 0x40), (4, 0x4)], [⟨31, 0, .ro, 0x0⟩]⟩]

/-- Registers of PWR and THM block. -/
def pwrRows : List RegRow := pwrRows1 ++ pwrRows2

/-- Registers of PNL block. -/
def pnlRows : List RegRow := [
  ⟨0x1000, [], [⟨31, 16, .ro, 0x0⟩, ⟨15, 10, .ro, 0x0⟩, ⟨8, 8, .ro, 0x0⟩, ⟨3, 0, .ro, 0x0⟩]⟩,
  ⟨0x1004, [], [⟨31, 31, .w1c, 0x0⟩, ⟨30, 30, .ro, 0x0⟩, ⟨29, 29, .ro, 0x0⟩, ⟨15, 8, .ro, 0x0⟩, ⟨7, 0, .ro, 0x0⟩]⟩,
  ⟨0x1008, [], [⟨31, 31, .wo, 0x0⟩, ⟨19, 16, .rw, 0x0⟩, ⟨13, 8, .rw, 0x0⟩, ⟨2, 0, .rw, 0x0⟩]⟩,
  ⟨0x100C, [], [⟨31, 31, .ro, 0x0⟩, ⟨30, 28, .ro, 0x0⟩, ⟨11, 8, .ro, 0x0⟩, ⟨7, 0, .ro, 0x0⟩]⟩,
  ⟨0x1010, [], [⟨31, 31, .ro, 0x0⟩, ⟨18, 0, .ro, 0x0⟩]⟩,
  ⟨0x1100, [(48, 0x4)], [⟨31, 16, .ro, 0x0⟩, ⟨15, 12, .ro, 0x0⟩, ⟨10, 8, .ro, 0x0⟩, ⟨7, 4, .ro, 0x0⟩, ⟨3, 0, .ro, 0x0⟩]⟩,
  ⟨0x1200, [], [⟨31, 31, .ro, 0x0⟩, ⟨30, 29, .ro, 0x0⟩, ⟨15, 8, .ro, 0x0⟩, ⟨7, 0, .ro, 0x0⟩]⟩]

/-- Registers of EZ block. -/
def ezRows : List RegRow := [
  ⟨0x104000, [], [⟨7, 0, .wo, 0x0⟩]⟩,
  ⟨0x104004, [], [⟨31, 0, .rw, 0x0⟩]⟩,
  ⟨0x104008, [], [⟨15, 0, .rw, 0x0⟩]⟩,
  ⟨0x10400C, [], [⟨31, 31, .ro, 0x0⟩, ⟨23, 16, .ro, 0x0⟩, ⟨15, 8, .ro, 0x0⟩]⟩,
  ⟨0x100000, [], [⟨31, 16, .ro, 0x0⟩, ⟨9, 8, .ro, 0x0⟩, ⟨2, 2, .ro, 0x0⟩, ⟨0, 0, .ro, 0x0⟩]⟩,
  ⟨0x100004, [], [⟨31, 24, .ro, 0x0⟩, ⟨23, 16, .ro, 0x0⟩, ⟨3, 0, .ro, 0x0⟩]⟩,
  ⟨0x100008, [], [⟨31, 0, .ro, 0x0⟩]⟩,
  ⟨0x10000C, [], [⟨31, 0, .ro, 0x0⟩]⟩,
  ⟨0x101000, [(2, 0x100)], [⟨31, 31, .wo, 0x0⟩, ⟨16, 16, .rw, 0x0⟩, ⟨10, 0, .rw, 0x0⟩]⟩,
  ⟨0x101004, [(2, 0x100)], [⟨31, 31, .ro, 0x0⟩, ⟨30, 30, .w1c, 0x0⟩, ⟨29, 29, .w1c, 0x0⟩, ⟨23, 16, .ro, 0x0⟩, ⟨15, 0, .ro, 0x0⟩]⟩]

/-- Registers of FLT block. -/
def fltRows : List RegRow := [
  ⟨0x200000, [(128, 0x4)], [⟨31, 16, .ro, 0x0⟩, ⟨8, 8, .rw, 0x1⟩, ⟨2, 0, .rw, 0x0⟩]⟩,
  ⟨0x200200, [(49, 0x4)], [⟨12, 0, .w1c, 0x0⟩]⟩,
  ⟨0x200300, [], [⟨31, 31, .ro, 0x0⟩, ⟨30, 30, .ro, 0x0⟩, ⟨8, 8, .rw, 0x0⟩, ⟨2, 0, .rw, 0x2⟩]⟩,
  ⟨0x200310, [(2, 0x4)], [⟨31, 31, .rw, 0x0⟩, ⟨18, 16, .rw, 0x2⟩, ⟨10, 0, .rw, 0x0⟩]⟩,
  ⟨0x200320, [], [⟨31, 16, .ro, 0x0⟩, ⟨15, 0, .ro, 0x0⟩]⟩,
  ⟨0x200324, [], [⟨8, 0, .rw, 0x0⟩]⟩,
  ⟨0x200328, [(4, 0x4)], [⟨31, 0, .ro, 0x0⟩]⟩,
  ⟨0x200340, [], [⟨31, 31, .wo, 0x0⟩, ⟨23, 16, .wo, 0x0⟩, ⟨7, 0, .wo, 0x0⟩]⟩]

/-- Registers of SEC and LOG block. -/
def secRows : List RegRow := [
  ⟨0x900000, [], [⟨31, 31, .ro, 0x1⟩, ⟨16, 16, .ro, 0x0⟩, ⟨2, 2, .ro, 0x0⟩, ⟨1, 1, .ro, 0x0⟩, ⟨0, 0, .ro, 0x0⟩]⟩,
  ⟨0x900008, [(2, 0x4)], [⟨31, 0, .ro, 0x0⟩]⟩,
  ⟨0x900010, [], [⟨31, 0, .ro, 0x0⟩]⟩,
  ⟨0x900014, [], [⟨7, 0, .ro, 0x0⟩]⟩,
  ⟨0x900018, [], [⟨4, 4, .ro, 0x0⟩, ⟨3, 1, .ro, 0x0⟩]⟩,
  ⟨0x980000, [], [⟨31, 16, .ro, 0x0⟩, ⟨12, 0, .ro, 0x0⟩]⟩,
  ⟨0x980008, [(2, 0x4)], [⟨31, 0, .ro, 0x0⟩]⟩,
  ⟨0x980010, [(2, 0x4)], [⟨31, 0, .rw, 0x0⟩]⟩,
  ⟨0x980018, [(2, 0x4)], [⟨31, 0, .ro, 0x0⟩]⟩]

/-- Registers of the doorbell pages. -/
def doorRows : List RegRow := [
  ⟨0x10000000, [(2, 0x100000), (64, 0x1000)], [⟨15, 0, .rw, 0x0⟩]⟩,
  ⟨0x10000004, [(2, 0x100000), (64, 0x1000)], [⟨15, 0, .rw, 0x0⟩]⟩]

/-- Whether an offset is that of some index of the given dimensions. -/
def dimsHit : List (Nat × Nat) → Nat → Bool
  | [], r => r == 0
  | (n, st) :: t, r => r / st < n && dimsHit t (r % st)

/-- The row of an offset within a block. -/
def findRow (o : Nat) : List RegRow → Option RegRow
  | [] => none
  | r :: t =>
    if r.base ≤ o && dimsHit r.dims (o - r.base) then some r else findRow o t

/-- The block of an address and the offset its rows count from (R10, R11). -/
def blockRows (a : Nat) : List RegRow × Nat :=
  if 0x10000000 ≤ a then (doorRows, a)
  else if 0x0D000000 ≤ a then ([], 0)
  else if 0x01000000 ≤ a then
    let o := (a - 0x01000000) % 0x400000
    if o < 0x40000 then (hubRows, o)
    else if o < 0x80000 then (mcRows, o)
    else if o < 0xC0000 then (ptRows, o)
    else if o < 0x100000 then (vsRows, o)
    else if o < 0x380000 then (dieRows, (o - 0x100000) % 0x80000)
    else ([], 0)
  else match a / 0x100000 with
    | 0 => (pnlRows, a) | 1 => (ezRows, a) | 2 => (fltRows, a) | 3 => (pwrRows, a) | 4 => (cadRows, a)
    | 5 => (hpRows, a) | 6 => (fqRows, a) | 7 => (lnkRows, a) | 8 => (skRows, a) | 9 => (secRows, a)
    | _ => ([], 0)

/-- The fields of the register at an address; none at a reserved offset (R12). -/
def regFields (a : Nat) : List RField :=
  let (rows, o) := blockRows a
  match findRow o rows with
  | some r => r.fields
  | none => []

/-- Whether a register stands at an address. -/
def regExists (a : Nat) : Bool :=
  let (rows, o) := blockRows a
  (findRow o rows).isSome

/-- A value with fields placed at their reset values. -/
def resetOf : List RField → Nat
  | [] => 0
  | f :: t => (f.rst <<< f.lo) + resetOf t

/-- The reset value of the register at an address (R6); 0 at a reserved offset. -/
def regReset (a : Nat) : Word := BitVec.ofNat 32 (resetOf (regFields a))

/-- What a control-space write leaves in a register: RW fields take the value, RW1C bits are cleared by a 1, and RO, WO
and reserved bits stay (R5, R7). -/
def writeFields : List RField → Nat → Nat → Nat
  | [], old, _ => old
  | f :: t, old, v =>
    let old' := match f.acc with
      | .rw => putBits old f.hi f.lo (bits v f.hi f.lo)
      | .w1c => putBits old f.hi f.lo (Nat.xor (bits old f.hi f.lo) (Nat.land (bits old f.hi f.lo) (bits v f.hi f.lo)))
      | .ro | .wo => old
    writeFields t old' v

/-- The bits of a register that a write can set. -/
def rwMask : List RField → Nat
  | [] => 0
  | f :: t => (if f.acc = .rw then (2 ^ (f.hi + 1 - f.lo) - 1) <<< f.lo else 0) + rwMask t

end Sys2Proof.Machine
end

