-- ==== Sys2Proof/Machine/State.lean ====
section
/-! DEFINITION. The state of the panel: everything the spec gives it, as plain data, and the machine right after
reset. The registers of the control space stand in one register file keyed by their offset from BAR0 (00_scope R10,
R11); sparse stores list only what differs from their defaults. -/
namespace Sys2Proof.Machine

/-- Why the machine stops. No command of this block stops it: every command has an effect or finds its condition not
met and leaves the state. The one constructor is never raised (safe). -/
inductive Fault where
  | unreachable
  deriving DecidableEq, Repr

/-- Why a command has no meaning. Only a dispatch arm of a command not yet modelled raises it (safe). -/
inductive Refusal where
  | notModelled (mnemonic : String)
  deriving DecidableEq, Repr

/-! ### Cells (04_cell R78) -/

/-- One entry of a fabric network: 512 bits, 32 bits or a token (05 R109), with whether its parity is bad. -/
structure FEntry where
  data : Nat
  parBad : Bool := false
  deriving DecidableEq, Repr

/-- The check state of a 64-bit scratchpad word (07 R174, R185). -/
inductive WordSt where
  | good | ce | ue | undef
  deriving DecidableEq, Repr

/-- A scratchpad: its bytes, the check state of each word, and the banks whose unlisted words are zero-filled and good;
an unlisted word of any other bank is undefined (07 R185, R186). `wb` holds corrected words that wait to be written
back, `wroteBack` the last 4 written back of each bank (07 R189). -/
structure Scratch where
  bytes : Memory := []
  st : SMap WordSt := []
  zeroed : SMap Bool := []
  wb : List Nat := []
  wroteBack : SMap (List Nat) := []
  deriving DecidableEq, Repr

/-- What a matrix-unit operation that adds does (04 R95). -/
inductive MKind where
  | mma | merge | clr
  deriving DecidableEq, Repr

/-- A matrix operation issued and not yet complete: its operands as read at issue, how far it has come, and
the operand bytes taken from queues for its next group (R92, R96). -/
structure MOp where
  kind : MKind
  desc : Nat
  k : Nat
  aOff : Nat
  bOff : Nat
  clr : Bool
  started : Bool := false
  next : Nat := 0
  aBuf : List Byte := []
  bBuf : List Byte := []
  slot : Nat := 0
  deriving DecidableEq, Repr

/-- An M.EMIT in progress: rows read so far and the bytes of a not yet full vector entry (R97). -/
structure EmitOp where
  desc : Nat
  oOff : Nat
  sOff : Nat
  row : Nat := 0
  part : List Byte := []
  slot : Nat := 0
  deriving DecidableEq, Repr

/-- A V.RECV that has issued and waits for the rest of its four entries (R100). -/
structure VRecv where
  vd : Nat
  q : Nat
  part : List Word := []
  slot : Nat := 0
  deriving DecidableEq, Repr

/-- What the fields of one slot read: the registers, predicates, flags and scratchpad as they stood at issue (R87). -/
structure Snap where
  sregs : SMap Word
  preds : Nat
  vregs : SMap Word
  flags : Flags
  sp : Scratch
  deriving DecidableEq, Repr

/-- The slot that has issued: its snapshot and the fields still to be performed. -/
structure Issue where
  snap : Snap
  todoM : Bool
  todoV : Bool
  todoS : Bool
  target : Option Nat := none
  gend : Bool := false
  deriving DecidableEq, Repr

/-- A remote write that waits at the die of a cell held in reset (17 R459). -/
structure WaitWrite where
  addr : Nat
  data : List Byte
  counter : Option Nat
  deriving DecidableEq, Repr

/-- A logical cell (04 R78, R90). Registers unlisted are 0, accumulators unlisted are empty, generators unlisted stand
at their seed. Bank states: 0 ON, 1 RETAIN, 2 OFF (07 R180); an unlisted bank is ON. -/
structure Cell where
  slot : Nat := 0
  iter : Nat := 0
  ended : Bool := false
  faulted : Bool := false
  held : Bool := false
  issue : Option Issue := none
  sregs : SMap Word := []
  preds : Nat := 1
  vregs : SMap Word := []
  accs : SMap Acc := []
  accClass : Option SumClass := none
  acnt : SMap Word := []
  flags : Flags := Flags.none
  seed : Word64 := 0#64
  gens : SMap Word64 := []
  mops : List MOp := []
  emits : List EmitOp := []
  vrecv : Option VRecv := none
  sp : Scratch := { }
  banks : SMap Nat := []
  slotBad : List Nat := []
  descBad : List Nat := []
  waits : List WaitWrite := []
  deriving DecidableEq, Repr

/-! ### The fabric of a die (05) -/

/-- An input queue: entries of its base part, and how many stand in its scratchpad extension and from where (R118). -/
structure Queue where
  base : List FEntry := []
  extN : Nat := 0
  extHd : Nat := 0
  deriving DecidableEq, Repr

/-- The fabric of a logical die: the buffers of every source, the queues, and the firings a partly used token still
governs (05 R115, R118, R131). Keys: buffers (cell*3 + net)*16 + point; queues cell*24 + queue in the order of R119;
tokens cell*4 + steering unit. `bitQuiet` and `bitAge` hold a check that has bitten (R135). -/
structure Fab where
  bufs : SMap (List FEntry) := []
  queues : SMap Queue := []
  toks : SMap Nat := []
  bitQuiet : Bool := false
  bitAge : Bool := false
  held : Bool := false
  deriving DecidableEq, Repr

/-! ### Canvases (06) -/

/-- An applied canvas section (06 R142). -/
structure Section where
  ty : Nat
  glaze : Nat
  die : Nat
  body : List Byte
  deriving DecidableEq, Repr

/-- The canvas an engine holds, and its place in the glaze sequence (06 R156 to R165). -/
structure Canvas where
  secs : List Section := []
  digest : List Byte := []
  standby : Bool := false
  image : Nat := 0
  loadAddr : Nat := 0
  loadStart : Nat := 0
  headerOk : Bool := false
  applied : Nat := 0
  zeroWait : List Nat := []
  dataWait : List Nat := []
  running : Bool := false
  waitPeriod : Bool := false
  switchStuck : Bool := false
  deriving DecidableEq, Repr

/-! ### Engines -/

/-- A bank transition: the state being reached, and the request held behind it (07 R181). -/
structure BankMove where
  target : Nat
  held : Option Nat := none
  deriving DecidableEq, Repr

/-- Value studies of an engine: live and frozen counts (key stream*128 + count index), snapshot number and times, and
the streams' labels as frozen (10 R259 to R265). -/
structure Study where
  live : SMap Nat := []
  frozen : SMap Nat := []
  seq : Nat := 0
  tSnap : Nat := 0
  tPrev : Nat := 0
  liveLoad : Bool := false
  frozenLoad : Bool := false
  streams : SMap Nat := []
  frozenStreams : SMap Nat := []
  deriving DecidableEq, Repr

/-- A defect-list entry (17_bringup R450): engine, unit, kind, location, and the source of the finding. -/
structure Defect where
  kind : Nat
  engine : Nat
  unit : Nat
  location : Nat
  source : Nat
  deriving DecidableEq, Repr

/-! ### The ground image in force (06 R146 to R148) -/

/-- One record of PARTITIONS: partition, host port, function and engine mask. -/
structure PartRec where
  id : Nat
  port : Nat
  fn : Nat
  engines : Nat
  deriving DecidableEq, Repr

/-- One record of CANVAS_KEYS. -/
structure CanvasKey where
  slot : Nat
  parts : Nat
  key : List Byte
  deriving DecidableEq, Repr

/-- The ground image in force: its records, and the bodies of the sections other chapters lay out. -/
structure Ground where
  valid : Bool := false
  imageId : Nat := 0
  digest : List Byte := []
  parts : List PartRec := []
  policy : Nat := 0
  keys : List CanvasKey := []
  routes : List Byte := []
  near : List Byte := []
  power : List Byte := []
  bankOff : List Byte := []
  deriving DecidableEq, Repr

/-! ### What leaves the panel -/

/-- Kinds of link packet that the panel itself originates or forwards (14_links R366). -/
inductive LinkKind where
  | request | reply | flowAck | nak | mgmt | beat | collData | collResult | collAbort | resetNotice | verdict | adopt
  | mirror | pairCommit | pairBeat | caps
  deriving DecidableEq, Repr

/-- Pins and lines that the panel drives towards the outside. -/
inductive Pin where
  | faultN | guestReset (g : Nat) | guestAbort (g : Nat) | guestPower (g : Nat) | cagePower (p : Nat)
  deriving DecidableEq, Repr

/-- One thing sent out of the panel. -/
inductive Out where
  | hubDone (engine status : Nat) (data : List Byte)
  | msix (port fn vector : Nat)
  | hostWrite (port fn addr : Nat) (data : List Byte)
  | hostRead (port fn addr len : Nat)
  | complete (port : Nat) (status : Nat) (data : List Byte)
  | link (port : Nat) (kind : LinkKind) (words : List Nat) (data : List Byte)
  | guest (site : Nat) (words : List Nat) (data : List Byte)
  | mgmt (data : List Byte)
  | i3c (data : List Byte)
  | pin (p : Pin) (level : Bool)
  deriving DecidableEq, Repr

/-- A record of the fault log (18 R468). -/
structure FaultRec where
  time : Nat
  source : Nat
  engine : Nat
  severity : Nat
  cls : Nat
  detail : Nat
  deriving DecidableEq, Repr

/-! ### The change record and events -/

/-- An entry of the capture FIFO, before it has its number and link (20 R527, R528). -/
structure CapEntry where
  time : Nat
  kind : Nat
  origin : Nat
  originId : Nat
  result : Nat
  subject : Nat
  value : Nat
  digest : List Byte
  deriving DecidableEq, Repr

/-- An engine event that waits to be recorded (13 R340, R341). -/
structure Event where
  kind : Nat
  engine : Nat
  aux : Nat
  info : Nat
  time : Nat
  deriving DecidableEq, Repr

/-! ### The hub's memory (08) -/

/-- An assembly buffer: a block of stack `stack` partly written, the bytes held, and since when (R216). -/
structure AsmBuf where
  stack : Nat
  block : Nat
  bytes : SMap Byte
  since : Nat
  deriving DecidableEq, Repr

/-! ### Streams, transfers and paged tensors (08 R220 to R230; 09) -/

/-- A channel stream in its place in MEM_LAYOUT: the runs of its glazes since the load or the last start, the entries
moved in this run, the entry that a feed-port read has delivered and it still has to send, and whether it stopped (R227, R228;
13 R353). -/
structure StreamSt where
  runs : Nat := 0
  moved : Nat := 0
  held : Option (List Byte) := none
  stopped : Bool := false
  deriving DecidableEq, Repr

/-- A descriptor in flight: its queue, index and bytes; the row and byte of the next piece; the pieces not yet
acknowledged, each with the words its counter is owed and the context ID and page it went through; how it ended so far (R219,
R224). `pst` and `dcode`: paged status and DATA_CODE (R249); `opDone`: its context operation or NOP has ended; `xlat`: the panel
address and page index of the next piece, translated; `waiting`: that piece waits on a list line (R247);
`since`: when the descriptor started or moved its last piece, `asked`: when the pieces not yet acknowledged were sent (14 R379). -/
structure Flight where
  q : Nat
  ix : Nat
  raw : List Byte
  row : Nat := 0
  off : Nat := 0
  unacked : List (Nat × Option (Nat × Nat)) := []
  code : Nat := 0
  pst : Nat := 0
  dcode : Nat := 0
  opDone : Bool := false
  xlat : Option (Nat × Nat) := none
  waiting : Bool := false
  since : Nat := 0
  asked : List Nat := []
  deriving DecidableEq, Repr

/-- A DMA queue beside its registers: the ring base taken up at ENABLE (R231), the index at which an overrun TAIL halts it (R220), the
indices completed out of order, and a RESUME (1) or SKIP (2) that waits for the descriptors in flight (R225). -/
structure DmaQ where
  base : Nat := 0
  bad : Option Nat := none
  fin : List Nat := []
  restart : Nat := 0
  deriving DecidableEq, Repr

/-- A context record (R236): its GEN outlives a binding. -/
structure Ctx where
  bound : Bool := false
  gen : Nat := 0
  list : Nat := 0
  length : Nat := 0
  cap : Nat := 0
  tag : Nat := 0
  deriving DecidableEq, Repr

/-- A cached line of a page list: its context, line number and bytes; the store is in order of use, oldest first (R247). -/
structure ListLine where
  ctx : Nat
  line : Nat
  bytes : List Byte
  deriving DecidableEq, Repr

/-- A SHRINK or UNBIND that waits for its drain (R249): where it came from (a queue index, or none for PT_CMD), its
handle, the first page index removed, and the LENGTH left. -/
structure CtxDrain where
  flight : Option (Nat × Nat)
  handle : Nat
  fromPage : Nat
  length : Nat
  deriving DecidableEq, Repr

/-- A merge entry: a line of the engine scratchpad and the reads it has served (R230). -/
structure MergeEnt where
  line : Nat
  bytes : List Byte
  deriving DecidableEq, Repr

/-- The place of an engine in its period plan (12 R320 to R323): the nominal start it waits for, the nominal period number, the
phase, its start and target stamps, the budget left, whether its work is done, and requests that wait for its end. -/
structure Sched where
  startAt : Nat := 0
  n : Nat := 0
  phase : Nat := 0
  start : Nat := 0
  target : Nat := 0
  budget : Nat := 0
  workDone : Bool := false
  realign : Bool := false
  lost : Bool := false
  deriving DecidableEq, Repr

/-- What a standby knows of one covered engine: the buffer of its slot that is current, with the cadence count of its
period (06 R170). -/
structure CovSlot where
  buffer : Nat
  count : Nat
  deriving DecidableEq, Repr


/-- The master's work on beats (12 R310 to R314): its state as ACQUIRE 1, LOCKED 2, HOLDOVER 3, LOST 4 (0 free-run), the number of the
next expected beat, the beat periods since the last accepted one, whether BEAT_IN is stuck; and the correction in progress in
2^-24 ticks: what is still to be slewed with its greatest rate per tick, the ticks for which the count holds, and the
frequency trim per tick. -/
structure Beat where
  mode : Nat := 0
  next : Nat := 0
  m : Nat := 1
  stuck : Bool := false
  slew : Int := 0
  rate : Nat := 0
  hold : Nat := 0
  trim : Int := 0
  deriving DecidableEq, Repr

/-- The clock of an engine (12 R301 to R306): whether it is locked, how far droop lets it run in MHz, the correction of its count still
to be slewed in 2^-24 ticks, whether the count holds, when it last saw a sync edge, the misses in a row since, and the
replica warnings of the last 1 ms with their times. -/
structure Clock where
  locked : Bool := false
  droop : Nat := 940
  slew : Int := 0
  hold : Bool := false
  edgeAt : Nat := 0
  misses : Nat := 0
  warns : List (Nat × Nat) := []
  deriving DecidableEq, Repr

/-- A packet under way in the panel networks (11 R275 to R283): network 0 request, 1 reply, 2 control mesh; source and destination
positions; payload bytes; a spread request names its stack; `status` is the completion a reply carries. It stands at the
router of engine `at'`, or on the ring at stop `ring` with its direction. `vc1`, `rows` and `alt`: its virtual channel, whether it has turned
to row moves, and whether it has taken an alternate output. -/
structure Packet where
  net : Nat
  src : Nat
  dst : Nat
  bytes : Nat
  spread : Option Nat := none
  status : Nat := 0
  at' : Nat
  ring : Option (Nat × Bool) := none
  vc1 : Bool := false
  rows : Bool := false
  alt : Bool := false
  deriving DecidableEq, Repr

/-! ### Host ports (13) -/

/-- A host port beside its registers: PERST# as driven and since when, and when a port reset began (R358, R359). -/
structure HostPort where
  perst : Bool := false
  perstAt : Nat := 0
  resetAt : Nat := 0
  deriving DecidableEq, Repr

/-- A command context (R343 to R348): its rings and vector, the completion records written, the commands
fetched ahead (none: a fetch that failed), and when its SUBMIT began to wait. -/
structure QCtx where
  cmdBase : Nat := 0
  cplBase : Nat := 0
  vector : Nat := 0
  irq : Bool := false
  cmdSize : Nat := 0
  cplSize : Nat := 0
  count : Nat := 0
  fetched : List (Option (List Byte)) := []
  waitAt : Nat := 0
  deriving DecidableEq, Repr

/-- A packet of a feed queue (R351 to R355): its number, PRIO, whether it is damaged and closed, the data bytes stored, the words not
yet delivered, VALID of its last word, and whether its header has been delivered. -/
structure FeedPkt where
  seq : Nat
  prio : Nat := 0
  damaged : Bool := false
  closed : Bool := false
  bytes : Nat := 0
  words : List (List Byte) := []
  lastValid : Nat := 0
  headed : Bool := false
  deriving DecidableEq, Repr

/-- A read that waits at a feed port: the engine, its stream or its descriptor, the entries it needs and the bytes it holds (R353). -/
structure FeedWait where
  engine : Nat
  stream : Option Nat
  q : Nat
  ix : Nat
  need : Nat
  got : List Byte := []
  deriving DecidableEq, Repr

/-- A feed queue beside its registers: its packets (an open one is last), the open word, the next packet number, the packet whose
delivery has begun, and the reads that wait (R349 to R355). -/
structure FeedQ where
  pkts : List FeedPkt := []
  part : List Byte := []
  seq : Nat := 0
  cur : Option Nat := none
  waits : List FeedWait := []
  deriving DecidableEq, Repr

/-! ### Panel links (14) -/

/-- A link packet (14 R367): KIND, FLAGS, PSEQ, HOPS, endpoints, STATUS, ADDR, TAG, AUX and payload. -/
structure LinkPkt where
  kind : Nat
  vc : Nat := 0
  rerouted : Bool := false
  pseq : Nat := 0
  hops : Nat := 0
  dst : Nat := 0
  status : Nat := 0
  src : Nat := 0
  addr : Nat := 0
  tag : Nat := 0
  aux : Nat := 0
  data : List Byte := []
  deriving DecidableEq, Repr

/-- A link port beside its registers: module presence, when it began to be held and whether by a RESET_NOTICE, its failed lanes, the sequence numbers it
sends and expects next, its retry buffer, the packets that wait, and the last multiple of the beat period sent
(R366, R370, R371, R384). -/
structure LinkPort where
  present : Bool := false
  heldAt : Nat := 0
  failed : Nat := 0
  noticed : Bool := false
  overpower : Bool := false
  txSeq : Nat := 0
  rxSeq : Nat := 0
  sent : List LinkPkt := []
  wait : List (LinkPkt × Nat) := []
  beatMark : Nat := 0
  deriving DecidableEq, Repr

/-- A contribution that has reached a combining link die: the die, the engine it comes from (none: a child's), the address of
R385, and the words. -/
structure CollIn where
  die : Nat
  engine : Option Nat
  addr : Nat
  data : List Byte
  deriving DecidableEq, Repr

/-- A step that a link die holds: when its last contribution arrived, the contributions of each word by byte offset, and the words
complete (R386, R387). -/
structure CollStep where
  step : Nat
  lastAt : Nat
  words : SMap (List Word64) := []
  done : Nat := 0
  deriving DecidableEq, Repr

/-- A collective beside its registers: the steps held, the local members seen, and a cause that waits to
abort it (R386, R387). -/
structure Coll where
  steps : List CollStep := []
  locals : List Nat := []
  due : Nat := 0
  deriving DecidableEq, Repr

/-- The pair (14 R392 to R397): what the exchange told of the partner, the marked blocks of this panel's regions and the ranges still to
be copied whole, the engines whose pass of the period is sent, when a PAIR_BEAT was last sent and heard; and as receiver:
the stand-in passes and the stage entries of the period, whether a commit's apply is under way, the blocks that stand-ins have
written since the takeover, and the partner FEIDs taken over with their positions. -/
structure Pair where
  partner : Partner := ⟨0, [], [], []⟩
  marks : List Nat := []
  seed : List (Nat × Nat) := []
  sent : List Nat := []
  beatAt : Nat := 0
  heard : Nat := 0
  passes : List Nat := []
  stage : SMap Nat := []
  apply : SMap Nat := []
  written : List Nat := []
  feids : SMap Nat := []
  deriving DecidableEq, Repr

/-! ### Guests (15) -/

/-- Who waits for the answer of a guest: an engine, a host's read or posted write, or the guest itself with its TAG (15 R414). -/
inductive GuestAsker where
  | engine (e : Nat)
  | hostRead (p fn : Nat)
  | hostWrite (p fn addr : Nat)
  | guest (tag : Nat) (write : Bool)
  deriving DecidableEq, Repr

/-- A request delivered to a guest: its site, the TAG it carries, and since when. -/
structure GuestWait where
  site : Nat
  tag : Nat
  since : Nat
  who : GuestAsker
  deriving DecidableEq, Repr

/-! ### Supply, bring-up and temperatures of an engine (16, 17, 19) -/

/-- The supply and the bring-up of an engine. Ramp: when its present stretch or pause began, the ramping done and the pauses so far, when
the rails came up. `from'`: when the bring-up began; `stage`: the last step of it completed (1 power, 2 clock, 3 training,
4 test, 5 defects); what it found. `throttle`: the level of R430; `high`: readings in a row above target + 20 mV; `badPhases`: the phases switched out; `late`: dies that lost their seventh stage during the ramp; `hot`: an
ON waits for a reading below 85 °C; `hubOnly`: its matrix dies are held down (17 R448); `grown`: the defect list has gained an entry of it since its last bring-up; `resetAt` and
`mcDone`: an engine reset under way (17 R461). Times in ns. -/
structure Supply where
  since : Nat := 0
  ramped : Nat := 0
  paused : Nat := 0
  busOk : Option Nat := none
  railsAt : Nat := 0
  from' : Nat := 0
  stage : Nat := 0
  stks : Nat := 0
  links : Nat := 0
  findings : List Defect := []
  throttle : Nat := 0
  high : Nat := 0
  badPhases : Nat := 0
  late : List Nat := []
  hot : Bool := false
  hubOnly : Bool := false
  grown : Bool := false
  resetAt : Option Nat := none
  mcDone : Bool := false
  deriving DecidableEq, Repr

/-- The temperatures of an engine, in °C + 50: the last samples of its sensors (8 * die + i of position `die`, 5 the hub; 48 and 49 the stacks)
since it has had supply, the sensors that failed, J and the stacks as last read; whether TEMP_HIGH waits to re-arm; the thermal level and when it last
moved; when J was last sampled for cycles, its last extreme and direction, and the stack of reversals, the newest first (19 R490 to R498). -/
structure Therm where
  last : SMap Nat := []
  failed : SMap Bool := []
  j : Option Nat := none
  s0 : Option Nat := none
  s1 : Option Nat := none
  disarmed : Bool := false
  level : Nat := 0
  levelAt : Nat := 0
  cycleAt : Nat := 0
  extreme : Option Nat := none
  rising : Option Bool := none
  stack : List Nat := []
  deriving DecidableEq, Repr

/-! ### The input, the flow and the panel's bring-up (16, 17, 19) -/

/-- The module input (16 R428 to R431): the input voltages of the last 1 ms in 0.1 V, what the peak store holds in µJ, since when the input is below 40 V and since when it is
out of 40–58 V, whether PAIR_FAIL has been sent for it, the band it is in (1 low, 2 high), when the throttle last acted, and since when the draw has the margin
of R430. -/
structure Input where
  volts : List Nat := []
  peak : Nat := 120000000
  lowSince : Option Nat := none
  badSince : Option Nat := none
  failSent : Bool := false
  band : Nat := 0
  throttleAt : Nat := 0
  okSince : Option Nat := none
  deriving DecidableEq, Repr

/-- The coolant (19 R490 to R497): since when FLOW_TACH is watched, the pulses accepted in the last 1 s, the last of them, when the flow was last recomputed,
since when flow and inlet are as a restart needs them, when FLOW_CRIT was declared, and the last samples (0.1 °C, + 500) and failures of the four
thermistors: inlet, its spare, outlet, its spare. -/
structure Flow where
  since : Nat := 0
  pulses : List Nat := []
  last : Option Nat := none
  updAt : Nat := 0
  okSince : Option Nat := none
  critAt : Option Nat := none
  coolant : SMap Nat := []
  failed : SMap Bool := []
  deriving DecidableEq, Repr

/-- Bring-up and full reset of the panel (17): its t0; the step of R442 completed; whether the link domain is powered, and whether it waits
for PWRGD; when MRST_N began to be held; a full reset accepted and not yet applied, and whether it keeps the link domain; the engines still
to be taken up, those of the present wave, its number, and when its last ramp ended; the supervised command that runs. -/
structure Boot where
  t0 : Nat := 0
  step : Nat := 0
  link : Bool := false
  noPwr : Bool := true
  mrstAt : Option Nat := none
  fullAt : Option Nat := none
  keepLink : Bool := false
  todo : List Nat := []
  taken : List Nat := []
  wave : Nat := 0
  waveAt : Option Nat := none
  cmd : Nat := 0
  cmdEngs : List Nat := []
  deriving DecidableEq, Repr

/-! ### Easel (20) -/

/-- A firmware slot of the flash: VERSION, SVN, MIN_SVN and digest of an image that verified (20 R509, R512). -/
structure FwSlot where
  version : Nat
  svn : Nat
  minSvn : Nat
  digest : List Byte
  deriving DecidableEq, Repr

/-- A checkpoint signature (20 R530). -/
structure Checkpoint where
  seq : Nat
  link : List Byte
  sig : List Byte
  deriving DecidableEq, Repr

/-- An entry of the defect list with its TIME (17 R451). -/
structure DefectEnt where
  d : Defect
  time : Nat
  deriving DecidableEq, Repr

/-- The flash pair (20 R512, R523): firmware slots, the ground image in force and its replacement, the defect list and its signature, the qualification
records by site, the settings record, the next index of the signature journal and the index of the block in use, the change record by SEQ with its last LINK,
the checkpoints, the thermal-cycle counts and reversal stacks as kept, and the telemetry history. -/
structure Flash where
  slots : SMap FwSlot := []
  ground : Option Ground := none
  pendingGround : Option Ground := none
  defects : List DefectEnt := []
  defectSig : List Byte := []
  quals : SMap (List Byte) := []
  owner : Nat := 0
  token : Option (List Byte) := none
  ownerKeys : SMap (List Byte) := []
  chainKey : Option (List Byte) := none
  minSvn : Nat := 0
  supervise : Bool := false
  settingsSig : List Byte := []
  journal : Nat := 0
  seq : Nat := 0
  link : List Byte := []
  record : SMap (List Byte) := []
  checkpoints : List Checkpoint := []
  cycles : SMap Nat := []
  reversals : SMap (List Nat) := []
  history : List (List Byte) := []
  deriving DecidableEq, Repr

/-- An image delivery under way (20 R519): where it comes from, its kind and length, the pieces delivered, and when the last one came. -/
structure Delivery where
  src : Nat
  kind : Nat
  total : Nat
  chunks : List (Nat × List Byte) := []
  at' : Nat
  deriving DecidableEq, Repr

/-- The management session (20 R520): the nonce of the last OPEN, whether a session is open on it, the frame counters, when the last frame came, and until
when OPEN is blocked. -/
structure Session where
  nonce : Option (List Byte) := none
  isOpen : Bool := false
  rx : Nat := 0
  tx : Nat := 0
  at' : Nat := 0
  blocked : Nat := 0
  nonces : Nat := 0
  deriving DecidableEq, Repr

/-- The Easel dies (20 R502 to R507): whether the active firmware runs and from which slot, since when its load is below 70 %, a takeover not yet resumed,
a former active die held in reset, whether duties have stopped, the next device-key index of the block in use, the handover that awaits ACCEPT, the verdict epochs accepted and the verdicts
collected by target, and the telemetry as last taken. -/
structure Easel where
  running : Bool := false
  slot : Nat := 0
  coolSince : Option Nat := none
  takeoverAt : Option Nat := none
  former : Bool := false
  stopped : Bool := false
  sigNext : Nat := 0
  handover : Option (Nat × Nat) := none
  epochs : SMap Nat := []
  verdicts : List (Nat × Nat × Nat) := []
  telemetry : List Byte := []
  telemetryAt : Nat := 0
  deriving DecidableEq, Repr

/-- An engine: its hub, what it holds, and the events that wait for it. `up`: hub powered and out of reset (00 R13); `contained`, and
`containNext`: a containment that waits for the end of a reset (17 R464, 18 R476); `abortPart` and `abortPanel`: an abort line reached it and is not
yet acted on (18 R475); `notices`: containment notices of covered engines (06 R171); `count`: its cadence count in 2^-24 ticks (12 R305), with `clk` its
clock. Scratchpad: `spm`, bank states (unlisted ON), transitions, banks being filled and those that wait for a fill (07 R178 to R187, R198). `hubIn`: what stands in the
hub's buffers towards the dies; `asm`: assembly buffers (08 R216); `hbmUe`: blocks whose next access reports an uncorrectable error (08 R202). `adopted`: the engine
whose FEIDs it has adopted, with where that slot's record starts in its near part and the length of the static data (06 R167, R171). `cellOff`, `spmOff`: banks that
BANK_OFF holds off (06 R148, 07 R197). `streams`, `flights`, `dmaq`: channel streams, descriptors in flight, queues (08 R219 to R230). `ctxs`, `lines`, `misses`, `drain`,
`ptCmd`: context table, walker cache, the fetches under way, a SHRINK or UNBIND that drains, a command of PT_CMD (09). `merges`: the merge buffer (08 R230). `scrubAt`,
`scrubbed`: the scrub's place (08 R218). `sched`: its place in the period plan (12). `commits`, `armAsk`: the varnish of covered engines, an arm that waits (06 R169, R170).
`lost`: positions that its router cannot reach (11 R283). `bucket`: the injection bucket, level and time (11 R291). `bad`: bad cells by position (04 R81). `sup`, `therm`: supply
and temperatures. -/
structure Engine where
  up : Bool := false
  contained : Bool := false
  containNext : Bool := false
  abortPart : Bool := false
  abortPanel : Bool := false
  notices : List Nat := []
  count : Nat := 0
  clk : Clock := { }
  canvas : Canvas := { }
  spm : Scratch := { }
  spmBanks : SMap Nat := []
  spmMoves : SMap BankMove := []
  zeroing : List Nat := []
  zeroWait : List Nat := []
  study : Study := { }
  hubIn : SMap (List FEntry) := []
  asm : List AsmBuf := []
  hbmUe : List Nat := []
  adopted : Option Nat := none
  slotBase : Nat := 0
  staticLen : Nat := 0
  cellOff : Nat := 0
  spmOff : Nat := 0
  streams : SMap StreamSt := []
  flights : List Flight := []
  dmaq : SMap DmaQ := []
  ctxs : SMap Ctx := []
  lines : List ListLine := []
  misses : List (Nat × Nat) := []
  drain : Option CtxDrain := none
  ptCmd : Option (Nat × Nat) := none
  merges : List MergeEnt := []
  scrubAt : Nat := 0
  scrubbed : Nat := 0
  sched : Sched := { }
  commits : SMap CovSlot := []
  armAsk : Bool := false
  lost : List Nat := []
  bucket : Nat × Nat := (0, 0)
  bad : SMap (List (Nat × Nat)) := []
  sup : Supply := { }
  therm : Therm := { }
  deriving DecidableEq, Repr

/-! ### The panel -/

/-- The state of the panel and the queue of commands that wait. `now`: time since the always-on domain came up, in ticks of 1 ns; `master`: the master cadence
count in 2^-24 ticks (12 R304); `freeCtr`: the MODEL'S own field, the number of the next free value (log 1). `regs`: the register file of the control space.
`hbm`: the bytes of the stacks, stack t at t * 2^36; `limit`: the near-split LIMIT taken at bring-up (08 R208). `edgeDown`, `edgeFeid`: what the edge dies know of down
positions and FEIDs, `primary`: the index of each engine's PRIMARY FEID (11 R280). `engines`, `cells`, `fabs` by number. `ground`: the image in force. Faults (18):
`faultLog`, `cellParity` (parity faults per cell), `pulseStart`, `halted` (HALT_PANEL). `armCopies`: the collector's copies of the arms (06 R169). The change record (20):
`defectQ` (findings that wait to be appended), `capture`, `gapWrites`, `gapEvents`, `utc` (the committed UTC and its count), `latches` (the upper words that a read has latched). `events`: engine events
(13 R340). Networks (11): `annDown`, `annUp` (announcements under way), `adoptQ`, `members` (of barrier channels), `packets`. Links (14): `links`, `linkIn` (packets received, not
yet handled), `colls`, `collIn`, `verdictSeen`, `verdictIn`, `pair`, `adoptLost`. Hosts (13): `ports`, `qctx`, `feeds`, `cfgSpace`, `msix`, `msixPend`. Clock (12): `beat`, `setPend` (a
CAD_SET that waits), `edgeMark` (the last sync edge). `stages`: regulator stages lost (16 R426). Guests (15): `skFail` (failed lanes), `guestWaits`, `guestTag`, `guestHeld`. Power and
bring-up (16, 17, 19): `rampQ`, `input`, `flow`, `boot`. Easel (20): `flash`, `delivery`, `session`, `mbox` (the mailbox buffers), `easel`. `out`: everything sent out of the panel;
`pending`: the commands that wait, the first in front. -/
structure State where
  now : Nat := 0
  master : Nat := 0
  freeCtr : Nat := 0
  defectQ : List Defect := []
  regs : SMap Word := []
  hbm : Memory := []
  limit : Nat := 0
  edgeDown : List Nat := []
  edgeFeid : SMap Nat := []
  primary : SMap Nat := []
  engines : SMap Engine := []
  cells : SMap Cell := []
  fabs : SMap Fab := []
  ground : Ground := { }
  faultLog : List FaultRec := []
  cellParity : SMap Nat := []
  armCopies : SMap Nat := []
  halted : Bool := false
  capture : List CapEntry := []
  gapWrites : Nat := 0
  gapEvents : Nat := 0
  events : List Event := []
  pulseStart : Nat := 0
  annDown : List Nat := []
  annUp : List Nat := []
  adoptQ : List (Nat × Nat) := []
  members : List Nat := []
  packets : List Packet := []
  links : SMap LinkPort := []
  linkIn : List (Nat × LinkPkt) := []
  colls : SMap Coll := []
  collIn : List CollIn := []
  verdictSeen : List (List Byte) := []
  verdictIn : List (List Byte) := []
  pair : Pair := { }
  adoptLost : Nat := 0
  ports : SMap HostPort := []
  qctx : SMap QCtx := []
  feeds : SMap FeedQ := []
  cfgSpace : SMap Word := []
  msix : SMap Word := []
  msixPend : List Nat := []
  beat : Beat := { }
  setPend : Option Nat := none
  edgeMark : Nat := 0
  stages : SMap Nat := []
  skFail : SMap Nat := []
  guestWaits : List GuestWait := []
  guestTag : Nat := 0
  guestHeld : List Nat := []
  rampQ : List Nat := []
  input : Input := { }
  flow : Flow := { }
  boot : Boot := { }
  flash : Flash := { }
  delivery : Option Delivery := none
  session : Session := { }
  mbox : Memory := []
  latches : SMap Word := []
  utc : Option (Nat × Nat) := none
  easel : Easel := { }
  out : List Out := []
  pending : List Instr := []
  deriving DecidableEq, Repr

/-- The panel right after reset. -/
def State.reset : State := { edgeDown := List.range 58 ++ [60, 61, 62, 63] }

end Sys2Proof.Machine
end

