-- ==== Sys2Proof/Machine/Ops.lean ====
section
/-! DEFINITION. The named operations over the state: the register file, engines, cells, dies, time and free values. -/
namespace Sys2Proof.Machine

/-- The answer of every command of the block. -/
abbrev Answer := Host.Outcome State Fault Refusal

/-! ### Registers (00_scope R5 to R7) -/

/-- A register's value: what was last put in it, or its reset value. -/
def State.rd (s : State) (a : Nat) : Word := SMap.getD s.regs a (regReset a)

/-- A register's value as a number. -/
def State.rdN (s : State) (a : Nat) : Nat := (s.rd a).toNat

/-- Put a value in a register. A value equal to the reset value is not listed. -/
def State.wr (s : State) (a : Nat) (v : Nat) : State :=
  { s with regs := SMap.set (regReset a) s.regs a (BitVec.ofNat 32 v) }

/-- A field of a register. -/
def State.fld (s : State) (a : Nat) (f : Fld) : Nat := bits (s.rdN a) f.hi f.lo

/-- Whether a one-bit field is set. -/
def State.flag (s : State) (a : Nat) (f : Fld) : Bool := s.fld a f != 0

/-- Put a field of a register. -/
def State.setFld (s : State) (a : Nat) (f : Fld) (v : Nat) : State := s.wr a (putBits (s.rdN a) f.hi f.lo v)

/-- Set a one-bit field. -/
def State.setFlag (s : State) (a : Nat) (f : Fld) (b : Bool) : State := s.setFld a f (b2n b)

/-- Add to a counting field that saturates. -/
def State.satFld (s : State) (a : Nat) (f : Fld) (k : Nat) : State :=
  s.setFld a f (satAdd (f.hi + 1 - f.lo) (s.fld a f) k)

/-- Add to a counting field that wraps. -/
def State.addFld (s : State) (a : Nat) (f : Fld) (k : Nat) : State := s.setFld a f (s.fld a f + k)

/-- Give a register its reset value. -/
def State.rstReg (s : State) (a : Nat) : State := { s with regs := SMap.erase s.regs a }

/-- Give every register of an address range its reset value (R6). -/
def State.rstRange (s : State) (lo n : Nat) : State := { s with regs := SMap.eraseRange s.regs lo n }

/-! ### Engines, cells and dies -/

/-- Engine `e`. -/
def State.eng (s : State) (e : Nat) : Engine := SMap.getD s.engines e { }

/-- Put engine `e`. -/
def State.setEng (s : State) (e : Nat) (g : Engine) : State := { s with engines := SMap.set { } s.engines e g }

/-- Change engine `e`. -/
def State.onEng (s : State) (e : Nat) (f : Engine → Engine) : State := s.setEng e (f (s.eng e))

/-- The key of logical cell `c` of logical die `d` of engine `e`. -/
def cellKey (e d c : Nat) : Nat := (e * 4 + d) * 1024 + c

/-- A cell. -/
def State.cell (s : State) (e d c : Nat) : Cell := SMap.getD s.cells (cellKey e d c) { }

/-- Put a cell. -/
def State.setCell (s : State) (e d c : Nat) (x : Cell) : State :=
  { s with cells := SMap.set { } s.cells (cellKey e d c) x }

/-- Change a cell. -/
def State.onCell (s : State) (e d c : Nat) (f : Cell → Cell) : State := s.setCell e d c (f (s.cell e d c))

/-- Change every cell that is listed of engine `e`, and of die `d` where one is given. -/
def State.onCells (s : State) (e : Nat) (d : Option Nat) (f : Cell → Cell) : State :=
  let hit := fun k : Nat => decide (k / 4096 = e) &&
    (match d with | none => true | some d' => decide (k / 1024 % 4 = d'))
  { s with cells := s.cells.foldl (fun m p => if hit p.1 then SMap.set { } m p.1 (f (SMap.getD s.cells p.1 { })) else m) s.cells }

/-- The fabric of a die. -/
def State.fab (s : State) (e d : Nat) : Fab := SMap.getD s.fabs (e * 4 + d) { }

/-- Put the fabric of a die. -/
def State.setFab (s : State) (e d : Nat) (x : Fab) : State := { s with fabs := SMap.set { } s.fabs (e * 4 + d) x }

/-- Change the fabric of a die. -/
def State.onFab (s : State) (e d : Nat) (f : Fab → Fab) : State := s.setFab e d (f (s.fab e d))

/-! ### Output -/

/-- Send something out of the panel. -/
def State.emit (s : State) (o : Out) : State := { s with out := s.out ++ [o] }

/-! ### Time and free values -/

/-- The master cadence count in ticks (12_clocks R304). -/
def State.ticks (s : State) : Nat := s.master / 2 ^ 24 % 2 ^ 64

/-- Take the number of the next free value. -/
def State.fresh (s : State) : State := { s with freeCtr := s.freeCtr + 1 }

/-- The physical position that holds logical die `d` of engine `e` (04_cell R80, CEL_DIE_INFO.LOGICAL). -/
def State.posOf (s : State) (e d : Nat) : Nat :=
  ((List.range 5).find? fun m => s.fld (Reg.CEL_DIE_INFO e m) Fld.CEL_DIE_INFO.LOGICAL == d).getD d

/-- The logical die that stands at position `m`, if it is in use. -/
def State.dieAt (s : State) (e m : Nat) : Option Nat :=
  let l := s.fld (Reg.CEL_DIE_INFO e m) Fld.CEL_DIE_INFO.LOGICAL
  if l < 4 then some l else none

end Sys2Proof.Machine
end

