-- ==== Sys2Proof/Machine/LinkPorts.lean ====
section
/-! DEFINITION. Link packets and the link ports: the CRC, the kinds, the port states and the retry buffer (14_links_pairs_chains
R367 to R371). -/
namespace Sys2Proof.Machine

/-! ### Packets (R367, R368) -/

/-- One bit of the reflected CRC-32C. -/
def crc32cBit (r : Nat) : Nat := if r % 2 = 1 then Nat.xor (r / 2) 0x82F63B78 else r / 2

/-- One byte of it. -/
def crc32cByte (r : Nat) (b : Byte) : Nat :=
  let r0 := Nat.xor r b.toNat
  crc32cBit (crc32cBit (crc32cBit (crc32cBit (crc32cBit (crc32cBit (crc32cBit (crc32cBit r0)))))))

/-- CRC-32C: preset to all ones, reflected, inverted (R367). -/
def crc32c (bs : List Byte) : Nat := Nat.xor (bs.foldl crc32cByte 0xFFFFFFFF) 0xFFFFFFFF

/-- Kinds on VC0 and VC1. -/
def bulkKind (k : Nat) : Bool := (decide (1 ≤ k ∧ k ≤ 4)) || k == 0x10

/-- Whether a KIND is assigned. -/
def kindKnown (k : Nat) : Bool := bulkKind k || [0x11, 0x20, 0x21, 0x22, 0x23, 0x30, 0x31, 0x32, 0x3F].contains k

/-- A packet that asks for an answer. -/
def LinkPkt.request (x : LinkPkt) : Bool := x.kind == 1 || x.kind == 2

/-- How a KIND shows among what leaves the panel. -/
def linkKind (x : LinkPkt) : LinkKind :=
  match x.kind with
  | 1 | 2 => .request
  | 3 | 4 => .reply
  | 0x10 => if bit x.aux 0 then .collResult else .collData
  | 0x11 => .collAbort
  | 0x20 => .beat
  | 0x21 => .verdict
  | 0x22 => .resetNotice
  | 0x23 => .adopt
  | 0x30 => .mirror
  | 0x31 => .pairCommit
  | 0x32 => .pairBeat
  | _ => .mgmt

/-- The header fields of a packet in their order. -/
def LinkPkt.words (x : LinkPkt) : List Nat :=
  [x.kind, x.vc + 4 * b2n x.rerouted, x.pseq, x.hops, x.dst, x.status, x.src, x.addr, x.tag, x.aux]

/-! ### Ports -/

/-- A link port beside its registers. -/
def State.link (s : State) (p : Nat) : LinkPort := SMap.getD s.links p { }

/-- Change a link port. -/
def State.onLink (s : State) (p : Nat) (f : LinkPort → LinkPort) : State :=
  { s with links := SMap.set { } s.links p (f (s.link p)) }

/-- LNK_PORT_STAT.STATE. -/
def State.linkState (s : State) (p : Nat) : Nat := s.fld (Reg.LNK_PORT_STAT p) Fld.LNK_PORT_STAT.STATE

/-- Put LNK_PORT_STAT.STATE. -/
def State.setLinkState (s : State) (p v : Nat) : State := s.setFld (Reg.LNK_PORT_STAT p) Fld.LNK_PORT_STAT.STATE v

/-- Up or degraded. -/
def State.linkLive (s : State) (p : Nat) : Bool := s.linkState p == 2 || s.linkState p == 3

/-- Pair mode (R392). -/
def State.linkPaired (s : State) (p : Nat) : Bool := s.flag (Reg.LNK_PORT_STAT p) Fld.LNK_PORT_STAT.PAIR

/-- Bytes in a port's retry buffer (R370). -/
def LinkPort.held (x : LinkPort) : Nat := (x.sent.map fun y => 36 + y.data.length).sum

/-- Send a packet on a live port: it stays in the retry buffer until it is acknowledged; one that finds the buffer full waits. -/
def State.linkPut (s : State) (p : Nat) (x : LinkPkt) : State :=
  let l := s.link p
  if 4 * 2 ^ 20 < l.held + 36 + x.data.length then s.onLink p fun l => { l with wait := l.wait ++ [(x, s.now)] }
  else
    let vc := if !bulkKind x.kind then (if x.kind = 0x30 ∨ x.kind = 0x31 then 0 else 2)
      else if s.flag (Reg.LNK_PORT_CTRL p) Fld.LNK_PORT_CTRL.DATELINE then 1 else x.vc
    let y := { x with vc := vc, pseq := l.txSeq }
    (s.onLink p fun l => { l with txSeq := (l.txSeq + 1) % 65536, sent := l.sent ++ [y] }).emit (.link p (linkKind y) y.words y.data)

end Sys2Proof.Machine
end

