-- ==== Sys2Proof/Machine/Mapping.lean ====
section
/-! DEFINITION. The mapping of a die's logical cells onto its good physical cells (04_cell R81): what the defect list makes of it when
the engine comes up. -/
namespace Sys2Proof.Machine

/-- The rows of the good cells of a physical column, north to south; `bad` lists bad cells as (column, row). -/
def goodRows (bad : List (Nat × Nat)) (col : Nat) : List Nat := (List.range 28).filter fun r => !bad.contains (col, r)

/-- The logical cells (column, row) that their own column cannot hold, in the order in which they are filled. -/
def deficits (bad : List (Nat × Nat)) : List (Nat × Nat) :=
  (List.range 32).flatMap fun c => ((List.range 27).filter fun r => decide ((goodRows bad c).length ≤ r)).map fun r => (c, r)

/-- The columns whose cell in physical row 27 is good and not used by their own logical cells. -/
def spareCols (bad : List (Nat × Nat)) : List Nat := (List.range 32).filter fun c => (goodRows bad c).length == 28

/-- Distance in columns. -/
def colDist (a b : Nat) : Nat := (a - b) + (b - a)

/-- The nearest column of a list in increasing order; of two equally near the western one. -/
def nearestCol (c : Nat) : List Nat → Option Nat
  | [] => none
  | x :: l =>
    match nearestCol c l with
    | none => some x
    | some y => if colDist y c < colDist x c then some y else some x

/-- Lend a spare cell to each deficit in turn: the deficits with the column that lends. -/
def lend (cols : List Nat) : List (Nat × Nat) → List ((Nat × Nat) × Nat)
  | [] => []
  | x :: l =>
    match nearestCol x.1 (cols.filter (· != x.1)) with
    | none => lend cols l
    | some c => (x, c) :: lend (cols.erase c) l

/-- The borrowed cells of a die. -/
def borrowed (bad : List (Nat × Nat)) : List ((Nat × Nat) × Nat) := lend (spareCols bad) (deficits bad)

/-- The physical (column, row) of a logical (column, row). -/
def physOf (bad : List (Nat × Nat)) (col row : Nat) : Nat × Nat :=
  match (goodRows bad col)[row]? with
  | some r => (col, r)
  | none => match (borrowed bad).find? fun x => x.1 == (col, row) with
    | some x => (x.2, 27)
    | none => (col, row)

/-- The bad cells in force at a position of an engine. -/
def State.badCells (s : State) (e m : Nat) : List (Nat × Nat) := SMap.getD (s.eng e).bad m []

/-- The physical column and row of a logical cell of logical die `d`, column in bits 4:0 and row in 9:5 (17 R451). -/
def State.physCell (s : State) (e d c : Nat) : Nat :=
  let p := physOf (s.badCells e (s.posOf e d)) (c % 32) (c / 32)
  p.1 + 32 * p.2

end Sys2Proof.Machine
end

