-- ==== Sys2Proof/Machine/FaultOps.lean ====
section
/-! DEFINITION. The fault collector: sources, severities, escalation, containment, abort lines, FAULT_N and the host
notice (18_faults R467 to R481), as operations that every family calls. -/
namespace Sys2Proof.Machine

/-! ### Vectors of the host ports (13 R339, R359) -/

/-- Whether a host port is up. -/
def State.portUp (s : State) (p : Nat) : Bool := s.fld (Reg.HP_PORT_STAT p) Fld.HP_PORT_STAT.STATE == 2

/-- The number of a vector in the MSI-X tables: port, function, vector. -/
def msixKey (p f v : Nat) : Nat := (p * 16 + f) * 2048 + v

/-- Word `i` of a table entry; Vector Control resets with its mask bit set (the base specification; log 43). -/
def State.msixWord (s : State) (k i : Nat) : Word := SMap.getD s.msix (4 * k + i) (if i = 3 then 1#32 else 0#32)

/-- Signal a vector of a function: a masked one is held pending, and a port that is not up sends nothing. -/
def State.signal (s : State) (p f v : Nat) : State :=
  let k := msixKey p f v
  if !s.portUp p then s
  else if bit (s.msixWord k 3).toNat 0 then
    (if s.msixPend.contains k then s else { s with msixPend := s.msixPend ++ [k] })
  else s.emit (.msix p f v)

/-! ### The capture FIFO -/

/-- Put an entry in the FIFO and show its level. -/
def State.capPush (s : State) (x : CapEntry) : State :=
  let s1 := { s with capture := s.capture ++ [x] }
  s1.setFld Reg.LOG_STAT Fld.LOG_STAT.LEVEL s1.capture.length

/-- A hardware event of the change record (20 R528): one that finds the FIFO full is counted for the GAP entry. -/
def State.captureEvent (s : State) (kind subject value : Nat) (digest : List Byte := []) (origin : Nat := 4)
    (oid : Nat := 0) (result : Nat := 0) : State :=
  if 4096 ≤ s.capture.length then { s with gapEvents := s.gapEvents + 1 }
  else s.capPush ⟨s.ticks, kind, origin, oid, result, subject, value, digest⟩

/-! ### Partitions -/

/-- The partition record of an engine (06 R146). -/
def State.partOf (s : State) (e : Nat) : Option PartRec := s.ground.parts.find? fun p => bit p.engines e

/-- The engines of a partition. -/
def PartRec.list (p : PartRec) : List Nat := (List.range 48).filter fun e => bit p.engines e

/-- PNL_ENG_STATE.STATE of an engine (17 R466). -/
def State.engState (s : State) (e : Nat) : Nat := s.fld (Reg.PNL_ENG_STATE e) Fld.PNL_ENG_STATE.STATE

/-- Set PNL_ENG_STATE.STATE. -/
def State.setEngState (s : State) (e v : Nat) : State := s.setFld (Reg.PNL_ENG_STATE e) Fld.PNL_ENG_STATE.STATE v

/-- ENG_CANVAS_STATUS.STATE of an engine (06 R173). -/
def State.cvState (s : State) (e : Nat) : Nat := s.fld (Reg.ENG_CANVAS_STATUS e) Fld.ENG_CANVAS_STATUS.STATE

/-- Set ENG_CANVAS_STATUS.STATE. -/
def State.setCvState (s : State) (e v : Nat) : State :=
  s.setFld (Reg.ENG_CANVAS_STATUS e) Fld.ENG_CANVAS_STATUS.STATE v

/-- The codes of ENG_CANVAS_STATUS.STATE (06 R173). -/
def Cv.EMPTY : Nat := 0
def Cv.LOADING : Nat := 1
def Cv.READY : Nat := 2
def Cv.RUNNING : Nat := 3
def Cv.STOPPING : Nat := 4
def Cv.DONE : Nat := 5
def Cv.STANDBY : Nat := 6
def Cv.ACTIVATING : Nat := 7
def Cv.FAULTED : Nat := 8

/-! ### Engine events (13 R340 to R342) -/

/-- The cadence count of an engine, in ticks (12 R305). -/
def State.engTicks (s : State) (e : Nat) : Nat := (s.eng e).count / 2 ^ 24 % 2 ^ 64

/-- The stamp of the engine cycle that starts now: the count rounded up to a whole tick (12 R319). -/
def State.stamp (s : State) (e : Nat) : Nat := ((s.eng e).count + (2 ^ 24 - 1)) / 2 ^ 24 % 2 ^ 64

/-- Raise an engine event: it goes to its port and waits to be recorded there. -/
def State.raiseEvent (s : State) (e kind aux info : Nat) : State :=
  { s with events := s.events ++ [⟨kind, e, aux, info, s.engTicks e⟩] }

/-- A canvas load of engine `e` ends with a code (06 R161, R162): the code, the event, and the change-record entry. -/
def State.loadEnd (s : State) (e code : Nat) : State :=
  let cv := (s.eng e).canvas
  let s1 := s.setFld (Reg.ENG_CANVAS_STATUS e) Fld.ENG_CANVAS_STATUS.CODE code
  (s1.raiseEvent e 1 0 code).captureEvent 0x04 (e + 256 * b2n cv.standby) cv.image cv.digest 4 0 code

/-! ### Sources (R480, R481) -/

/-- What the fault-source tables say of a source: class, default severity, floor (0 for none), and the abort mark. -/
structure Source where
  cls : Nat
  dflt : Nat
  floor : Nat
  abort : Bool
  deriving DecidableEq, Repr

/-- The source codes. -/
def Src.CELL_ADDR : Nat := 0x01
def Src.CELL_SP_UE : Nat := 0x02
def Src.CELL_NET_PAR : Nat := 0x03
def Src.CELL_SLOT_PAR : Nat := 0x04
def Src.FAB_STALL : Nat := 0x05
def Src.FAB_QCHANGE : Nat := 0x06
def Src.HUB_CHECK_FAIL : Nat := 0x07
def Src.HUB_HBM_UE : Nat := 0x08
def Src.HUB_SPM_UE : Nat := 0x09
def Src.HUB_BUF_PAR : Nat := 0x0A
def Src.HUB_SCRUB_FAIL : Nat := 0x0B
def Src.REMOTE_REFUSED : Nat := 0x0C
def Src.VS_EXPORT_FAIL : Nat := 0x0D
def Src.NET_WDOG : Nat := 0x0E
def Src.NET_LANE_FAIL : Nat := 0x0F
def Src.NET_LINK_DOWN : Nat := 0x10
def Src.NET_ROUTE_LOST : Nat := 0x11
def Src.NET_SYNC_MISMATCH : Nat := 0x12
def Src.SK_LANE_FAIL : Nat := 0x13
def Src.SK_XING_DOWN : Nat := 0x14
def Src.SK_HUB_PORT_DOWN : Nat := 0x15
def Src.REF_LOST : Nat := 0x16
def Src.TIME_UNLOCK : Nat := 0x17
def Src.MARGIN_WARN : Nat := 0x18
def Src.MARGIN_LOST : Nat := 0x19
def Src.SCHED_LOST : Nat := 0x1A
def Src.REG_LOSS : Nat := 0x1B
def Src.REG_OUT : Nat := 0x1C
def Src.BRK_TRIP : Nat := 0x1D
def Src.RAMP_ABORT : Nat := 0x1E
def Src.TEMP_HIGH : Nat := 0x1F
def Src.TEMP_TRIP : Nat := 0x20
def Src.BEAT_LOST : Nat := 0x40
def Src.BEAT_STUCK : Nat := 0x41
def Src.INPUT_LOW : Nat := 0x42
def Src.INPUT_HIGH : Nat := 0x43
def Src.INPUT_LOST : Nat := 0x44
def Src.EDGE_UV : Nat := 0x45
def Src.MODE_MISMATCH : Nat := 0x46
def Src.THROTTLE : Nat := 0x47
def Src.LNK_PORT : Nat := 0x48
def Src.LNK_HOP_LIMIT : Nat := 0x49
def Src.LNK_COLL_ABORT : Nat := 0x4A
def Src.PAIR_OVERFLOW : Nat := 0x4B
def Src.PAIR_SPLIT : Nat := 0x4C
def Src.PAIR_UNPROTECTED : Nat := 0x4D
def Src.EXPELLED : Nat := 0x4E
def Src.PERST_STUCK : Nat := 0x4F
def Src.HP_POSTED_FAIL : Nat := 0x50
def Src.HP_SURPRISE : Nat := 0x51
def Src.FQ_UE : Nat := 0x52
def Src.GUEST_TRIP : Nat := 0x53
def Src.GUEST_TIMEOUT : Nat := 0x54
def Src.GUEST_MISMATCH : Nat := 0x55
def Src.MRST_STUCK : Nat := 0x56
def Src.DEFECT_FULL : Nat := 0x57
def Src.EASEL_TAKEOVER : Nat := 0x58
def Src.EASEL_SHED : Nat := 0x59
def Src.FLOW_LOW : Nat := 0x5A
def Src.FLOW_CRIT : Nat := 0x5B
def Src.INLET_RANGE : Nat := 0x5C
def Src.THM_SENSOR : Nat := 0x5D
def Src.FLOW_STUCK : Nat := 0x5E

/-- Scope byte of a panel-scope fault (R468). -/
def panelScope : Nat := 0xFF

/-- The row of a source in the fault-source tables; none for a reserved code. -/
def sourceRow (c : Nat) : Option Source :=
  match c with
  | 0x01 => some ⟨0, 2, 0, true⟩ | 0x02 => some ⟨3, 2, 0, true⟩ | 0x03 => some ⟨1, 2, 0, true⟩
  | 0x04 => some ⟨1, 2, 0, true⟩ | 0x05 => some ⟨2, 2, 0, false⟩ | 0x06 => some ⟨0, 2, 0, false⟩
  | 0x07 => some ⟨3, 2, 0, true⟩ | 0x08 => some ⟨3, 2, 0, true⟩ | 0x09 => some ⟨3, 2, 0, true⟩
  | 0x0A => some ⟨3, 2, 0, true⟩ | 0x0B => some ⟨3, 1, 0, false⟩ | 0x0C => some ⟨0, 1, 0, false⟩
  | 0x0D => some ⟨0, 1, 0, false⟩ | 0x0E => some ⟨4, 2, 0, false⟩ | 0x0F => some ⟨4, 1, 0, false⟩
  | 0x10 => some ⟨4, 2, 0, false⟩ | 0x11 => some ⟨4, 2, 0, false⟩ | 0x12 => some ⟨4, 2, 0, false⟩
  | 0x13 => some ⟨4, 1, 0, false⟩ | 0x14 => some ⟨4, 1, 0, false⟩ | 0x15 => some ⟨1, 3, 3, false⟩
  | 0x16 => some ⟨5, 2, 0, false⟩ | 0x17 => some ⟨5, 2, 0, false⟩ | 0x18 => some ⟨5, 1, 0, false⟩
  | 0x19 => some ⟨5, 3, 0, false⟩ | 0x1A => some ⟨12, 2, 0, false⟩ | 0x1B => some ⟨6, 1, 0, false⟩
  | 0x1C => some ⟨6, 3, 3, false⟩ | 0x1D => some ⟨6, 3, 3, false⟩ | 0x1E => some ⟨6, 1, 0, false⟩
  | 0x1F => some ⟨7, 2, 0, false⟩ | 0x20 => some ⟨7, 3, 3, false⟩
  | 0x40 => some ⟨5, 2, 0, false⟩ | 0x41 => some ⟨5, 2, 0, false⟩ | 0x42 => some ⟨6, 2, 0, false⟩
  | 0x43 => some ⟨6, 2, 0, false⟩ | 0x44 => some ⟨6, 5, 5, false⟩ | 0x45 => some ⟨6, 2, 0, false⟩
  | 0x46 => some ⟨6, 2, 0, false⟩ | 0x47 => some ⟨6, 1, 0, false⟩ | 0x48 => some ⟨8, 1, 0, false⟩
  | 0x49 => some ⟨8, 1, 0, false⟩ | 0x4A => some ⟨8, 1, 0, false⟩ | 0x4B => some ⟨8, 2, 0, false⟩
  | 0x4C => some ⟨8, 2, 0, false⟩ | 0x4D => some ⟨8, 2, 0, false⟩ | 0x4E => some ⟨8, 2, 0, false⟩
  | 0x4F => some ⟨9, 2, 0, false⟩ | 0x50 => some ⟨9, 1, 0, false⟩ | 0x51 => some ⟨9, 1, 0, false⟩
  | 0x52 => some ⟨3, 2, 0, true⟩ | 0x53 => some ⟨10, 2, 0, false⟩ | 0x54 => some ⟨10, 1, 0, false⟩
  | 0x55 => some ⟨10, 2, 0, false⟩ | 0x56 => some ⟨11, 2, 0, false⟩ | 0x57 => some ⟨11, 2, 0, false⟩
  | 0x58 => some ⟨11, 2, 0, false⟩ | 0x59 => some ⟨11, 1, 0, false⟩ | 0x5A => some ⟨7, 2, 0, false⟩
  | 0x5B => some ⟨7, 5, 5, false⟩ | 0x5C => some ⟨7, 2, 0, false⟩ | 0x5D => some ⟨7, 2, 0, false⟩
  | 0x5E => some ⟨7, 2, 0, false⟩
  | _ => none

/-- Whether a source is of engine scope (R480); the others are of panel scope. -/
def engineSource (c : Nat) : Bool := decide (0x01 ≤ c ∧ c ≤ 0x20)

/-! ### Abort lines (11 R297, 18 R475) -/

/-- The collectives to which an engine of a list contributes are to abort with cause 1 (14 R387). -/
def State.collsLose (s : State) (l : List Nat) : State :=
  { s with colls := s.colls.map fun p =>
      if p.2.due = 0 ∧ (p.2.locals.any fun e => l.contains e) then (p.1, { p.2 with due := 1 }) else p }

/-- Assert the abort line of a partition: it reaches every engine of the partition. -/
def State.abortPartition (s : State) (p : PartRec) : State :=
  (p.list.foldl (fun s e => s.onEng e fun g => { g with abortPart := true }) s).collsLose p.list

/-- Assert the abort line of the partition that engine `e` belongs to, if any. -/
def State.abortOf (s : State) (e : Nat) : State :=
  match s.partOf e with
  | some p => s.abortPartition p
  | none => s

/-- Assert the panel abort line: it reaches every engine, and GABORT every guest (15 R411). -/
def State.abortPanelLine (s : State) : State :=
  let s1 := ((List.range 48).foldl (fun s e => s.onEng e fun g => { g with abortPanel := true }) s).collsLose (List.range 48)
  (List.range 4).foldl (fun s g => s.emit (.pin (.guestAbort g) true)) s1

/-! ### PAIR_FAIL (14 R396) -/

/-- Send PAIR_BEAT with FAIL set on each pair port that is up in pair mode. -/
def State.sendPairFail (s : State) : State :=
  [6, 7].foldl (fun s p => if s.linkPaired p && s.linkLive p then s.linkPut p { kind := 0x32, hops := 1, aux := 1 } else s) s

/-! ### Containment (R476) -/

/-- Containment of engine `e`; `notify`: whether an armed standby receives the notice. -/
def State.contain (s : State) (e : Nat) (notify : Bool) : State :=
  if (s.eng e).contained then s
  else if s.engState e = 6 then s.onEng e fun g => { g with containNext := true }
  else
    let s1 := if s.cvState e = Cv.LOADING then s.loadEnd e 0x10 else s
    let s2 := (s1.setEngState e 7).setCvState e Cv.FAULTED
    let s3 := s2.onEng e fun g => { g with contained := true, canvas := { g.canvas with running := false } }
    let s4 := ({ s3 with annDown := s3.annDown ++ [e] }).captureEvent 0x0C e 0
    let s5 := s4.abortOf e
    match SMap.find? s5.armCopies e with
    | some b => if notify then s5.onEng b fun g => { g with notices := g.notices ++ [e] } else s5
    | none => s5

/-- Whether an engine is contained, off or out of service (R472). -/
def State.engDead (s : State) (e : Nat) : Bool :=
  (s.eng e).contained || s.engState e == 0 || s.engState e == 7 || s.engState e == 8 || s.engState e == 9

/-! ### FAULT_N and the host notice (R478, R479) -/

/-- Start or restart the pulse and set HOLD. -/
def State.faultPin (s : State) (sev : Nat) : State :=
  let m := s.fld Reg.FLT_PIN Fld.FLT_PIN.MIN_SEV
  if max m 1 ≤ sev then
    let s1 := ((s.setFlag Reg.FLT_PIN Fld.FLT_PIN.PULSE true).setFlag Reg.FLT_PIN Fld.FLT_PIN.HOLD true)
    let s2 := s1.setFlag Reg.FLT_PIN Fld.FLT_PIN.ASSERTED true
    { s2 with pulseStart := s2.now, out := s2.out ++ [Out.pin .faultN false] }
  else s

/-- Signal one port's physical function of a record. -/
def State.faultNotify (s : State) (sev p : Nat) : State :=
  let m := s.fld (Reg.FLT_NOTIFY p) Fld.FLT_NOTIFY.MIN_SEV
  if s.flag (Reg.FLT_NOTIFY p) Fld.FLT_NOTIFY.ENABLE && decide (max m 1 ≤ sev) then
    s.signal p 0 (s.fld (Reg.FLT_NOTIFY p) Fld.FLT_NOTIFY.VECTOR)
  else s

/-! ### The log (R468, R469) -/

/-- Write one record: the 513th replaces the oldest, and LOST counts it. -/
def State.faultRecord (s : State) (r : FaultRec) : State :=
  let full := 512 ≤ s.faultLog.length
  let log := (if full then s.faultLog.drop 1 else s.faultLog) ++ [r]
  let s1 := { s with faultLog := log }
  let s2 := if full then s1.satFld Reg.FLT_LOG_STAT Fld.FLT_LOG_STAT.LOST 1 else s1
  let s3 := s2.addFld Reg.FLT_LOG_STAT Fld.FLT_LOG_STAT.TAIL 1
  s3.satFld (Reg.FLT_SRC r.source) Fld.FLT_SRC.COUNT 1

/-- The FLT_PEND register of a scope. -/
def pendReg (scope : Nat) : Nat := Reg.FLT_PEND (if scope = panelScope then 48 else scope)

/-- The severity of steps 1 and 2 of R471: setting or default, raised to the floor. -/
def State.baseSeverity (s : State) (src : Nat) (row : Source) : Nat :=
  let set := s.fld (Reg.FLT_SRC src) Fld.FLT_SRC.SEVERITY
  max row.floor (if set = 0 ∨ set = 6 ∨ set = 7 then row.dflt else set)

/-- R473: the second SLOT_PAR or NET_PAR of a cell since its canvas was loaded finds it bad. -/
def State.cellBad (s : State) (src scope detail : Nat) (injected : Bool) : State × Bool :=
  if (src = 3 ∨ src = 4) ∧ !injected then
    let k := cellKey scope (bits detail 11 10) (bits detail 9 0)
    let n := SMap.getD s.cellParity k 0
    let s1 := { s with cellParity := SMap.set 0 s.cellParity k (n + 1) }
    if 1 ≤ n then
      let d := bits detail 11 10
      let c := bits detail 9 0
      let m := s1.posOf scope d
      let place := s1.physCell scope d c
      ({ s1 with defectQ := s1.defectQ ++ [⟨1, scope, m, place, 2⟩] }, true)
    else (s1, false)
  else (s, false)

/-- The actions of a severity (R470). A panel-scope source at CONTAIN or HALT_PARTITION acts as ALERT. -/
def State.severityAction (s : State) (sev scope : Nat) : State :=
  match sev with
  | 3 => if scope = panelScope then s else s.contain scope true
  | 4 =>
    if scope = panelScope then s
    else match s.partOf scope with
      | some p => p.list.foldl (fun s e => s.contain e false) s
      | none => s.contain scope false
  | 5 =>
    let s1 := { s with halted := true }
    let s2 := (List.range 48).foldl (fun s e => if s.engDead e then s else s.contain e false) s1
    s2.abortPanelLine.sendPairFail
  | _ => s

/-- A fault reaches the collector (R468 to R479). `scope` is the engine, or 0xFF for the panel; `consumer` the engine
whose step would have used the data, if any (R474). -/
def State.faultFor (s : State) (src scope detail : Nat) (injected : Bool) (consumer : Option Nat) : State :=
  match sourceRow src with
  | none => s
  | some row =>
    if scope ≠ panelScope ∧ s.engDead scope then
      s.faultRecord ⟨s.ticks, src, scope, 1 + 64 * b2n injected, row.cls, detail⟩
    else
      let (s0, bad) := s.cellBad src scope detail injected
      let base := s0.baseSeverity src row
      let pend := s0.rdN (pendReg scope)
      let esc := s0.flag (Reg.FLT_SRC src) Fld.FLT_SRC.ESC_EN && bit pend row.cls
      let lvl := if esc then min (base + 1) 5 else base
      let sev := if bad then max lvl 3 else lvl
      let s1 := s0.wr (pendReg scope) (Nat.lor pend (2 ^ row.cls))
      let s2 := s1.faultRecord ⟨s.ticks, src, scope, sev + 64 * b2n injected + 128 * b2n esc, row.cls, detail⟩
      let s3 := match consumer with
        | some c => if row.abort && !injected then s2.abortOf c else s2
        | none => s2
      let s4 := s3.severityAction sev scope
      ([0, 1].foldl (fun s p => s.faultNotify sev p) (s4.faultPin sev))

/-- A fault whose consumer, if its source aborts one, is the engine in scope. -/
def State.fault (s : State) (src scope detail : Nat) (injected : Bool := false) : State :=
  s.faultFor src scope detail injected (if scope = panelScope then none else some scope)

/-- The DETAIL of a cell source (R468). -/
def cellDetail (d c : Nat) : Nat := d * 1024 + c

/-- Queue a finding for Easel to append to the defect list (17 R451). -/
def State.queueDefect (s : State) (d : Defect) : State := { s with defectQ := s.defectQ ++ [d] }

end Sys2Proof.Machine
end

