-- ==== Sys2Proof/Machine/Spad.lean ====
section
/-! DEFINITION. Scratchpad words: reads with their check state, whole-word writes, read-merge-write, power and zero-fill,
and what a corrected or uncorrectable word starts (07_scratchpads R174 to R194). -/
namespace Sys2Proof.Machine

/-- A scratchpad: that of a cell, or that of a hub. -/
inductive SpRef where
  | cell (e d c : Nat)
  | hub (e : Nat)
  deriving DecidableEq, Repr

/-- The engine a scratchpad belongs to. -/
def SpRef.engine : SpRef → Nat
  | .cell e _ _ => e
  | .hub e => e

/-- Bytes of one bank (R175, R176). -/
def SpRef.bankBytes : SpRef → Nat
  | .cell _ _ _ => 0x4000
  | .hub _ => 0x1000000

/-- Bytes of the scratchpad (R175, R176). -/
def SpRef.size : SpRef → Nat
  | .cell _ _ _ => 0x20000
  | .hub _ => 0x10000000

/-- The contents of a scratchpad. -/
def State.sp (s : State) : SpRef → Scratch
  | .cell e d c => (s.cell e d c).sp
  | .hub e => (s.eng e).spm

/-- Put the contents of a scratchpad. -/
def State.setSp (s : State) (r : SpRef) (x : Scratch) : State :=
  match r with
  | .cell e d c => s.onCell e d c fun k => { k with sp := x }
  | .hub e => s.onEng e fun g => { g with spm := x }

/-- The state of a bank: 0 ON, 1 RETAIN, 2 OFF (R180); a bank that BANK_OFF names is held OFF (R183). -/
def State.bankState (s : State) (r : SpRef) (b : Nat) : Nat :=
  match r with
  | .cell e d c =>
    if bit (s.eng e).cellOff b then 2 else SMap.getD (s.cell e d c).banks b 0
  | .hub e => if bit (s.eng e).spmOff b then 2 else SMap.getD (s.eng e).spmBanks b 0

/-- The body of an applied canvas section (06 R142). -/
def Canvas.body (cv : Canvas) (ty g d : Nat) : Option (List Byte) :=
  (cv.secs.find? fun x => x.ty == ty && x.glaze == g && x.die == d).map (·.body)

/-- Whether a load is zero-filling bank `b` of a cell (R186). -/
def State.cellFilling (s : State) (e d c b : Nat) : Bool :=
  let cv := (s.eng e).canvas
  cv.zeroWait.contains d &&
    (match cv.body 0xB 0xFF d with
     | some x => bit (byteAt x (4 * c + 2)) b
     | none => false)

/-- Whether a bank may be accessed: ON, not in transition and not being zero-filled (R182, R191). -/
def State.bankOpen (s : State) (r : SpRef) (b : Nat) : Bool :=
  s.bankState r b == 0 &&
    (match r with
     | .cell e d c => !s.cellFilling e d c b
     | .hub e => !((SMap.find? (s.eng e).spmMoves b).isSome || (s.eng e).zeroing.contains b
                   || (s.eng e).zeroWait.contains b))

/-- What an unlisted word of a bank is: good after a zero-fill, else undefined (R185, R186). -/
def Scratch.default (x : Scratch) (b : Nat) : WordSt := if SMap.getD x.zeroed b false then .good else .undef

/-- The check state of word `w`. -/
def Scratch.stAt (x : Scratch) (bankBytes w : Nat) : WordSt := SMap.getD x.st w (x.default (w * 8 / bankBytes))

/-- Write a whole word: good check bits (R179, R194). -/
def Scratch.putWord (x : Scratch) (bankBytes w : Nat) (v : Word64) : Scratch :=
  { x with
    bytes := Memory.writeN x.bytes (w * 8) (leBytes 8 v.toNat)
    st := SMap.set (x.default (w * 8 / bankBytes)) x.st w .good }

/-- The bytes of word `w` as stored. -/
def Scratch.raw (x : Scratch) (w : Nat) : Word64 := BitVec.ofNat 64 (leNat (Memory.readN x.bytes (w * 8) 8))

/-- Zero-fill a bank (R186). -/
def Scratch.zeroBank (x : Scratch) (bankBytes b : Nat) : Scratch :=
  let lo := b * (bankBytes / 8)
  { x with
    bytes := Memory.lose x.bytes (b * bankBytes) bankBytes
    st := SMap.eraseRange x.st lo (bankBytes / 8)
    zeroed := SMap.set false x.zeroed b true
    wb := x.wb.filter fun w => decide (w < lo) || decide (lo + bankBytes / 8 ≤ w) }

/-- Lose a bank's contents: every word is undefined (R181, R185). -/
def Scratch.loseBank (x : Scratch) (bankBytes b : Nat) : Scratch :=
  { x.zeroBank bankBytes b with zeroed := SMap.set false x.zeroed b false }

/-- The row of a word as a defect-list finding (17 R451): a cell's by position and physical cell, a hub's by array. -/
def State.rowDefect (s : State) (r : SpRef) (w : Nat) : Defect :=
  let a := w * 8
  match r with
  | .cell e d c =>
    let m := s.posOf e d
    ⟨2, e, m, bits a 13 6 + 256 * (a / 0x4000) + 2048 * s.physCell e d c, 2⟩
  | .hub e =>
    -- arrays of a subarray in increasing address order (log 12)
    let line := a / 64
    let arr := (a / 0x1000000) * 1024 + (line % 8) * 128 + (line % 0x40000) / 8 / 256
    ⟨2, e, 5, (line / 8) % 256 + 256 * arr, 2⟩

/-- A corrected read: it is counted, the word waits for its write-back, and a row that erred again since its corrected
value was written back is listed (R189, R198). -/
def State.spCorrected (s : State) (r : SpRef) (w : Nat) : State :=
  let e := r.engine
  let f := match r with
    | .cell _ _ _ => Fld.ENG_SPM_ERR.CELL_CE
    | .hub _ => Fld.ENG_SPM_ERR.HUB_CE
  let s1 := s.satFld (Reg.ENG_SPM_ERR e) f 1
  let x := s1.sp r
  let b := w * 8 / r.bankBytes
  let s2 := if (SMap.getD x.wroteBack b []).contains w then s1.queueDefect (s1.rowDefect r w) else s1
  if x.wb.contains w then s2 else s2.setSp r { x with wb := x.wb ++ [w] }

/-- One word read: the state after, the value, and whether it is an uncorrectable error. An undefined word gives a free
value and may give an error (R185; log 1). -/
def State.spRead (s : State) (r : SpRef) (w : Nat) : State × Word64 × Bool :=
  let x := s.sp r
  match x.stAt r.bankBytes w with
  | .good => (s, x.raw w, false)
  | .ce => (s.spCorrected r w, x.raw w, false)
  | .ue => (s.queueDefect (s.rowDefect r w), x.raw w, true)
  | .undef =>
    let n := s.freeCtr
    (s.fresh, Config.freeWord64 n, Config.freeUe n)

/-- `n` words from `w`: the bytes, and the byte address of the first uncorrectable word. -/
def State.spReadWords (s : State) (r : SpRef) (w : Nat) : Nat → State × List Byte × Option Nat
  | 0 => (s, [], none)
  | n + 1 =>
    let (s1, v, bad) := s.spRead r w
    let (s2, bs, later) := s1.spReadWords r (w + 1) n
    (s2, leBytes 8 v.toNat ++ bs, if bad then some (w * 8) else later)

/-- `n` bytes from byte address `a`, reading every word they touch, whole (R179, R191). -/
def State.spReadBytes (s : State) (r : SpRef) (a n : Nat) : State × List Byte × Option Nat :=
  if n = 0 then (s, [], none)
  else
    let w0 := a / 8
    let w1 := (a + n - 1) / 8
    let (s1, bs, bad) := s.spReadWords r w0 (w1 + 1 - w0)
    (s1, slice bs (a - w0 * 8) n, bad)

/-- A write to a line of an engine scratchpad closes its merge entries (08 R230). -/
def State.mergeClose (s : State) (r : SpRef) (a n : Nat) : State :=
  match r with
  | .cell _ _ _ => s
  | .hub e =>
    if (s.eng e).merges == [] then s
    else s.onEng e fun g => { g with
      merges := g.merges.filter fun m => decide (m.line * 64 + 64 ≤ a) || decide (a + n ≤ m.line * 64) }

/-- Write whole words from byte address `a` (a multiple of 8). -/
def State.spWriteWords (s : State) (r : SpRef) (a : Nat) (bs : List Byte) : State :=
  let ws := chunks 8 (bs.length / 8 + 1) bs
  let x := s.sp r
  let y := (ws.foldl (fun (acc : Scratch × Nat) b =>
    (acc.1.putWord r.bankBytes acc.2 (BitVec.ofNat 64 (leNat b)), acc.2 + 1)) (x, a / 8)).1
  (s.setSp r y).mergeClose r a bs.length

/-- A read, merge and write of the word that holds bytes `a` to `a + bs.length - 1` (R179): on an uncorrectable error
nothing is written, and the word's address is answered. -/
def State.spMerge (s : State) (r : SpRef) (a : Nat) (bs : List Byte) : State × Option Nat :=
  let w := a / 8
  let (s1, v, bad) := s.spRead r w
  if bad then (s1, some (w * 8))
  else
    let old := leBytes 8 v.toNat
    let off := a % 8
    let new := old.take off ++ bs ++ old.drop (off + bs.length)
    (s1.spWriteWords r (w * 8) (new.take 8), none)

/-- Whether every byte of a range lies in the scratchpad and in open banks (R182). -/
def State.spRangeOpen (s : State) (r : SpRef) (a n : Nat) : Bool :=
  decide (a + n ≤ r.size) &&
    (n == 0 || (List.range ((a + n - 1) / r.bankBytes + 1 - a / r.bankBytes)).all fun i =>
      s.bankOpen r (a / r.bankBytes + i))

end Sys2Proof.Machine
end

