-- ==== Sys2Proof/Machine/CellOps.lean ====
section
/-! DEFINITION. What a cell's operations share: the slot fields (04_cell R85, R86), the canvas sections that hold slots,
descriptors and routes (06 R149 to R154), queues and their extensions (05 R118, R119), issue rules and stall counters
(04 R87, 10 R268), registers and cell faults (04 R106). -/
namespace Sys2Proof.Machine

/-! ### Canvas sections -/

/-- The CELL_GLAZE record of a cell (06 R153); none beyond the section. -/
def Canvas.cellRec (cv : Canvas) (g d c : Nat) : List Byte :=
  match cv.body 5 g d with
  | some b => (b.drop (48 * c)).take 48
  | none => []

/-- The start of program `p` in a PROGRAMS body (06 R150), walking `p` programs from `off`. -/
def progOff (b : List Byte) (off : Nat) : Nat → Nat
  | 0 => off
  | p + 1 => progOff b (off + 16 + 16 * leAt b off 2) p

/-- What a cell runs in a glaze: its slots, descriptors, extension words, iteration count and route words. -/
structure CellProg where
  n : Nat
  slots : List Byte
  descs : List Byte
  qext : List Byte
  iter : Nat
  vroute : Nat
  sroute : Nat
  croute : Nat
  deriving DecidableEq, Repr

/-- The programme of a cell from its CELL_GLAZE record (06 R150 to R153). -/
def Canvas.prog (cv : Canvas) (r : List Byte) : CellProg :=
  if r = [] then ⟨0, [], [], [], 0, 0, 0, 0⟩
  else
    let p := leAt r 0 2
    let pb := (cv.body 2 0xFF 0xFF).getD []
    let po := progOff pb 16 p
    let n := if p = 0xFFFF then 0 else leAt pb po 2
    let ds := leAt r 2 2
    let db := (cv.body 3 0xFF 0xFF).getD []
    let qs := leAt r 4 2
    let qb := (cv.body 4 0xFF 0xFF).getD []
    ⟨n, (pb.drop (po + 16)).take (16 * n), if ds = 0xFFFF then [] else (db.drop (16 + 512 * ds)).take 512,
      if qs = 0xFFFF then [] else (qb.drop (16 + 96 * qs)).take 96,
      leAt r 8 4, leAt r 16 8, leAt r 24 8, leAt r 32 8⟩

/-- The glaze in force (06 R173). -/
def State.glaze (s : State) (e : Nat) : Nat := s.fld (Reg.ENG_CANVAS_POS e) Fld.ENG_CANVAS_POS.GLAZE

/-- The programme of a cell in the glaze in force. -/
def State.prog (s : State) (e d c : Nat) : CellProg :=
  let cv := (s.eng e).canvas
  cv.prog (cv.cellRec (s.glaze e) d c)

/-- Slot `i` as a 128-bit number. -/
def CellProg.slot (p : CellProg) (i : Nat) : Nat := leAt p.slots (16 * i) 16

/-- Extension word of queue `q` in the order of R119. -/
def CellProg.ext (p : CellProg) (q : Nat) : Nat := leAt p.qext (4 * q) 4

/-- The route word of a network: 0 vector, 1 scalar, 2 control. -/
def CellProg.route (p : CellProg) (net : Nat) : Nat :=
  match net with
  | 0 => p.vroute
  | 1 => p.sroute
  | _ => p.croute

/-! ### Slot fields (R86) -/

/-- The MOP field. -/
structure MField where
  opc : Nat
  pred : Nat
  pneg : Bool
  desc : Nat
  kreg : Nat
  oreg : Nat
  clr : Bool
  deriving DecidableEq, Repr

/-- The VOP field. -/
structure VField where
  opc : Nat
  pred : Nat
  pneg : Bool
  vd : Nat
  va : Nat
  vb : Nat
  vc : Nat
  sa : Nat
  sb : Nat
  off : Nat
  q : Nat
  fmt : Nat
  rnd : Nat
  vs : Nat
  deriving DecidableEq, Repr

/-- The SOP field. -/
structure SField where
  opc : Nat
  pred : Nat
  pneg : Bool
  sd : Nat
  sa : Nat
  sb : Nat
  imm : Nat
  deriving DecidableEq, Repr

/-- Read the MOP field of a slot. -/
def mField (w : Nat) : MField :=
  ⟨bits w 119 116, bits w 115 113, bit w 112, bits w 111 108, bits w 107 103, bits w 102 98, bit w 97⟩

/-- Read the VOP field of a slot. -/
def vField (w : Nat) : VField :=
  let v := bits w 95 48
  ⟨bits v 47 42, bits v 41 39, bit v 38, bits v 37 32, bits v 31 26, bits v 25 20, bits v 19 14,
    bits v 31 27, bits v 26 22, bits v 21 14, bits v 31 30, bits v 13 11, bits v 10 8, bits v 7 4⟩

/-- Read the SOP field of a slot. -/
def sField (w : Nat) : SField :=
  ⟨bits w 47 42, bits w 41 39, bit w 38, bits w 37 33, bits w 32 28, bits w 27 23, bits w 22 0⟩

/-- IMM, sign-extended (R86). -/
def SField.simm (f : SField) : Int := toSigned 23 f.imm

/-- Whether a field is performed: not a NOP, and its predicate true (R86, R87). -/
def performed (preds opc pred : Nat) (pneg : Bool) : Bool := opc != 0 && (bit preds pred != pneg)

/-! ### Descriptors (R93) -/

/-- A matrix descriptor. -/
structure Desc where
  afmt : Fmt
  bfmt : Fmt
  amx : Bool
  bmx : Bool
  asrc : Nat
  bsrc : Nat
  ofmt : Fmt
  ornd : Nat
  oform : Nat
  odst : Nat
  vs : Nat
  aBase : Nat
  bBase : Nat
  aScale : Nat
  bScale : Nat
  oBase : Nat
  oStride : Nat
  oScale : Nat
  deriving DecidableEq, Repr

/-- Descriptor `k` of a cell's set. -/
def CellProg.desc (p : CellProg) (k : Nat) : Desc :=
  let w := fun i => leAt p.descs (32 * k + 4 * i) 4
  let w0 := w 0
  ⟨Fmt.ofCode (bits w0 2 0), Fmt.ofCode (bits w0 5 3), bit w0 6, bit w0 7, bits w0 10 8, bits w0 13 11,
    Fmt.ofCode (bits w0 16 14), bits w0 19 17, bits w0 22 20, bits w0 25 23, bits w0 29 26,
    bits (w 1) 16 0, bits (w 2) 16 0, bits (w 3) 16 0, bits (w 4) 16 0, bits (w 5) 16 0, bits (w 6) 16 0, bits (w 7) 16 0⟩

/-- Bytes of one vector-block of a format (R91). -/
def Fmt.vbBytes (f : Fmt) : Nat := 32 * f.width / 8

/-- Bytes of one output row of a descriptor (R97). -/
def Desc.rowBytes (d : Desc) : Nat :=
  match d.oform with
  | 1 => 128
  | 3 => 256
  | 4 => 512
  | _ => d.ofmt.vbBytes

/-- The summation class of a descriptor (R54, R98). -/
def Desc.cls (d : Desc) : SumClass := sumClass d.afmt d.bfmt d.amx d.bmx

/-! ### Registers of a cell -/

/-- Scalar register `n` of a register set; s0 reads 0 (R78). -/
def sreg (m : SMap Word) (n : Nat) : Word := if n = 0 then 0#32 else SMap.getD m n 0#32

/-- Write a scalar register; s0 ignores writes (R78). -/
def Cell.setS (k : Cell) (n : Nat) (v : Word) : Cell :=
  if n = 0 then k else { k with sregs := SMap.set 0#32 k.sregs n v }

/-- Write a predicate register; p0 ignores writes (R78). -/
def Cell.setP (k : Cell) (n : Nat) (b : Bool) : Cell :=
  if n = 0 then k else { k with preds := putBits k.preds n n (b2n b) }

/-- The 64 lanes of a vector register. -/
def vreg (m : SMap Word) (v : Nat) : List Word := (List.range 64).map fun l => SMap.getD m (v * 64 + l) 0#32

/-- Write the lanes of a vector register. -/
def setLanes (m : SMap Word) (k : Nat) : List Word → SMap Word
  | [] => m
  | w :: ws => setLanes (SMap.set 0#32 m k w) (k + 1) ws

/-- Write a vector register. -/
def Cell.setV (k : Cell) (v : Nat) (ws : List Word) : Cell := { k with vregs := setLanes k.vregs (v * 64) ws }

/-- Generator `g` of a cell (02 R45). -/
def Cell.gen (k : Cell) (g : Nat) : Word64 := SMap.getD k.gens g (genSeed k.seed g)

/-- Put generator `g`. -/
def Cell.setGen (k : Cell) (g : Nat) (v : Word64) : Cell :=
  { k with gens := SMap.set (genSeed k.seed g) k.gens g v }

/-- Put generators from `g` on. -/
def Cell.setGens (k : Cell) (g : Nat) : List Word64 → Cell
  | [] => k
  | v :: vs => (k.setGen g v).setGens (g + 1) vs

/-- Set flags (02 R31). -/
def Cell.raise (k : Cell) (f : Flags) : Cell := { k with flags := k.flags ||| f }

/-- The state of R90, with the canvas's seed and initial registers; the scratchpad and its banks are kept (07 R184). -/
def Cell.fresh (k : Cell) (seed : Word64) (regs : SMap Word) : Cell :=
  { seed := seed, sregs := regs, sp := k.sp, banks := k.banks, slotBad := k.slotBad, descBad := k.descBad,
    held := k.held }

/-- Whether every operation the cell has issued has completed; `sent`: its outputs hold at most what the switch has
accepted (R85, R89). -/
def Cell.quiet (k : Cell) (sent : Bool) : Bool :=
  k.mops == [] && k.emits == [] && k.vrecv == none && sent

/-! ### Stall counters (10 R267 to R269) -/

/-- Whether the stall counters of an engine hold. -/
def State.frozen (s : State) (e : Nat) : Bool := s.flag (Reg.VS_STALL_CTRL e) Fld.VS_STALL_CTRL.FREEZE

/-- Count `k` cycles in stall counter `n` of a cell, and show the class in CEL_STALL_WHY. -/
def State.stall (s : State) (e d c n k detail : Nat) : State :=
  let m := s.posOf e d
  if s.frozen e || k == 0 then s
  else
    let s1 := s.addFld (Reg.CEL_STALL e m c n) Fld.CEL_STALL.COUNT k
    if n ≤ 10 then s1.wr (Reg.CEL_STALL_WHY e m c) (n + 256 * detail) else s1

/-- The classes of R268. -/
def Stall.SWITCH : Nat := 1
def Stall.ISSUE : Nat := 3
def Stall.HOLD : Nat := 4
def Stall.SYNC : Nat := 5
def Stall.REG : Nat := 6
def Stall.UNIT : Nat := 7
def Stall.COUNTER : Nat := 8
def Stall.QUEUE : Nat := 9
def Stall.CREDIT : Nat := 10

/-! ### Cell faults (R106) -/

/-- A cell fault: CEL_FAULT and, for the first, CEL_FAULT_AT; the cell stops issuing; the collector is told. `bitIx` is
the bit of CEL_FAULT, `src` the source code. -/
def State.cellFault (s : State) (e d c bitIx src addr unit slot : Nat) : State :=
  let m := s.posOf e d
  let old := s.rdN (Reg.CEL_FAULT e m c)
  let s1 := if old = 0 then
      s.wr (Reg.CEL_FAULT_AT e m c) (addr % 2 ^ 17 * 2 ^ 14 + unit * 2 ^ 11 + s.glaze e * 2 ^ 8 + slot)
    else s
  let s2 := s1.wr (Reg.CEL_FAULT e m c) (Nat.lor old (2 ^ bitIx))
  let s3 := s2.onCell e d c fun k => { k with faulted := true }
  s3.fault src e (cellDetail d c)

/-- ADDR. -/
def State.faultAddr (s : State) (e d c addr unit slot : Nat) : State :=
  s.cellFault e d c 0 Src.CELL_ADDR addr unit slot
/-- SP_UE. -/
def State.faultSpUe (s : State) (e d c addr unit slot : Nat) : State :=
  s.cellFault e d c 1 Src.CELL_SP_UE addr unit slot
/-- NET_PAR. -/
def State.faultNetPar (s : State) (e d c slot : Nat) : State := s.cellFault e d c 2 Src.CELL_NET_PAR 0 3 slot
/-- SLOT_PAR. -/
def State.faultSlotPar (s : State) (e d c unit slot : Nat) : State :=
  s.cellFault e d c 3 Src.CELL_SLOT_PAR 0 unit slot

/-! ### Queues (05 R118, R119) -/

/-- Base depth of queue `q`: 8 for vector queues and vector data inputs, 16 for the others (R109, R118). -/
def baseDepth (q : Nat) : Nat := if q < 4 ∨ q = 12 ∨ q = 13 ∨ q = 15 ∨ q = 16 then 8 else 16

/-- Bytes of an extension entry: 64 for vector entries, 8 for the others. -/
def extBytes (q : Nat) : Nat := if baseDepth q = 8 then 64 else 8

/-- A queue of a cell. -/
def State.queue (s : State) (e d c q : Nat) : Queue := SMap.getD (s.fab e d).queues (c * 24 + q) { }

/-- Put a queue. -/
def State.setQueue (s : State) (e d c q : Nat) (x : Queue) : State :=
  s.onFab e d fun f => { f with queues := SMap.set { } f.queues (c * 24 + q) x }

/-- Entries in a queue. -/
def Queue.len (x : Queue) : Nat := x.base.length + x.extN

/-- Whether a queue has room for one more entry; a queue of a cell held in reset always has (R133). -/
def State.queueRoom (s : State) (e d c q : Nat) : Bool :=
  (s.cell e d c).held || decide ((s.queue e d c q).len < baseDepth q + bits ((s.prog e d c).ext q) 10 0)

/-- An entry arrives at a queue: into the base part while the extension is empty and the base has room, else into the
extension ring in the scratchpad (R118; log 13). A cell held in reset discards it (R133). -/
def State.queuePush (s : State) (e d c q : Nat) (x : FEntry) : State :=
  if (s.cell e d c).held then s
  else
    let k := s.queue e d c q
    if k.extN = 0 ∧ k.base.length < baseDepth q then s.setQueue e d c q { k with base := k.base ++ [x] }
    else
      let w := (s.prog e d c).ext q
      let n := max (bits w 10 0) 1
      let a := bits w 21 11 * 64 + (k.extHd + k.extN) % n * extBytes q
      let s1 := s.spWriteWords (.cell e d c) a (leBytes (extBytes q) x.data)
      s1.setQueue e d c q { k with extN := k.extN + 1 }

/-- The consumer takes the head; the oldest extension entry moves into the base part (R118). An uncorrectable error in
its scratchpad words raises SP_UE (log 13). -/
def State.queueTake (s : State) (e d c q : Nat) : State × Option FEntry :=
  let k := s.queue e d c q
  match k.base with
  | [] => (s, none)
  | x :: rest =>
    if k.extN = 0 then (s.setQueue e d c q { k with base := rest }, some x)
    else
      let w := (s.prog e d c).ext q
      let n := max (bits w 10 0) 1
      let a := bits w 21 11 * 64 + k.extHd % n * extBytes q
      let (s1, bs, bad) := s.spReadBytes (.cell e d c) a (extBytes q)
      let y : Queue := { base := rest ++ [⟨leNat bs, false⟩], extN := k.extN - 1, extHd := (k.extHd + 1) % n }
      let s2 := s1.setQueue e d c q y
      (match bad with
       | some b => s2.faultSpUe e d c b 3 (s.cell e d c).slot
       | none => s2, some x)

/-! ### Fabric buffers -/

/-- The key of a fabric buffer: points 0 to 3 edge outputs N, E, S, W; 4 and 5 cell outputs; 6 to 9 steering outputs
0X, 0Y, 1X, 1Y; 10 port input; 11 port output. -/
def bufKey (c net pt : Nat) : Nat := (c * 3 + net) * 16 + pt

/-- A fabric buffer. -/
def State.buf (s : State) (e d c net pt : Nat) : List FEntry := SMap.getD (s.fab e d).bufs (bufKey c net pt) []

/-- Put a fabric buffer. -/
def State.setBuf (s : State) (e d c net pt : Nat) (x : List FEntry) : State :=
  s.onFab e d fun f => { f with bufs := SMap.set [] f.bufs (bufKey c net pt) x }

/-- The low bit of the route-word field of each output: edge outputs, queues, steering inputs (or token inputs) and the
port output (R111). -/
def routeFields (net : Nat) : List Nat :=
  if net = 2 then [0, 4, 8, 12, 16, 20, 24, 28, 32, 40, 48, 52, 56]
  else [0, 4, 8, 12, 16, 20, 24, 28, 32, 36, 40, 44, 48]

/-- The outputs of a cell's switch that a source code feeds, as low bits of their fields (R111, R112). -/
def fedBy (route net code : Nat) : List Nat :=
  (routeFields net).filter fun lo => bits route (lo + 3) lo == code

/-- Whether a cell output (0 or 1) of a network has a credit: it is routed (R550) and its two-entry buffer has room
(R115). -/
def State.outRoom (s : State) (e d c net o : Nat) : Bool :=
  fedBy ((s.prog e d c).route net) net (5 + o) != [] && decide ((s.buf e d c net (4 + o)).length < 2)

/-- Put entries in a cell output's buffer; those beyond two wait in the unit for credits (R100, R115; log 14). -/
def State.send (s : State) (e d c net o : Nat) (xs : List FEntry) : State :=
  s.setBuf e d c net (4 + o) (s.buf e d c net (4 + o) ++ xs)

/-- Whether the switch has accepted every send of a cell (R85). -/
def State.sent (s : State) (e d c : Nat) : Bool :=
  [0, 1, 2].all fun net => [4, 5].all fun pt => decide ((s.buf e d c net pt).length ≤ 2)

/-! ### Arrival counters -/

/-- Arrival counter `n` of a cell. -/
def Cell.acntOf (k : Cell) (n : Nat) : Word := SMap.getD k.acnt n 0#32

/-- Set arrival counter `n` of a cell. -/
def Cell.setAcnt (k : Cell) (n : Nat) (v : Word) : Cell := { k with acnt := SMap.set 0#32 k.acnt n v }

/-! ### Running -/

/-- Whether an engine's cells may issue: RUNNING or STOPPING, in a run, not contained, up (06 R157, 18 R476). -/
def State.cellsRun (s : State) (e : Nat) : Bool :=
  let g := s.eng e
  (s.cvState e == Cv.RUNNING || s.cvState e == Cv.STOPPING) && g.canvas.running && !g.contained && g.up

/-- Whether a cell may issue its current slot: it has slots, has not ended, faulted or been held, and iterations are
left (R84). -/
def State.cellLive (s : State) (e d c : Nat) : Bool :=
  let k := s.cell e d c
  let p := s.prog e d c
  s.cellsRun e && decide (0 < p.n) && !k.ended && !k.faulted && !k.held
    && !(decide (0 < p.iter) && decide (p.iter ≤ k.iter))

end Sys2Proof.Machine
end

