-- ==== Sys2Proof/Machine/StudyOps.lean ====
section
/-! DEFINITION. Value studies: what one written value counts (10_value_studies R256 to R260). -/
namespace Sys2Proof.Machine

/-- One value that a tagged operation writes: the value before rounding, the format and bits stored (none for CARRY),
and whether it set OVERFLOW_CLAMP. -/
structure Studied where
  x : Val
  y : Option (Fmt × Nat)
  clamped : Bool
  deriving DecidableEq, Repr

/-- Count indexes within a stream: TOTAL, ZERO_IN, NAN, INF_IN, ZERO_OUT, SUBNORMAL, CLAMPED, INF_OUT, then BIN[b] at
8 + b (R263). -/
def binIx (m : Nat) (e : Int) : Nat := 8 + (min (max (ilog m e + 48) 0) 95).toNat

/-- The input class of a value (R257, R258). -/
def inputIx : Val → Nat
  | .nan => 2
  | .inf _ => 3
  | .fin _ m e => if m = 0 then 1 else binIx m e

/-- Whether a stored pattern is a zero. -/
def isZeroBits (f : Fmt) (w : Nat) : Bool :=
  match decodeVal f w with
  | .fin _ m _ => m == 0
  | _ => false

/-- Whether a stored pattern is a non-zero subnormal of its format. -/
def isSubnormal (f : Fmt) (w : Nat) : Bool :=
  f != .int8 && bits w (f.width - 2) f.fbits == 0 && w % 2 ^ f.fbits != 0

/-- Whether a stored pattern is an infinity. -/
def isInfBits (f : Fmt) (w : Nat) : Bool :=
  match decodeVal f w with
  | .inf _ => true
  | _ => false

/-- The counts that one value adds one to (R257). -/
def Studied.ixs (v : Studied) : List Nat :=
  let fin := match v.x with | .fin _ _ _ => true | _ => false
  let nz := match v.x with | .fin _ m _ => m != 0 | _ => false
  [0, inputIx v.x] ++
    (match v.y with
     | none => []
     | some (f, w) =>
       (if nz && isZeroBits f w then [4] else []) ++
       (if isSubnormal f w then [5] else []) ++
       (if v.clamped then [6] else []) ++
       (if fin && isInfBits f w then [7] else []))

/-- Add one to a live count, modulo 2^64 (R259). -/
def Study.bump (t : Study) (stream ix : Nat) : Study :=
  let k := stream * 128 + ix
  { t with live := SMap.set 0 t.live k ((SMap.getD t.live k 0 + 1) % 2 ^ 64) }

/-- Count the values that a tagged operation writes (R255, R256); stream 0 is untagged. -/
def State.study (s : State) (e stream : Nat) (vs : List Studied) : State :=
  if stream = 0 then s
  else s.onEng e fun g =>
    { g with study := vs.foldl (fun t v => v.ixs.foldl (fun t ix => t.bump stream ix) t) g.study }

end Sys2Proof.Machine
end

