-- ==== Sys2Proof/Machine/Issue.lean ====
section
/-! DEFINITION. When a slot issues, what it waits on, the faults found at issue, the end of a slot, and the pump that
lets queued matrix operations start, fetch and merge (04_cell R84 to R89, R96, R98, R104, R106). -/
namespace Sys2Proof.Machine

/-! ### Addresses of memory operations -/

/-- Bytes of 64 elements of a format. -/
def Fmt.vecBytes (f : Fmt) : Nat := 8 * f.width

/-- Alignment of a vector access (R102). -/
def Fmt.vecAlign : Fmt → Nat
  | .e2m1 => 32
  | .e3m2 => 16
  | _ => 64

/-- The element address of a vector memory form: s[SA] + 8 × OFF (R100). -/
def vAddr (m : SMap Word) (f : VField) : Nat := (sreg m f.sa).toNat + 8 * f.off

/-- The address of S.LD and S.ST: sa + IMM (R103). -/
def sAddr (m : SMap Word) (f : SField) : Int := ((sreg m f.sa).toNat : Int) + f.simm

/-- The number of groups of an M.MMA: ceil(K / 32) (R95). -/
def groups (k : Nat) : Nat := (k + 31) / 32

/-- The first range of `l` that is not wholly open, with its address. -/
def State.badRange (s : State) (r : SpRef) (l : List (Nat × Nat)) : Option Nat :=
  (l.find? fun p => !s.spRangeOpen r p.1 p.2).map (·.1)

/-- The scratchpad ranges of a matrix operation as it stands at issue. -/
def mRanges (p : CellProg) (f : MField) (regs : SMap Word) : List (Nat × Nat) :=
  let d := p.desc f.desc
  let o := (sreg regs f.oreg).toNat
  let aOff := o % 65536
  let bOff := o / 65536
  let nb := groups ((sreg regs f.kreg).toNat % 2 ^ 24)
  match f.opc with
  | 1 =>
    if nb = 0 then []
    else
      (if d.asrc = 0 then [(d.aBase + aOff * 32 * d.afmt.vbBytes, nb * 32 * d.afmt.vbBytes)] ++
        (if d.amx then [(d.aScale + aOff * 32, nb * 32)] else []) else []) ++
      (if d.bsrc = 0 then [(d.bBase + bOff * 32 * d.bfmt.vbBytes, nb * 32 * d.bfmt.vbBytes)] ++
        (if d.bmx then [(d.bScale + bOff * 32, nb * 32)] else []) else [])
  | 2 =>
    if d.odst = 0 then
      (List.range 32).map (fun i => (d.oBase + 8 * aOff + i * d.oStride, d.rowBytes)) ++
        (if d.oform = 2 then [(d.oScale + 32 * bOff, 32)] else [])
    else []
  | _ => []

/-- ADDR at issue: the unit and address of the first field, in the order MOP, VOP, SOP, that breaks R102, R103 or R182
(log 15). -/
def State.addrFault (s : State) (e d c : Nat) (p : CellProg) (w : Nat) (pm pv ps : Bool) : Option (Nat × Nat) :=
  let k := s.cell e d c
  let r := SpRef.cell e d c
  let mb := if pm then s.badRange r (mRanges p (mField w) k.sregs) else none
  match mb with
  | some a => some (0, a)
  | none =>
    let v := vField w
    let fmt := Fmt.ofCode v.fmt
    let a := vAddr k.sregs v
    let sc := (sreg k.sregs v.sb).toNat
    let vb :=
      if pv && decide (0x18 ≤ v.opc ∧ v.opc ≤ 0x1B) then
        if a % fmt.vecAlign ≠ 0 ∨ !s.spRangeOpen r a fmt.vecBytes then some a
        else if (v.opc = 0x19 ∨ v.opc = 0x1B) ∧ !s.spRangeOpen r sc 2 then some sc
        else none
      else none
    match vb with
    | some a => some (1, a)
    | none =>
      let f := sField w
      let x := sAddr k.sregs f
      if ps && (f.opc == 0x11 || f.opc == 0x12) then
        if x < 0 ∨ x % 4 ≠ 0 ∨ !s.spRangeOpen r x.toNat 4 then some (2, (x % 2 ^ 32).toNat) else none
      else none

/-! ### Waiting (R87; classes of 10 R268) -/

/-- The vector registers that a vector field reads or writes. -/
def vUses (v : VField) : List Nat :=
  if v.opc = 0x0B then [v.vd]
  else if 0x18 ≤ v.opc then [v.vd]
  else [v.vd, v.va] ++ (if v.opc = 0x05 ∨ v.opc = 0x0A then [v.vb, v.vc]
    else if (0x02 ≤ v.opc ∧ v.opc ≤ 0x09) then [v.vb] else [])

/-- The first condition, in the order of R268, that keeps a slot from issuing: its class and detail. -/
def State.waitReason (s : State) (e d c : Nat) (p : CellProg) (w : Nat) (pm pv ps : Bool) : Option (Nat × Nat) :=
  let k := s.cell e d c
  let m := mField w
  let v := vField w
  let f := sField w
  let ds := p.desc m.desc
  let empty := fun q => (s.queue e d c q).base == []
  let usesPend := match k.vrecv with
    | some r => (pv && (vUses v).contains r.vd) || (ps && f.opc == 0x1F && bits f.imm 11 6 == r.vd)
    | none => false
  let busy := k.mops.any fun o => o.kind != .clr
  let kLen := (sreg k.sregs m.kreg).toNat % 2 ^ 24
  let needA := (m.opc == 1 && kLen != 0) || m.opc == 3
  if bit w 127 && !k.quiet (s.sent e d c) then some (Stall.SYNC, 0)
  else if bit w 126 && k.emits != [] then some (Stall.SYNC, 0)
  else if usesPend then some (Stall.REG, 0)
  else if pm && (m.opc == 1 || m.opc == 3) && busy then some (Stall.UNIT, 0)
  else if pm && m.opc == 2 && k.mops != [] then some (Stall.UNIT, 0)
  else if pm && m.opc == 2 && k.emits != [] then some (Stall.UNIT, 1)
  else if pv && (k.vrecv.isSome || !s.sent e d c) then some (Stall.UNIT, 2)
  else if ps && f.opc == 0x18 && decide ((k.acntOf (f.imm % 16)).toNat < (sreg k.sregs f.sa).toNat) then
    some (Stall.COUNTER, f.imm % 16)
  else if pm && needA && ds.asrc != 0 && empty (ds.asrc - 1) then some (Stall.QUEUE, ds.asrc - 1)
  else if pm && m.opc == 1 && kLen != 0 && ds.bsrc != 0 && empty (ds.bsrc - 1) then some (Stall.QUEUE, ds.bsrc - 1)
  else if pv && v.opc == 0x1C && empty v.q then some (Stall.QUEUE, v.q)
  else if ps && f.opc == 0x13 && empty (4 + f.imm % 4) then some (Stall.QUEUE, 4 + f.imm % 4)
  else if ps && f.opc == 0x15 && empty (8 + f.imm % 4) then some (Stall.QUEUE, 8 + f.imm % 4)
  else if pm && m.opc == 2 && ds.odst != 0 && !s.outRoom e d c 0 (ds.odst - 1) then some (Stall.CREDIT, ds.odst - 1)
  else if pv && v.opc == 0x1D && !s.outRoom e d c 0 (v.q % 2) then some (Stall.CREDIT, v.q % 2)
  else if ps && f.opc == 0x14 && !s.outRoom e d c 1 (f.imm % 2) then some (Stall.CREDIT, 2 + f.imm % 2)
  else if ps && f.opc == 0x16 && !s.outRoom e d c 2 (f.imm % 2) then some (Stall.CREDIT, 4 + f.imm % 2)
  else none

/-! ### Issue and the end of a slot -/

/-- Which of the three fields of a slot are performed under a predicate set. -/
def performs (preds w : Nat) : Bool × Bool × Bool :=
  let m := mField w
  let v := vField w
  let f := sField w
  (performed preds m.opc m.pred m.pneg, performed preds v.opc v.pred v.pneg, performed preds f.opc f.pred f.pneg)

/-- The slot a cell stands at. -/
def State.curSlot (s : State) (e d c : Nat) : Nat := (s.prog e d c).slot (s.cell e d c).slot

/-- Try to issue the current slot of a live cell: it waits, faults, or issues. -/
def State.tryIssue (s : State) (e d c : Nat) : State :=
  let k := s.cell e d c
  let p := s.prog e d c
  let w := p.slot k.slot
  let (pm, pv, ps) := performs k.preds w
  match s.waitReason e d c p w pm pv ps with
  | some (cls, det) => s.stall e d c cls 1 det
  | none =>
    let g := s.glaze e
    if k.slotBad.contains (g * 256 + k.slot) then s.faultSlotPar e d c 4 k.slot
    else if pm && k.descBad.contains (g * 16 + (mField w).desc) then s.faultSlotPar e d c 0 k.slot
    else match s.addrFault e d c p w pm pv ps with
      | some (unit, a) => s.faultAddr e d c a unit k.slot
      | none =>
        let snap : Snap := ⟨k.sregs, k.preds, k.vregs, k.flags, k.sp⟩
        let s1 := s.stall e d c Stall.ISSUE 1 0
        s1.onCell e d c fun k => { k with issue := some { snap := snap, todoM := pm, todoV := pv, todoS := ps } }

/-- Move past a slot all of whose fields are done: the HOLD and branch cycles run together (R104); fall through, branch,
or end the glaze (R84). -/
def State.advance (s : State) (e d c : Nat) (i : Issue) : State :=
  let k := s.cell e d c
  let p := s.prog e d c
  let w := p.slot k.slot
  let hold := bits w 123 120
  let idle := if i.target.isSome then max hold 2 else hold
  let s1 := s.stall e d c Stall.HOLD idle 0
  let k0 := { s1.cell e d c with issue := none }
  let k1 :=
    if i.gend then { k0 with ended := true }
    else match i.target with
      | some t => { k0 with slot := t }
      | none => if k.slot + 1 < p.n then { k0 with slot := k.slot + 1 } else { k0 with slot := 0, iter := k.iter + 1 }
  s1.setCell e d c k1

/-- Pass slots that perform nothing, at most `fuel` of them. -/
def State.skipIdle (s : State) (e d c : Nat) : Nat → State
  | 0 => s
  | n + 1 =>
    let k := s.cell e d c
    if s.cellLive e d c && k.issue == none then
      let w := s.curSlot e d c
      match performs k.preds w with
      | (false, false, false) =>
        let s1 := s.tryIssue e d c
        match (s1.cell e d c).issue with
        | some i => (s1.advance e d c i).skipIdle e d c n
        | none => s1
      | _ => s
    else s

/-- The three fields of a slot. -/
inductive SlotUnit where
  | m | v | s
  deriving DecidableEq, Repr

/-- Whether a field of an issued slot is still to be performed. -/
def Issue.todo (i : Issue) : SlotUnit → Bool
  | .m => i.todoM
  | .v => i.todoV
  | .s => i.todoS

/-- The slot with a field performed. -/
def Issue.done (i : Issue) : SlotUnit → Issue
  | .m => { i with todoM := false }
  | .v => { i with todoV := false }
  | .s => { i with todoS := false }

/-- The opcode of a unit's field. -/
def unitOpc (w : Nat) : SlotUnit → Nat
  | .m => (mField w).opc
  | .v => (vField w).opc
  | .s => (sField w).opc

/-- Whether a field must let the slot's S.LD or S.ST go first: a vector memory form (R88; log 15). -/
def behindScalar (i : Issue) (w : Nat) (u : SlotUnit) : Bool :=
  let so := (sField w).opc
  let vo := (vField w).opc
  u == .v && i.todoS && (so == 0x11 || so == 0x12) && decide (0x18 ≤ vo ∧ vo ≤ 0x1B)

/-- The field of unit `u` of the slot issued as `i` is done: the slot ends when no field is left, and slots that perform nothing pass
(R84, R87). -/
def State.fieldDone (s : State) (e d c : Nat) (u : SlotUnit) (i : Issue) : State :=
  let j := ((s.cell e d c).issue.getD i).done u
  let s1 := s.onCell e d c fun k => { k with issue := some j }
  if j.todoM || j.todoV || j.todoS then s1 else (s1.advance e d c j).skipIdle e d c 256

/-- A cell command performs the field of unit `u`, of opcode `opc`, of the slot the cell stands at: the slot issues if
it has not (or waits, or faults), the field is performed on the values of the issue cycle, and the slot ends when no
field is left. Where the cell does not stand at such a field, nothing happens (log 11). -/
def State.field (s : State) (e d c : Nat) (u : SlotUnit) (opc : Nat) (act : State → Snap → Nat → State) : Answer :=
  let s0 := s.skipIdle e d c 256
  let w := s0.curSlot e d c
  let k := s0.cell e d c
  let s1 :=
    match k.issue with
    | some _ => s0
    | none => if s0.cellLive e d c && unitOpc w u == opc && opc != 0 then s0.tryIssue e d c else s0
  match (s1.cell e d c).issue with
  | none => .next s1
  | some i =>
    if i.todo u && unitOpc w u == opc && !behindScalar i w u then .next ((act s1 i.snap w).fieldDone e d c u i)
    else .next s1

/-! ### The matrix pump -/

/-- Bytes of a queue-fed operand's block-tile, its scale entry included (R92). -/
def tileBytes (f : Fmt) (mx : Bool) : Nat := (if mx then 64 else 0) + 32 * f.vbBytes

/-- Take one vector entry of queue `q`; the flag tells a parity error (R106). -/
def State.takeVec (s : State) (e d c q : Nat) : State × Option (List Byte) × Bool :=
  match s.queueTake e d c q with
  | (s1, none) => (s1, none, false)
  | (s1, some x) => (s1, some (leBytes 64 x.data), x.parBad)

/-- Change the matrix operation at the head. -/
def Cell.onHead (k : Cell) (f : MOp → MOp) : Cell :=
  match k.mops with
  | [] => k
  | o :: t => { k with mops := f o :: t }

/-- Drop the matrix operation at the head. -/
def Cell.popMop (k : Cell) : Cell := { k with mops := k.mops.drop 1 }

/-- The start of a matrix operation whose turn has come: clear, then fix or meet the summation class (R95, R98). -/
def Cell.startMop (k : Cell) (o : MOp) (cls : SumClass) : Cell :=
  let k1 := if o.clr || o.kind == .clr then { k with accs := [], accClass := none } else k
  if o.kind == .clr then k1
  else match k1.accClass with
    | none => { k1 with accClass := some cls }
    | some c =>
      if c = cls then k1
      else
        let bad : Acc := { special := .nan }
        { k1 with accs := (List.range 1024).map (fun i => (i, bad)), flags := k1.flags ||| Flags.invalid }

/-- Merge four images from one entry, from accumulator `i` on (R70, R97). -/
def Cell.mergeEntry (k : Cell) (cls : SumClass) (i data : Nat) : Cell :=
  (List.range 4).foldl (fun k n =>
    let (a, f) := (SMap.getD k.accs (i + n) { }).merge cls ((data >>> (128 * n)) % 2 ^ 128)
    { k with accs := SMap.set { } k.accs (i + n) a, flags := k.flags ||| f }) k

/-- Let the matrix operations of a cell go on as far as they can without a group add: start, take queue entries into
the operand buffers, merge images, and leave when done (R92, R96). -/
def State.pump (s : State) (e d c : Nat) : Nat → State
  | 0 => s
  | n + 1 =>
    let k := s.cell e d c
    match k.mops with
    | [] => s
    | o :: _ =>
      let ds := (s.prog e d c).desc o.desc
      if !o.started then
        if k.emits != [] then s
        else
          let k1 := (k.startMop o ds.cls).onHead fun o => { o with started := true }
          let s1 := s.setCell e d c
            (if o.kind == .clr || (o.kind == .mma && o.k == 0) then k1.popMop else k1)
          s1.pump e d c n
      else match o.kind with
        | .clr => s
        | .merge =>
          if 1024 ≤ o.next then (s.onCell e d c Cell.popMop).pump e d c n
          else match s.takeVec e d c (ds.asrc - 1) with
            | (s1, none, _) => s1
            | (s1, some bs, false) =>
              (s1.onCell e d c fun k => (k.mergeEntry ds.cls o.next (leNat bs)).onHead fun o =>
                { o with next := o.next + 4 }).pump e d c n
            | (s1, some _, true) => (s1.onCell e d c Cell.popMop).faultNetPar e d c o.slot
        | .mma =>
          if ds.asrc ≠ 0 ∧ o.aBuf.length < tileBytes ds.afmt ds.amx then
            match s.takeVec e d c (ds.asrc - 1) with
            | (s1, none, _) => s1
            | (s1, some bs, false) =>
              (s1.onCell e d c fun k => k.onHead fun o => { o with aBuf := o.aBuf ++ bs }).pump e d c n
            | (s1, some _, true) => (s1.onCell e d c Cell.popMop).faultNetPar e d c o.slot
          else if ds.bsrc ≠ 0 ∧ o.bBuf.length < tileBytes ds.bfmt ds.bmx then
            match s.takeVec e d c (ds.bsrc - 1) with
            | (s1, none, _) => s1
            | (s1, some bs, false) =>
              (s1.onCell e d c fun k => k.onHead fun o => { o with bBuf := o.bBuf ++ bs }).pump e d c n
            | (s1, some _, true) => (s1.onCell e d c Cell.popMop).faultNetPar e d c o.slot
          else s

/-- A pending V.RECV takes what has arrived (R100). -/
def State.feedRecv (s : State) (e d c : Nat) : Nat → State
  | 0 => s
  | n + 1 =>
    match (s.cell e d c).vrecv with
    | none => s
    | some r =>
      match s.queueTake e d c r.q with
      | (s1, none) => s1
      | (s1, some x) =>
        if x.parBad then (s1.onCell e d c fun k => { k with vrecv := none }).faultNetPar e d c r.slot
        else
          let ws := (chunks 4 16 (leBytes 64 x.data)).map fun b => BitVec.ofNat 32 (leNat b)
          let got := r.part ++ ws
          let s2 := s1.onCell e d c fun k =>
            if 64 ≤ got.length then { k.setV r.vd got with vrecv := none } else { k with vrecv := some { r with part := got } }
          s2.feedRecv e d c n

/-- Give a cell's waiting operations what its queues hold. -/
def State.feed (s : State) (e d c : Nat) : State := (s.feedRecv e d c 4).pump e d c 4096

end Sys2Proof.Machine
end

