-- ==== Sys2Proof/Machine/FabOps.lean ====
section
/-! DEFINITION. How entries move: what a source feeds, room at each destination, crossings and hub channels, blocked
transfers (05_switch_fabric R111 to R118, R126 to R128, R134). -/
namespace Sys2Proof.Machine

/-- The port of an attachment cell (R126): 0 UP, 1 DOWN, 2 HA, 3 HB, with its channel. -/
def attach (c : Nat) : Option (Nat × Nat) :=
  let col := c % 32
  let row := c / 32
  if row = 0 ∧ 1 ≤ col ∧ col ≤ 30 then some (0, col)
  else if row = 26 ∧ 1 ≤ col ∧ col ≤ 30 then some (1, col)
  else if col = 0 ∧ 1 ≤ row ∧ row ≤ 25 then some (2, row)
  else if col = 31 ∧ 1 ≤ row ∧ row ≤ 25 then some (3, row)
  else none

/-- Whether logical die `d` has a port (R128). -/
def portExists (d port : Nat) : Bool := !(d == 0 && port == 0) && !(d == 3 && port == 1)

/-- The key of a hub channel end: port HA or HB of die `d`, channel `k`, network. -/
def hubKey (d port k net : Nat) : Nat := ((d * 2 + (port - 2)) * 32 + k) * 4 + net

/-- The source buffer that a source code of a cell's route word names: the cell and point whose buffer holds it
(R112, R113): an edge input is the neighbour's edge output towards this cell. -/
def sourceBuf (c code : Nat) : Option (Nat × Nat) :=
  match code with
  | 1 => if c < 32 then none else some (c - 32, 2)
  | 2 => if c % 32 = 31 then none else some (c + 1, 3)
  | 3 => if c / 32 = 26 then none else some (c + 32, 0)
  | 4 => if c % 32 = 0 then none else some (c - 1, 1)
  | 5 => some (c, 4)
  | 6 => some (c, 5)
  | 7 => some (c, 6)
  | 8 => some (c, 7)
  | 9 => some (c, 8)
  | 10 => some (c, 9)
  | 11 => some (c, 10)
  | _ => none

/-- The cell at which the head of a buffer next arrives, and the source code it has there: an edge output leads to the
neighbour, every other point stays in its cell (R112, R113). -/
def nextCell (c pt : Nat) : Option (Nat × Nat) :=
  match pt with
  | 0 => if c < 32 then none else some (c - 32, 3)
  | 1 => if c % 32 = 31 then none else some (c + 1, 4)
  | 2 => if c / 32 = 26 then none else some (c + 32, 1)
  | 3 => if c % 32 = 0 then none else some (c - 1, 2)
  | 4 => some (c, 5)
  | 5 => some (c, 6)
  | 6 => some (c, 7)
  | 7 => some (c, 8)
  | 8 => some (c, 9)
  | 9 => some (c, 10)
  | 10 => some (c, 11)
  | _ => none

/-- Where an output field of a route word leads: an edge output, a queue (steering inputs and tokens included) or the
port output (R111). -/
inductive Dest where
  | edge (pt : Nat)
  | queue (q : Nat)
  | port
  deriving DecidableEq, Repr

/-- The destination of a route-word field by its low bit (R111, R119). -/
def destOf (net lo : Nat) : Dest :=
  if lo < 16 then .edge (lo / 4)
  else if lo < 32 then .queue (net * 4 + (lo - 16) / 4)
  else if net = 2 then
    (match lo with
     | 32 => .queue 14
     | 40 => .queue 17
     | 48 => .queue 20
     | 52 => .queue 23
     | _ => .port)
  else if lo = 48 then .port
  else
    -- steering inputs: unit 0 A, B, unit 1 A, B
    let i := (lo - 32) / 4
    .queue (12 + 6 * net + 3 * (i / 2) + i % 2)

/-- Whether a destination in a cell has room for one entry (R115, R118). -/
def State.destRoom (s : State) (e d c net : Nat) : Dest → Bool
  | .edge pt => decide ((s.buf e d c net pt).length < 2)
  | .queue q => s.queueRoom e d c q
  | .port => decide ((s.buf e d c net 11).length < 2)

/-- Put an entry in a destination of a cell; what arrives in an input queue feeds the cell's waiting operations. -/
def State.destPut (s : State) (e d c net : Nat) (x : FEntry) : Dest → State
  | .edge pt => s.setBuf e d c net pt (s.buf e d c net pt ++ [x])
  | .queue q =>
    let s1 := s.queuePush e d c q x
    if q < 12 then s1.feed e d c else s1
  | .port => s.setBuf e d c net 11 (s.buf e d c net 11 ++ [x])

/-- The destinations that the head of a buffer moves to, in their cell; none when no output names it (R550). -/
def State.branches (s : State) (e d c net pt : Nat) : Option (Nat × List Dest) :=
  match nextCell c pt with
  | none => none
  | some (c', code) => some (c', (fedBy ((s.prog e d c').route net) net code).map (destOf net))

/-- Whether the head of a buffer other than a port output can move: some branch, and room in every one (R115, R116,
R550). -/
def State.canHop (s : State) (e d c net pt : Nat) : Bool :=
  match s.branches e d c net pt with
  | none => false
  | some (c', ds) => ds != [] && ds.all fun x => s.destRoom e d c' net x

/-- The far end of a crossing: the port input of the neighbouring die, or the hub channel (R126, R128). -/
def crossing (d c : Nat) : Option (Nat × Nat ⊕ Nat × Nat) :=
  match attach c with
  | some (0, k) => if d = 0 then none else some (.inl (d - 1, 26 * 32 + k))
  | some (1, k) => if d = 3 then none else some (.inl (d + 1, k))
  | some (p, k) => some (.inr (p, k))
  | none => none

/-- Whether the head of a port output can cross: the far port input is routed and has room (R550), or the hub end has
room. -/
def State.canCross (s : State) (e d c net : Nat) : Bool :=
  match crossing d c with
  | some (.inl (d', c')) =>
    fedBy ((s.prog e d' c').route net) net 11 != [] && decide ((s.buf e d' c' net 10).length < 2)
  | some (.inr (p, k)) => decide ((SMap.getD (s.eng e).hubIn (hubKey d p k net) []).length < 2)
  | none => false

/-! ### Steering (R121, R122) -/

/-- The network of a steering unit: 0 and 1 vector, 2 and 3 scalar; and its number within the switch. -/
def steerNet (u : Nat) : Nat := u / 2

/-- The mode of a steering unit: 0 off, 1 SELECT, 2 MERGE, 3 SPLIT (R111). -/
def State.steerMode (s : State) (e d c u : Nat) : Nat :=
  let r := (s.prog e d c).route (steerNet u)
  if u % 2 = 0 then bits r 53 52 else bits r 55 54

/-- The queue of input A of a steering unit; B and the token follow it (R119). -/
def steerA (u : Nat) : Nat := 12 + 3 * u

/-- What a firing would take and where it would put it: take A, take B, the outputs (0 X, 1 Y) and from which input;
none when the unit must wait (R122). -/
def State.steerPlan (s : State) (e d c u : Nat) : Option (Bool × Bool × List Nat × Nat) :=
  let net := steerNet u
  let a := (s.queue e d c (steerA u)).base
  let b := (s.queue e d c (steerA u + 1)).base
  let room := fun o => decide ((s.buf e d c net (6 + 2 * (u % 2) + o)).length < 2)
    && fedBy ((s.prog e d c).route net) net (7 + 2 * (u % 2) + o) != []
  match (s.queue e d c (steerA u + 2)).base with
  | [] => none
  | t :: _ =>
    let sel := t.data % 4
    match s.steerMode e d c u with
    | 1 => if a != [] && b != [] && room 0 then some (true, true, [0], sel % 2) else none
    | 2 =>
      if sel % 2 = 0 then (if a != [] && room 0 then some (true, false, [0], 0) else none)
      else (if b != [] && room 0 then some (false, true, [0], 1) else none)
    | 3 =>
      let outs := (if sel = 1 ∨ sel = 3 then [0] else []) ++ (if sel = 2 ∨ sel = 3 then [1] else [])
      if a != [] && outs.all room then some (true, false, outs, 0) else none
    | _ => none

/-- Put the chosen entry on the outputs of a steering unit. -/
def State.steerPut (s : State) (e d c u : Nat) (x : FEntry) (outs : List Nat) : State :=
  outs.foldl (fun s o =>
    let pt := 6 + 2 * (u % 2) + o
    s.setBuf e d c (steerNet u) pt (s.buf e d c (steerNet u) pt ++ [x])) s

/-! ### Blocked transfers (R134) -/

/-- Whether a steering unit of a cell holds a token or data without its partner. -/
def State.steerBlocked (s : State) (e d c u : Nat) : Bool :=
  let has := [0, 1, 2].any fun i => (s.queue e d c (steerA u + i)).base != []
  s.steerMode e d c u != 0 && has && (s.steerPlan e d c u).isNone

/-- The points of a cell that hold a blocked transfer, as FAB_FAULT_AT names them (R136): network and point. -/
def State.blockedAt (s : State) (e d c : Nat) : List (Nat × Nat) :=
  [0, 1, 2].flatMap fun net =>
    ((List.range 11).filterMap fun pt =>
      if s.buf e d c net pt != [] && !s.canHop e d c net pt then
        (match pt with
         | 4 => some (net, 13)
         | 5 => some (net, 14)
         | 6 | 7 => some (net, 8)
         | 8 | 9 => some (net, 10)
         | 10 => some (net, 12)
         | p => some (net, p))
      else none) ++
    (if s.buf e d c net 11 != [] && !s.canCross e d c net then [(net, 12)] else []) ++
    (if net = 2 then []
     else [0, 1].filterMap fun i =>
       let u := net * 2 + i
       if s.steerBlocked e d c u then some (net, 8 + 2 * i) else none)

/-- The first blocked transfer of a die, scanning logical cells in increasing index (R135). -/
def State.firstBlocked (s : State) (e d : Nat) : Option (Nat × Nat × Nat) :=
  let f := s.fab e d
  let cells := (f.bufs.map fun p => p.1 / 48) ++ (f.queues.map fun p => p.1 / 24)
  let found := cells.filterMap fun c =>
    match s.blockedAt e d c with
    | [] => none
    | (n, p) :: _ => some (c, n, p)
  found.foldl (fun acc x =>
    match acc with
    | none => some x
    | some y => if x.1 < y.1 then some x else some y) none

/-- Record a fabric fault: FAB_FAULT, and FAB_FAULT_AT for the first (R135, R136). `kind`: 1 quiet, 2 age, 3 QCHANGE. -/
def State.fabFault (s : State) (e d kind c net pt : Nat) : State :=
  let m := s.posOf e d
  let old := s.rdN (Reg.FAB_FAULT e m)
  let s1 := if old = 0 then
      s.wr (Reg.FAB_FAULT_AT e m) (kind * 2 ^ 19 + s.glaze e * 2 ^ 16 + pt * 2 ^ 12 + net * 2 ^ 10 + c)
    else s
  let s2 := s1.wr (Reg.FAB_FAULT e m) (Nat.lor old (2 ^ (kind - 1)))
  s2.fault (if kind = 3 then Src.FAB_QCHANGE else Src.FAB_STALL) e 0

end Sys2Proof.Machine
end

