-- ==== Sys2Proof/Machine/Guard.lean ====
section
/-! DEFINITION. Who may write which register (13_host_ports R333, R334; 20_easel R522; 18 R488), the record of failed
posted writes (13 R336), the capture FIFO of the change record (20 R526, R527), and engine events (13 R340 to R342). -/
namespace Sys2Proof.Machine

/-- The ORIGIN and ORIGIN_ID of a requester (R528). -/
def reqOrigin : Req → Nat × Nat
  | .host p f => (0, p.val * 256 + f.val)
  | .easel => (1, 0)
  | .service => (3, 0)

/-! ### Failed posted writes (R336) -/

/-- Record a failed posted write of function `fn` of port `p` in HP_WERR, and report it. -/
def State.werr (s : State) (p fn space code addr : Nat) : State :=
  let r1 := Reg.HP_WERR p 1
  let s1 :=
    if s.flag r1 Fld.HP_WERR.VALID then s.satFld r1 Fld.HP_WERR.FAILS 1
    else
      let w := 2 ^ 31 + space * 2 ^ 28 + code * 2 ^ 24 + fn * 2 ^ 20 + 1 * 2 ^ 8 + bits addr 47 44
      (s.wr (Reg.HP_WERR p 0) (bits addr 43 12)).wr r1 w
  s1.fault Src.HP_POSTED_FAIL panelScope p

/-! ### Ownership (R333) -/

/-- Whether a requester owns a partition: the function its record names, and the physical function of that port. Easel
may act on every engine (20 R522). -/
def PartRec.ownedBy (p : PartRec) : Req → Bool
  | .host q f => p.port == q.val && (f.val == 0 || p.fn == f.val)
  | .easel => true
  | .service => false

/-- Whether a requester owns the partition of engine `e`. -/
def State.owns (s : State) (r : Req) (e : Nat) : Bool :=
  match r, s.partOf e with
  | .easel, _ => true
  | r, some p => p.ownedBy r
  | _, none => false

/-- The physical function that holds the panel-owner role (20 R521). -/
def State.ownerPF (s : State) (r : Req) : Bool :=
  match r with
  | .host p f => f.val == 0 && s.flag Reg.SEC_ROLE Fld.SEC_ROLE.OWNER_VALID
      && s.fld Reg.SEC_ROLE Fld.SEC_ROLE.OWNER_PORT == p.val
  | _ => false

/-- A physical function. -/
def reqPF : Req → Bool
  | .host _ f => f.val == 0
  | _ => false

/-- The engine of an engine-block address (R10). -/
def engineOf (a : Nat) : Nat := (a - 0x01000000) / 0x400000

/-- Whether an address lies in an engine block. -/
def inEngine (a : Nat) : Bool := decide (0x01000000 ≤ a ∧ a < 0x0D000000)

/-- The block that a virtual function's view shows of its selected engine: hub control, PT and VS (R330). -/
def vfViewed (a : Nat) : Bool :=
  let o := (a - 0x01000000) % 0x400000
  decide (o < 0x40000) || decide (0x80000 ≤ o ∧ o < 0x100000)

/-- The engine that virtual function `f` of port `p` has selected. -/
def State.vfEngine (s : State) (p f : Nat) : Nat := s.fld (Reg.HP_VF_ESEL p f) Fld.HP_VF_ESEL.ENGINE

/-- The port and function set of an HP address, if it lies in one. -/
def hpSet (a : Nat) : Option Nat :=
  let o := (a - 0x500000) % 0x40000
  if 0x1000 ≤ o ∧ o < 0x1400 then some ((o - 0x1000) / 0x40) else none

/-- The mailbox whose register or buffer an address is (20 R516, R532). -/
def mailboxOf (a : Nat) : Option Nat :=
  if 0x101000 ≤ a ∧ a < 0x101200 then some ((a - 0x101000) / 0x100)
  else if 0x110000 ≤ a ∧ a < 0x130000 then some ((a - 0x110000) / 0x10000)
  else none

/-- Whether a requester may write a register (R333, R349; 16 R439; 18 R488; 20 R522; 12 R324). -/
def State.mayWrite (s : State) (r : Req) (a : Nat) : Bool :=
  match r with
  | .easel => true
  | .service =>
    decide (a / 0x100000 ≤ 9 ∧ a / 0x100000 ≠ 6) && (mailboxOf a).isNone
  | .host p f =>
    if inEngine a then
      let e := engineOf a
      s.owns r e && (f.val == 0 || (s.vfEngine p.val f.val == e && vfViewed a))
    else match a / 0x100000 with
      | 5 => decide ((a - 0x500000) / 0x40000 = p.val) && (f.val == 0 || hpSet a == some f.val)
      | 6 => decide ((a - 0x600000) / 0x1000 = p.val) && f.val == 0
      | 3 => f.val == 0 &&
          (!(decide (0x301000 ≤ a ∧ a < 0x301C00) && a % 0x40 == 0) || s.owns r ((a - 0x301000) / 0x40))
      | 4 => f.val == 0 &&
          (!(decide (0x401000 ≤ a ∧ a < 0x401C00) && a % 0x40 == 0x28) || s.owns r ((a - 0x401000) / 0x40))
      | 7 | 8 => f.val == 0
      | 0 => s.ownerPF r || (f.val == 0 && a == Reg.PNL_RESET)
      | 1 => match mailboxOf a with
        | some q => f.val == 0 && q == p.val
        | none => s.ownerPF r
      | 2 => s.ownerPF r ||
          (f.val == 0 && decide (0x200200 ≤ a ∧ a < 0x2002C0) && s.owns r ((a - 0x200200) / 4))
      | 9 => s.ownerPF r
      | _ => f.val == 0

/-- Whether a requester may read a register (R333; 20 R522): a physical function reads every block. -/
def State.mayRead (s : State) (r : Req) (a : Nat) : Bool :=
  match r with
  | .easel => true
  | .service => !inEngine a && decide (a / 0x100000 ≠ 6)
  | .host p f =>
    f.val == 0 || (inEngine a && s.vfEngine p.val f.val == engineOf a && vfViewed a)
      || (decide (a / 0x100000 = 5 ∧ (a - 0x500000) / 0x40000 = p.val) && hpSet a == some f.val)

/-- The byte offset of a register within BAR0/1 of the function that writes it (R330, R361). -/
def barOffset (r : Req) (a : Nat) : Nat :=
  match r with
  | .host _ f =>
    if f.val = 0 then a
    else if inEngine a then
      let o := (a - 0x01000000) % 0x400000
      if o < 0x40000 then 0x40000 + o else o
    else (a - 0x500000) % 0x40
  | _ => a

/-- Whether a register is protected (20 R526): a writable field in a block of the list, or one of the named registers. -/
def protectedReg (a : Nat) : Bool :=
  let writable := (regFields a).any fun f => f.acc != .ro
  if inEngine a then
    let o := (a - 0x01000000) % 0x400000
    o == 0x804 || o == 0x820 || o == 0x824 || o == 0x82C || o == 0x40
  else match a / 0x100000 with
    | 0 | 2 | 3 | 4 | 7 | 8 | 9 => writable
    | 1 => writable && (mailboxOf a).isNone
    | 5 => let o := (a - 0x500000) % 0x40000
      decide (0x100 ≤ o ∧ o < 0x140) || decide (0x204 ≤ o ∧ o < 0x240)
    | 6 => decide (a % 0x10 = 0 ∧ (a - 0x600000) % 0x1000 < 0x100)
    | _ => false

/-- Whether an engine's block answers: its hub is powered and out of reset (00 R13). -/
def State.engineUp (s : State) (e : Nat) : Bool := (s.eng e).up

/-- Refuse a write (R334): HP_WERR with code ACCESS for a host; Easel and the service role have no port. A mailbox
write of another requester is only discarded (20 R516). -/
def State.refuseWrite (s : State) (r : Req) (a : Nat) : State :=
  match r with
  | .host p f => if (mailboxOf a).isSome then s else s.werr p.val f.val 1 0xC (barOffset r a)
  | _ => s

/-- Whether a requester's writes arrive: those of a host do while its port is up (R327, R359). -/
def State.reqLive (s : State) : Req → Bool
  | .host p _ => s.portUp p
  | _ => true

/-- The gate of a write that is entered in the change record as value `v` where `prot` holds. -/
def State.gateAs (s : State) (r : Req) (a v : Nat) (prot : Bool) : State × Bool :=
  if !s.reqLive r then (s, false)
  else if !s.mayWrite r a then (s.refuseWrite r a, false)
  else if prot && decide (4032 ≤ s.capture.length) then
    let s1 := ({ s with gapWrites := s.gapWrites + 1 }).satFld Reg.LOG_STAT Fld.LOG_STAT.DENIED 1
    (s1.refuseWrite r a, false)
  else
    let s1 := if prot then s.capPush ⟨s.ticks, 1, (reqOrigin r).1, (reqOrigin r).2, 0, a, v, []⟩ else s
    if inEngine a && (!s1.engineUp (engineOf a) || (s1.eng (engineOf a)).contained) then (s1, false)
    else (s1, true)

/-- The gate that every control-space write of value `v` to register `a` passes: the role, the capture FIFO, and R13.
Answers the state after, and whether the write is carried out. -/
def State.gate (s : State) (r : Req) (a v : Nat) : State × Bool := s.gateAs r a v (protectedReg a)

/-- A write that passes the gate acts by `f`. -/
def State.gated (s : State) (r : Req) (a v : Nat) (f : State → State) : State :=
  let (s1, ok) := s.gate r a v
  if ok then f s1 else s1

/-- The plain effect of a write: RW fields take their value and a 1 clears an RW1C bit (00 R5, R7). -/
def State.plainWrite (s : State) (a v : Nat) : State := s.wr a (writeFields (regFields a) (s.rdN a) v)

/-! ### Towards a host (R359) -/

/-- Write to host memory through a port; a port that is not up sends nothing (R359). -/
def State.hostWrite (s : State) (p f addr : Nat) (bs : List Byte) : State :=
  if s.portUp p then s.emit (.hostWrite p f addr bs) else s

end Sys2Proof.Machine
end

