-- ==== Sys2Proof/Machine/Fabric.lean ====
section
/-! DEFINITION. The fabric's commands: a hop, a firing, the stall watchdog and its acknowledgement (05_switch_fabric
R115 to R123, R134, R135, R550). -/
namespace Sys2Proof.Machine

/-- ROUTE_HOP (R115 to R118, R550): the head of a buffer moves to every branch at once when all have room; the head of
a port output crosses to the next die or to the hub. -/
def execRouteHop (e : EngIx) (d : DieIx) (c : CellIx) (net : NetIx) (pt : Fin 12) (s : State) : Answer :=
  match s.buf e d c net pt with
  | [] => .next s
  | x :: rest =>
    if pt.val = 11 then
      if !s.canCross e d c net then .next s
      else
        let s1 := s.setBuf e d c net 11 rest
        match crossing d c with
        | some (.inl (d', c')) => .next (s1.setBuf e d' c' net 10 (s1.buf e d' c' net 10 ++ [x]))
        | some (.inr (p, k)) => .next (s1.onEng e fun g =>
            let key := hubKey d p k net
            { g with hubIn := SMap.set [] g.hubIn key (SMap.getD g.hubIn key [] ++ [x]) })
        | none => .next s
    else if !s.canHop e d c net pt then .next s
    else
      match s.branches e d c net pt with
      | none => .next s
      | some (c', ds) =>
        let s1 := s.setBuf e d c net pt rest
        .next (ds.foldl (fun s x' => s.destPut e d c' net x x') s1)

/-- STEER_FIRE (R121, R122): one firing under the token at the head; the token leaves after its last firing. -/
def execSteerFire (e : EngIx) (d : DieIx) (c : CellIx) (unit : Fin 4) (s : State) : Answer :=
  let u := unit.val
  match s.steerPlan e d c u with
  | none => .next s
  | some (takeA, takeB, outs, from') =>
    let qa := steerA u
    let (s1, a) := if takeA then s.queueTake e d c qa else (s, none)
    let (s2, b) := if takeB then s1.queueTake e d c (qa + 1) else (s1, none)
    let x := if from' = 0 then a else b
    let s3 := match x with
      | some y => s2.steerPut e d c u y outs
      | none => s2
    let rep : Nat := match (s3.queue e d c (qa + 2)).base with
      | t :: _ => t.data / 4 % 64
      | [] => 0
    let tk := c.val * 4 + u
    let left : Nat := (SMap.find? (s3.fab e d).toks tk).getD (rep + 1)
    if left ≤ 1 then
      let s4 := (s3.queueTake e d c (qa + 2)).1
      .next (s4.onFab e d fun f => { f with toks := SMap.erase f.toks tk })
    else .next (s3.onFab e d fun f => { f with toks := SMap.put f.toks tk (left - 1) })

/-- STALL_QUIET_BITE (R134, R135): the quiet count of a die with a blocked transfer reaches its limit. -/
def execStallQuietBite (e : EngIx) (d : DieIx) (s : State) : Answer :=
  let m := s.posOf e d
  if (s.fab e d).bitQuiet || !s.flag (Reg.FAB_WDOG e m) Fld.FAB_WDOG.ENABLE then .next s
  else match s.firstBlocked e d with
    | none => .next s
    | some (c, net, pt) => .next ((s.onFab e d fun f => { f with bitQuiet := true }).fabFault e d 1 c net pt)

/-- STALL_AGE_BITE (R134, R135): a blocked transfer's age reaches its limit. -/
def execStallAgeBite (e : EngIx) (d : DieIx) (s : State) : Answer :=
  let m := s.posOf e d
  if (s.fab e d).bitAge || !s.flag (Reg.FAB_WDOG e m) Fld.FAB_WDOG.ENABLE then .next s
  else match s.firstBlocked e d with
    | none => .next s
    | some (c, net, pt) => .next ((s.onFab e d fun f => { f with bitAge := true }).fabFault e d 2 c net pt)

/-- A write of FAB_FAULT (R135, R136): a cleared check bit lets that check bite again. -/
def State.opFabFault (s : State) (e m v : Nat) : State :=
  let a := Reg.FAB_FAULT e m
  let s1 := s.plainWrite a v
  match s1.dieAt e m with
  | some d => s1.onFab e d fun f => { f with
      bitQuiet := f.bitQuiet && s1.flag a Fld.FAB_FAULT.STALL_QUIET
      bitAge := f.bitAge && s1.flag a Fld.FAB_FAULT.STALL_AGE }
  | none => s1

/-- FAB_FAULT_CLEAR (R135): clearing a check bit of FAB_FAULT restarts that check's counts. -/
def execFabFaultClear (r : Req) (e : EngIx) (m : PosIx) (v : Word) (s : State) : Answer :=
  .next (s.gated r (Reg.FAB_FAULT e m) v.toNat fun s => s.opFabFault e m v.toNat)

end Sys2Proof.Machine
end

