-- ==== Sys2Proof/Machine/Barrier.lean ====
section
/-! DEFINITION. The barrier channels and abort lines of the synchronisation tree (11_panel_networks R294 to R297). -/
namespace Sys2Proof.Machine

/-- Whether an engine's membership of its barrier channel is in effect (R295, R296). -/
def State.inBarrier (s : State) (e : Nat) : Bool := s.members.contains e

/-- Whether a member has arrived in the current generation. -/
def State.arrived (s : State) (e : Nat) : Bool := s.flag (Reg.NET_BAR_STATUS e) Fld.NET_BAR_STATUS.ARRIVED

/-- Whether a member holds PENDING. -/
def State.barPending (s : State) (e : Nat) : Bool := s.flag (Reg.NET_BAR_STATUS e) Fld.NET_BAR_STATUS.PENDING

/-- The members of a partition's channel. -/
def State.membersOf (s : State) (p : PartRec) : List Nat := p.list.filter s.inBarrier

/-- Every engine of a partition takes the membership that MEMBER gives it, unless it is down (R296). -/
def State.memberApply (s : State) (p : PartRec) : State :=
  let now := p.list.filter fun e => s.engineUp e && !s.edgeDown.contains e
      && s.flag (Reg.NET_BAR_CFG e) Fld.NET_BAR_CFG.MEMBER
  { s with members := s.members.filter (fun e => !p.list.contains e) ++ now }

/-- A change of MEMBER takes effect at once when no member has arrived and none holds PENDING (R296). -/
def State.memberSync (s : State) (p : PartRec) : State :=
  if (s.membersOf p).any fun e => s.arrived e || s.barPending e then s else s.memberApply p

/-- `memberSync` for the partition of an engine. -/
def State.memberSyncOf (s : State) (e : Nat) : State :=
  match s.partOf e with
  | some p => s.memberSync p
  | none => s

/-- An arrival of engine `e` (R295, R296). -/
def State.barArrive (s : State) (e : Nat) : State :=
  let a := Reg.NET_BAR_STATUS e
  if !s.inBarrier e then s
  else if !s.arrived e then s.setFlag a Fld.NET_BAR_STATUS.ARRIVED true
  else if !s.barPending e then s.setFlag a Fld.NET_BAR_STATUS.PENDING true
  else (s.setFlag a Fld.NET_BAR_STATUS.OVERRUN true).setFlag (Reg.NET_FAULT e) Fld.NET_FAULT.BAR_OVERRUN true

/-- Whether the channel of a partition releases: it has members and every one has arrived (R295). -/
def State.barDue (s : State) (p : PartRec) : Bool := s.membersOf p != [] && (s.membersOf p).all s.arrived

/-- The release of one member: GEN rises, ARRIVED takes PENDING, and its hub raises the event (R295, R296). -/
def State.barRelease (s : State) (e : Nat) : State :=
  let a := Reg.NET_BAR_STATUS e
  let s1 := s.addFld a Fld.NET_BAR_STATUS.GEN 1
  let s2 := s1.setFlag a Fld.NET_BAR_STATUS.ARRIVED (s1.barPending e)
  let s3 := s2.setFlag a Fld.NET_BAR_STATUS.PENDING false
  s3.raiseEvent e 4 0 (s3.fld a Fld.NET_BAR_STATUS.GEN)

/-- An engine goes down: it leaves its channel and sets LOST in every remaining member (R296). -/
def State.barLeave (s : State) (e : Nat) : State :=
  if !s.inBarrier e then s
  else
    let s1 := { s with members := s.members.filter (· != e) }
    match s1.partOf e with
    | none => s1
    | some p =>
      let s2 := (s1.membersOf p).foldl
        (fun s x => s.setFlag (Reg.NET_BAR_STATUS x) Fld.NET_BAR_STATUS.LOST true) s1
      s2.memberSync p

/-- NET_BAR_ARRIVE (R295): a write with ARRIVE set. -/
def execNetBarArrive (r : Req) (e : EngIx) (v : Word) (s : State) : Answer :=
  .next (s.gated r (Reg.NET_BAR_ARRIVE e) v.toNat fun s => if bit v.toNat 0 then s.barArrive e else s)

/-- BARRIER_RELEASE (R295, R296): channel `p` releases its members once every one has arrived; changes of MEMBER then take
effect, and an engine that is no member shows no arrival. -/
def execBarrierRelease (p : Fin 16) (s : State) : Answer :=
  match s.ground.parts.find? fun x => x.id == p.val with
  | none => .next s
  | some q =>
    if !s.barDue q then .next s
    else
      let s1 := ((s.membersOf q).foldl State.barRelease s).memberApply q
      .next ((q.list.filter fun e => !s1.inBarrier e).foldl
        (fun s e => s.setFlag (Reg.NET_BAR_STATUS e) Fld.NET_BAR_STATUS.ARRIVED false) s1)

/-- NET_ABORT_ASSERT (R297): a write with ASSERT set asserts the partition's abort line. -/
def execNetAbortAssert (r : Req) (e : EngIx) (v : Word) (s : State) : Answer :=
  .next (s.gated r (Reg.NET_ABORT e) v.toNat fun s => if bit v.toNat 0 then s.abortOf e else s)

end Sys2Proof.Machine
end

