-- ==== Sys2Proof/Machine/CanvasCheck.lean ====
section
/-! DEFINITION. The checks of a container (06_canvases_glazes R140 to R155, R159, R162): header, directory, section bodies,
slots and descriptors (04 R94), routes (05 R114, R119), summation classes (R71), and the bodies of other chapters (07 R196,
08 R229, 10 R253, R254, 12 R318, 06 R166). Pure functions over the container's bytes; each answers whether its rule holds. -/
namespace Sys2Proof.Machine

/-! ### The codes of R162 -/

/-- Load codes. -/
def Code.OK : Nat := 0x00
def Code.BAD_ADDR : Nat := 0x01
def Code.BAD_HEADER : Nat := 0x02
def Code.BAD_LAYOUT : Nat := 0x03
def Code.DIGEST : Nat := 0x04
def Code.SIG_MISSING : Nat := 0x05
def Code.SIG_INVALID : Nat := 0x06
def Code.KEY_DENIED : Nat := 0x07
def Code.SECTION_MISSING : Nat := 0x08
def Code.UNKNOWN_SECTION : Nat := 0x09
def Code.GLAZE_LIMIT : Nat := 0x0A
def Code.SLOT_REJECT : Nat := 0x0B
def Code.ROUTE_REJECT : Nat := 0x0C
def Code.CLASS_REJECT : Nat := 0x0D
def Code.LAYOUT_REJECT : Nat := 0x0E
def Code.BLOCK_CHECK : Nat := 0x0F
def Code.FAULTED : Nat := 0x10
def Code.PART_LIMIT : Nat := 0x13
def Code.PART_OVERLAP : Nat := 0x14

/-- The first rule of a list that does not hold; 0 when all do. -/
def firstFail : List (Nat × Bool) → Nat
  | [] => 0
  | (c, ok) :: l => if ok then firstFail l else c

/-! ### Header and directory (R141, R142) -/

/-- A directory entry. -/
structure DirEnt where
  ty : Nat
  glaze : Nat
  die : Nat
  off : Nat
  len : Nat
  flags : Nat
  rsv : Nat
  deriving DecidableEq, Repr

/-- BODY_LEN, TOTAL_LEN, IMAGE_ID, SECTION_COUNT, GLAZE_COUNT and SIGNED of a header. -/
def hBody (b : List Byte) : Nat := leAt b 0x08 4
def hTotal (b : List Byte) : Nat := leAt b 0x0C 4
def hImage (b : List Byte) : Nat := leAt b 0x10 8
def hSections (b : List Byte) : Nat := leAt b 0x1C 2
def hGlazes (b : List Byte) : Nat := byteAt b 0x1E
def hSigned (b : List Byte) : Bool := bit (byteAt b 0x1F) 0

/-- The directory of a container. -/
def directory (b : List Byte) : List DirEnt :=
  (List.range (hSections b)).map fun i =>
    let o := 64 + 16 * i
    ⟨leAt b o 2, byteAt b (o + 2), byteAt b (o + 3), leAt b (o + 4) 4, leAt b (o + 8) 4, leAt b (o + 12) 2,
      leAt b (o + 14) 2⟩

/-- The bytes of a section. -/
def DirEnt.bytes (d : DirEnt) (b : List Byte) : List Byte := (b.drop d.off).take d.len

/-- Where the directory ends. -/
def dirEnd (b : List Byte) : Nat := 64 + 16 * hSections b

/-- BAD_HEADER: MAGIC, VERSION major, KIND and the reserved header fields. -/
def headerOk (kind : Nat) (b : List Byte) : Bool :=
  decide (leAt b 0 4 = 0x56434D4C) && byteAt b 5 == 1 && leAt b 6 2 == kind && decide (byteAt b 0x1F < 2)
    && zeroAt b 0x20 32

/-- Canvas sections that belong to a glaze and a die, to a die, or to neither; ground sections belong to neither (R143). -/
def formOk (d : DirEnt) : Bool :=
  if d.ty = 5 then decide (d.glaze < 8 ∧ d.die < 4)
  else if d.ty = 6 ∨ d.ty = 7 ∨ d.ty = 0xB then decide (d.glaze = 0xFF ∧ d.die < 4)
  else if (1 ≤ d.ty ∧ d.ty ≤ 0xC) ∨ (0x101 ≤ d.ty ∧ d.ty ≤ 0x106) then decide (d.glaze = 0xFF ∧ d.die = 0xFF)
  else decide (d.glaze < 8 ∨ d.glaze = 0xFF) && decide (d.die < 4 ∨ d.die = 0xFF)

/-- Sections lie in order, apart, and within the body (R142). -/
def placedFrom (lo body : Nat) : List DirEnt → Bool
  | [] => true
  | d :: l => decide (lo ≤ d.off ∧ d.off < body ∧ d.off + d.len ≤ body) && d.off % 64 == 0
      && placedFrom (max (d.off + 1) (d.off + d.len)) body l

/-- No two entries share TYPE, GLAZE and DIE (R142). -/
def distinctEnts : List DirEnt → Bool
  | [] => true
  | d :: l => !(l.any fun x => x.ty == d.ty && x.glaze == d.glaze && x.die == d.die) && distinctEnts l

/-- Every BANK_POWER section stands before every CELL_DATA section (R144). -/
def banksFirst : List DirEnt → Bool
  | [] => true
  | d :: l => (d.ty != 7 || !(l.any fun x => x.ty == 0xB)) && banksFirst l

/-- BAD_LAYOUT as stage 1 checks it: the header's lengths and the directory (R141, R142, R143, R144). -/
def layoutOk (b : List Byte) : Bool :=
  let ds := directory b
  decide (hTotal b ≤ 0x10000000) && hBody b % 64 == 0
    && hTotal b == hBody b + (if hSigned b then 2856 else 32)
    && decide (1 ≤ hSections b ∧ hSections b ≤ 64) && decide (dirEnd b ≤ hBody b)
    && placedFrom (dirEnd b) (hBody b) ds && distinctEnts ds && banksFirst ds
    && ds.all fun d => formOk d && decide (d.flags < 2) && d.rsv == 0

/-- Padding between sections and up to the end of the body is zero (R142). -/
def paddingOk (b : List Byte) : Bool :=
  let ends := dirEnd b :: (directory b).map fun d => d.off + d.len
  let starts := (directory b).map (·.off) ++ [hBody b]
  (ends.zip starts).all fun p => zeroAt b p.1 (p.2 - p.1)

/-- The body of a section, if the container has it. -/
def sect (b : List Byte) (ty g d : Nat) : Option (List Byte) :=
  ((directory b).find? fun x => x.ty == ty && x.glaze == g && x.die == d).map (·.bytes b)

/-- A check of a section that holds where the section is absent. -/
def ifSect (o : Option (List Byte)) (f : List Byte → Bool) : Bool :=
  match o with
  | none => true
  | some x => f x

/-- The records of a body: `n` of `k` bytes from `off`. -/
def records (x : List Byte) (off k n : Nat) : List (List Byte) := (List.range n).map fun i => slice x (off + k * i) k

/-! ### Reserved bytes (BAD_LAYOUT of stage 3) -/

/-- The headers of `n` programs from `off` are zero beyond N (R150). -/
def progHeadsZero (x : List Byte) (off : Nat) : Nat → Bool
  | 0 => true
  | n + 1 => zeroAt x (off + 2) 14 && progHeadsZero x (off + 16 + 16 * leAt x off 2) n

/-- The records of a CELL_DATA body from `off` (R155): cell, offset, data, and whether the reserved bytes and the padding
are zero; none where a record breaks the limits. -/
def cellDataRecs (x : List Byte) (off : Nat) : Nat → Option (List (Nat × Nat × List Byte × Bool))
  | 0 => some []
  | fuel + 1 =>
    if x.length ≤ off then some []
    else
      let c := leAt x off 2
      let a := leAt x (off + 4) 4
      let n := leAt x (off + 8) 4
      let pad := (16 - n % 16) % 16
      if x.length < off + 16 ∨ 864 ≤ c ∨ a % 8 ≠ 0 ∨ n % 8 ≠ 0 ∨ n = 0 ∨ 131072 < a + n ∨ x.length < off + 16 + n + pad
      then none
      else
        let zero := zeroAt x (off + 2) 2 && zeroAt x (off + 12) 4 && zeroAt x (off + 16 + n) pad
        (cellDataRecs x (off + 16 + n + pad) fuel).map fun l => (c, a, slice x (off + 16) n, zero) :: l

/-- The records of a CELL_DATA body. -/
def cellData (x : List Byte) : Option (List (Nat × Nat × List Byte × Bool)) := cellDataRecs x 0 (x.length + 1)

/-- No reserved byte of a canvas section's header or record is non-zero (R162, BAD_LAYOUT). -/
def reservedOk (b : List Byte) : Bool :=
  (directory b).all fun d =>
    let x := d.bytes b
    match d.ty with
    | 1 => zeroAt x 1 7 && (records x 8 4 (byteAt x 0)).all fun r => byteAt r 1 == 0
    | 2 => zeroAt x 4 12 && progHeadsZero x 16 (min (leAt x 0 4) 65535)
    | 3 | 4 => zeroAt x 4 12
    | 5 => (records x 0 48 864).all fun r => zeroAt r 6 2 && zeroAt r 12 4 && zeroAt r 40 8
    | 6 => (records x 0 144 864).all fun r => zeroAt r 132 12
    | 7 => match cellData x with
      | some l => l.all fun r => r.2.2.2
      | none => true
    | _ => true

/-! ### Sections present and known (R143) -/

/-- SECTION_MISSING: a required section is absent. -/
def sectionsPresent (b : List Byte) (standby : Bool) : Bool :=
  (sect b 1 0xFF 0xFF).isSome && (sect b 2 0xFF 0xFF).isSome && (sect b 9 0xFF 0xFF).isSome
    && (!standby || (sect b 0xC 0xFF 0xFF).isSome)
    && (List.range (min (hGlazes b) 8)).all fun g => (List.range 4).all fun d => (sect b 5 g d).isSome

/-- UNKNOWN_SECTION: a section of the other kind, or a reserved or producer section marked REQUIRED. -/
def sectionsKnown (kind : Nat) (b : List Byte) : Bool :=
  (directory b).all fun d =>
    if 1 ≤ d.ty ∧ d.ty ≤ 0xC then kind == 1
    else if 0x101 ≤ d.ty ∧ d.ty ≤ 0x106 then kind == 2
    else d.flags == 0

/-! ### Glazes (R159) -/

/-- GLAZE_LIMIT. -/
def glazesOk (b : List Byte) : Bool :=
  let n := hGlazes b
  decide (1 ≤ n ∧ n ≤ 8)
    && ifSect (sect b 1 0xFF 0xFF) (fun x => (records x 8 4 (byteAt x 0)).all fun r => decide (byteAt r 0 < n))
    && (directory b).all fun d => d.ty != 5 || decide (d.glaze < n)

/-! ### Slots and descriptors (04 R94, R42; R149 to R155) -/

/-- A MOP is well formed. -/
def mopOk (w : Nat) : Bool :=
  let m := mField w
  m.opc == 0 || (decide (m.opc ≤ 4) && !bit w 96)

/-- A VOP is well formed (R94). -/
def vopOk (w : Nat) : Bool :=
  let v := vField w
  v.opc == 0 ||
    (decide (v.opc ≤ 0x0D ∨ (0x10 ≤ v.opc ∧ v.opc ≤ 0x13) ∨ (0x18 ≤ v.opc ∧ v.opc ≤ 0x1D))
      && decide (v.rnd ≤ 5) && bits w 51 48 == 0
      && (v.opc != 0x0D || decide (v.fmt ≤ 1))
      && (!(v.opc == 0x19 || v.opc == 0x1B) || decide (3 ≤ v.fmt))
      && (v.opc != 0x1D || decide (v.q ≤ 1)))

/-- A SOP is well formed in a program of `n` slots (R94, R103). -/
def sopOk (n w : Nat) : Bool :=
  let f := sField w
  f.opc == 0 ||
    (decide (f.opc ≤ 0x12 ∨ (0x13 ≤ f.opc ∧ f.opc ≤ 0x16) ∨ (0x18 ≤ f.opc ∧ f.opc ≤ 0x1A) ∨
        (0x1C ≤ f.opc ∧ f.opc ≤ 0x20))
      && (f.opc != 0x0E || decide (bits f.imm 2 0 ≤ 5))
      && (f.opc != 0x0F || decide (bits f.imm 22 20 ≤ 5))
      && (f.opc != 0x10 || decide (bits f.imm 7 0 < n)))

/-- A slot is well formed. -/
def slotOk (n w : Nat) : Bool := bits w 125 124 == 0 && mopOk w && vopOk w && sopOk n w

/-- A matrix descriptor is well formed (R93, R94). -/
def descOk (x : List Byte) : Bool :=
  let w := fun i => leAt x (4 * i) 4
  let p : CellProg := ⟨0, [], x, [], 0, 0, 0, 0⟩
  let d := p.desc 0
  let w0 := w 0
  bits w0 31 30 == 0 && decide (d.asrc ≤ 4) && decide (d.bsrc ≤ 4) && decide (d.oform ≤ 4) && decide (d.odst ≤ 2)
    && decide (d.ornd ≤ 5)
    && (!d.amx || decide (3 ≤ bits w0 2 0)) && (!d.bmx || decide (3 ≤ bits w0 5 3))
    && (d.oform != 2 || (d.odst == 0 && decide (3 ≤ bits w0 16 14)))
    && (d.oform != 4 || d.odst != 0)
    && ([1, 2, 3, 4, 5, 6, 7].all fun i => decide (w i < 2 ^ 17))
    && ([1, 2, 3, 4].all fun i => w i % 32 == 0) && w 5 % 8 == 0 && w 6 % 8 == 0

/-- The slots of the programs of a PROGRAMS body from `off`: the slot lists; none where a header breaks R150. -/
def progList (x : List Byte) (off : Nat) : Nat → Option (List (List Nat))
  | 0 => if off = x.length then some [] else none
  | k + 1 =>
    let n := leAt x off 2
    if n = 0 ∨ 256 < n ∨ x.length < off + 16 + 16 * n then none
    else (progList x (off + 16 + 16 * n) k).map fun l =>
      ((List.range n).map fun i => leAt x (off + 16 + 16 * i) 16) :: l

/-- The programs of a canvas. -/
def programs (b : List Byte) : Option (List (List Nat)) :=
  match sect b 2 0xFF 0xFF with
  | none => some []
  | some x => if x.length < 16 ∨ leAt x 0 4 = 0 ∨ 65535 < leAt x 0 4 then none else progList x 16 (leAt x 0 4)

/-- The sets of a DESC_SETS or QEXT_SETS body of `k` bytes each; none where the body breaks R151 or R152. -/
def setsOf (o : Option (List Byte)) (k : Nat) : Option (List (List Byte)) :=
  match o with
  | none => some []
  | some x =>
    let n := leAt x 0 4
    if x.length < 16 ∨ 65535 < n ∨ x.length ≠ 16 + k * n then none else some (records x 16 k n)

/-- The CELL_GLAZE records of a glaze and die. -/
def glazeRecs (b : List Byte) (g d : Nat) : List (List Byte) :=
  match sect b 5 g d with
  | some x => records x 0 48 864
  | none => []

/-- GLAZE_PLAN keeps R149. -/
def planOk (x : List Byte) : Bool :=
  let n := byteAt x 0
  decide (1 ≤ n ∧ n ≤ 64) && x.length == 8 + 4 * n && byteAt x 8 == 0
    && (records x 8 4 n).all fun r => decide (byteAt r 0 < 8) && leAt r 2 2 != 0

/-- A cell record names programs and sets that exist, and its slots fit its descriptors (R153, R94). -/
def cellRecOk (ps : List (List Nat)) (ds qs : List (List Byte)) (r : List Byte) : Bool :=
  let p := leAt r 0 2
  let d := leAt r 2 2
  let q := leAt r 4 2
  (p == 0xFFFF || decide (p < ps.length)) && (d == 0xFFFF || decide (d < ds.length))
    && (q == 0xFFFF || decide (q < qs.length))
    && (p == 0xFFFF || ((ps.getD p []).all fun w =>
        let m := mField w
        m.opc == 0 || (d != 0xFFFF &&
          (m.opc != 3 || (CellProg.desc ⟨0, [], ds.getD d [], [], 0, 0, 0, 0⟩ m.desc).asrc != 0))))

/-- SLOT_REJECT. -/
def slotsOk (b : List Byte) : Bool :=
  match programs b, setsOf (sect b 3 0xFF 0xFF) 512, setsOf (sect b 4 0xFF 0xFF) 96 with
  | some ps, some ds, some qs =>
    ifSect (sect b 1 0xFF 0xFF) planOk
      && (ps.all fun l => l.all fun w => slotOk l.length w)
      && (ds.all fun x => (records x 0 32 16).all descOk)
      && ((directory b).all fun e =>
        let x := e.bytes b
        match e.ty with
        | 5 => x.length == 864 * 48 && (records x 0 48 864).all fun r => cellRecOk ps ds qs r
        | 6 => x.length == 864 * 144
        | 7 => (cellData x).isSome
        | _ => true)
  | _, _, _ => false

/-! ### Routes (05 R114, R119) -/

/-- Whether a source code may stand at a cell of a die: not reserved, on the grid, a port only where one is attached. -/
def sourceOk (d c net code : Nat) : Bool :=
  match code with
  | 0 | 5 | 6 => true
  | 1 => decide (32 ≤ c)
  | 2 => c % 32 != 31
  | 3 => decide (c / 32 < 26)
  | 4 => c % 32 != 0
  | 7 | 8 | 9 | 10 => net != 2
  | 11 => (match attach c with
    | some (p, _) => portExists d p
    | none => false)
  | _ => false

/-- Whether an output may be fed at a cell: an edge output stays on the grid, a port output stands at a port. -/
def outputOk (d c net lo : Nat) : Bool :=
  match lo with
  | 0 => decide (32 ≤ c)
  | 4 => c % 32 != 31
  | 8 => decide (c / 32 < 26)
  | 12 => c % 32 != 0
  | _ =>
    if lo = (if net = 2 then 56 else 48) then
      (match attach c with
       | some (p, _) => portExists d p
       | none => false)
    else true

/-- The token input field of steering unit `u` in the control route word (R111). -/
def tokenLo (u : Nat) : Nat := [32, 40, 48, 52].getD u 32

/-- The fields of one route word are in order (R114). -/
def routeWordOk (d c net w : Nat) : Bool :=
  (if net = 2 then bits w 39 36 == 0 && bits w 47 44 == 0 && bits w 63 60 == 0 else bits w 63 56 == 0)
    && (routeFields net).all fun lo =>
      let code := bits w (lo + 3) lo
      code == 0 || (sourceOk d c net code && outputOk d c net lo)

/-- A steering unit's inputs fit its mode: off feeds nothing; SELECT and MERGE are fed at A, B and the token; SPLIT at A
and the token, with B unfed (R114, R122; log 22). -/
def steerOk (vw sw cw u : Nat) : Bool :=
  let w := if u < 2 then vw else sw
  let i := u % 2
  let mode := bits w (53 + 2 * i) (52 + 2 * i)
  let a := bits w (35 + 8 * i) (32 + 8 * i) != 0
  let b := bits w (39 + 8 * i) (36 + 8 * i) != 0
  let t := bits cw (tokenLo u + 3) (tokenLo u) != 0
  match mode with
  | 0 => !a && !b && !t
  | 3 => a && !b && t
  | _ => a && b && t

/-- The route word of a cell and network from its CELL_GLAZE record. -/
def recRoute (r : List Byte) (net : Nat) : Nat := leAt r (16 + 8 * net) 8

/-- Whether the chain from a source code, followed source by source, ends within the fuel (R114). `recs d c` is the
record of a cell. -/
def chainEnds (recs : Nat → Nat → List Byte) : Nat → Nat → Nat → Nat → Nat → Bool
  | 0, _, _, _, _ => false
  | fuel + 1, d, c, net, code =>
    let w := fun c' => recRoute (recs d c') net
    match code with
    | 1 => chainEnds recs fuel d (c - 32) net (bits (w (c - 32)) 11 8)
    | 2 => chainEnds recs fuel d (c + 1) net (bits (w (c + 1)) 15 12)
    | 3 => chainEnds recs fuel d (c + 32) net (bits (w (c + 32)) 3 0)
    | 4 => chainEnds recs fuel d (c - 1) net (bits (w (c - 1)) 7 4)
    | 7 | 8 | 9 | 10 =>
      let i := (code - 7) / 2
      let tl := tokenLo (2 * net + i)
      chainEnds recs fuel d c net (bits (w c) (35 + 8 * i) (32 + 8 * i))
        && chainEnds recs fuel d c net (bits (w c) (39 + 8 * i) (36 + 8 * i))
        && chainEnds recs fuel d c 2 (bits (recRoute (recs d c) 2) (tl + 3) tl)
    | 11 =>
      (match crossing d c with
       | some (.inl (d', c')) =>
         let lo := if net = 2 then 56 else 48
         chainEnds recs fuel d' c' net (bits (recRoute (recs d' c') net) (lo + 3) lo)
       | _ => true)
    | _ => true

/-- More links than a chain without a loop can have: four dies, 864 cells, three networks, 13 outputs each. -/
def chainFuel : Nat := 4 * 864 * 39 + 1

/-- The extension regions of a set (R119): start and length of those that hold entries. -/
def extRegions (x : List Byte) : List (Nat × Nat) :=
  (List.range 24).filterMap fun q =>
    let w := leAt x (4 * q) 4
    let n := bits w 10 0
    if n = 0 then none else some (bits w 21 11 * 64, n * extBytes q)

/-- No two regions of a list overlap. -/
def disjoint : List (Nat × Nat) → Bool
  | [] => true
  | (a, n) :: l => (l.all fun p => decide (a + n ≤ p.1) || decide (p.1 + p.2 ≤ a)) && disjoint l

/-- An extension set keeps R119. -/
def extSetOk (x : List Byte) : Bool :=
  ((List.range 24).all fun q =>
    let w := leAt x (4 * q) 4
    decide (w < 2 ^ 22) && decide (baseDepth q + bits w 10 0 ≤ 2048))
    && (extRegions x).all (fun p => decide (p.1 + p.2 ≤ 131072)) && disjoint (extRegions x)

/-- The record of a cell among the records of a glaze's four dies. -/
def recAt (rs : List (List (List Byte))) (d c : Nat) : List Byte := (rs.getD d []).getD c []

/-- The routes of one glaze keep R114. -/
def glazeRoutesOk (b : List Byte) (g : Nat) : Bool :=
  let rs := (List.range 4).map fun d => glazeRecs b g d
  (List.range 4).all fun d => (List.range 864).all fun c =>
    let r := recAt rs d c
    let w := fun net => recRoute r net
    ([0, 1, 2].all fun net => routeWordOk d c net (w net))
      && ([0, 1, 2, 3].all fun u => steerOk (w 0) (w 1) (w 2) u)
      && [0, 1, 2].all fun net => (routeFields net).all fun lo =>
          chainEnds (recAt rs) chainFuel d c net (bits (w net) (lo + 3) lo)

/-- ROUTE_REJECT. -/
def routesOk (b : List Byte) : Bool :=
  (match setsOf (sect b 4 0xFF 0xFF) 96 with
   | some qs => qs.all extSetOk
   | none => true)
    && (List.range (min (hGlazes b) 8)).all fun g => glazeRoutesOk b g

/-! ### Summation classes (03 R71, R162) -/

/-- The vector queues that an entry reaches from source `code` at a cell, followed forwards through hops, fan-out, steering
and crossings (with fuel): die, cell, queue. -/
def reached (recs : Nat → Nat → List Byte) : Nat → Nat → Nat → Nat → List (Nat × Nat × Nat)
  | 0, _, _, _ => []
  | fuel + 1, d, c, code =>
    (fedBy (recRoute (recs d c) 0) 0 code).flatMap fun lo =>
      match destOf 0 lo with
      | .edge pt => (match nextCell c pt with
        | some (c', k) => reached recs fuel d c' k
        | none => [])
      | .queue q =>
        if q < 4 then [(d, c, q)]
        else
          let i := (q - 12) / 3
          reached recs fuel d c (7 + 2 * i) ++ reached recs fuel d c (8 + 2 * i)
      | .port => (match crossing d c with
        | some (.inl (d', c')) => reached recs fuel d' c' 11
        | _ => [])

/-- The descriptors that the slots of a cell name with MOP code `opc`. -/
def mopDescs (ps : List (List Nat)) (ds : List (List Byte)) (r : List Byte) (opc : Nat) : List Desc :=
  if leAt r 0 2 = 0xFFFF ∨ leAt r 2 2 = 0xFFFF then []
  else (ps.getD (leAt r 0 2) []).filterMap fun w =>
    let m := mField w
    if m.opc = opc then some (CellProg.desc ⟨0, [], ds.getD (leAt r 2 2) [], [], 0, 0, 0, 0⟩ m.desc) else none

/-- CLASS_REJECT. -/
def classesOk (b : List Byte) : Bool :=
  match programs b, setsOf (sect b 3 0xFF 0xFF) 512 with
  | some ps, some ds =>
    let gs := List.range (min (hGlazes b) 8)
    let rss := gs.map fun g => (List.range 4).map fun d => glazeRecs b g d
    rss.all fun rs => (List.range 4).all fun d => (List.range 864).all fun c =>
      (mopDescs ps ds (recAt rs d c) 2).all fun x =>
        x.oform != 4 || (reached (recAt rs) chainFuel d c (4 + x.odst)).all fun q =>
          rss.all fun rs' => (mopDescs ps ds (recAt rs' q.1 q.2.1) 3).all fun y =>
            y.asrc != q.2.2 + 1 || y.cls == x.cls
  | _, _ => true

/-! ### Bodies of other chapters (LAYOUT_REJECT) -/

/-- PERIOD_PLAN keeps R317 and R318, for a partition of period `per`. -/
def periodOk (per : Nat) (x : List Byte) : Bool :=
  let n := byteAt x 8
  let ps := records x 16 16 n
  let kinds := ps.map fun r => byteAt r 8
  let starts := ps.map fun r => leAt r 0 8
  decide (1 ≤ n ∧ n ≤ 8) && x.length == 16 + 16 * n && decide (byteAt x 9 ≤ 100) && zeroAt x 10 6
    && (ps.all fun r => zeroAt r 9 7 && decide (byteAt r 8 ≤ 5))
    && kinds.head? == some 0 && starts.head? == some 0 && !((kinds.drop 1).contains 0)
    && ([2, 3, 4].all fun k => decide (kinds.count k ≤ 1))
    && ((starts.zip (starts.drop 1)).all fun p => decide (p.1 < p.2))
    && (starts.all fun a => decide (a < leAt x 0 8))
    && per != 0 && leAt x 0 8 == per

/-- A stream of MEM_LAYOUT (08 R226). -/
structure StreamRec where
  die : Nat
  chan : Nat
  hb : Bool
  glazes : Nat
  role : Nat
  space : Nat
  counter : Nat
  countEn : Bool
  base : Nat
  advance : Int
  rowLen : Nat
  rows : Nat
  stride : Nat
  wrap : Nat
  deriving DecidableEq, Repr

/-- Read a stream record. -/
def streamRec (r : List Byte) : StreamRec :=
  ⟨byteAt r 0, byteAt r 1 % 32, bit (byteAt r 1) 7, byteAt r 2, byteAt r 3, byteAt r 4, byteAt r 5, bit (byteAt r 6) 0,
    leAt r 8 8, toSigned 64 (leAt r 0x10 8), leAt r 0x18 4, leAt r 0x1C 4, leAt r 0x20 4, leAt r 0x24 2⟩

/-- The streams of a MEM_LAYOUT body. -/
def streamsOf (x : List Byte) : List StreamRec := (records x 16 48 (leAt x 0 2)).map streamRec

/-- A stream record keeps the ranges and alignments of R226. -/
def streamOk (r : List Byte) : Bool :=
  let t := streamRec r
  decide (t.die < 4) && decide (1 ≤ t.chan ∧ t.chan ≤ 25) && bits (byteAt r 1) 6 5 == 0
    && decide (1 ≤ t.role ∧ t.role ≤ 3) && decide (t.space ≤ 1) && decide (byteAt r 6 < 2) && byteAt r 7 == 0
    && t.base % 64 == 0 && t.advance % 64 == 0 && t.rowLen % 64 == 0 && decide (64 ≤ t.rowLen ∧ t.rowLen ≤ 2 ^ 24)
    && decide (1 ≤ t.rows ∧ t.rows ≤ 2 ^ 24) && t.stride % 64 == 0 && t.wrap != 0 && zeroAt r 0x26 10

/-- Two streams may share a channel in a glaze only as a WRITE and a DOORBELL (R229). -/
def sharesOk : List StreamRec → Bool
  | [] => true
  | a :: l => (l.all fun b =>
      !(a.die == b.die && a.chan == b.chan && a.hb == b.hb && Nat.land a.glazes b.glazes != 0)
        || (a.role == 2 && b.role == 3) || (a.role == 3 && b.role == 2)) && sharesOk l

/-- Every use of a hub channel by a route of a glaze is one that a stream of the channel has in that glaze (R229). -/
def channelsOk (b : List Byte) (ts : List StreamRec) (g : Nat) : Bool :=
  (List.range 4).all fun d =>
    let rs := glazeRecs b g d
    (List.range 864).all fun c =>
      match attach c with
      | some (p, k) =>
        if p < 2 then true
        else
          let has := fun role => ts.any fun t => t.die == d && t.chan == k && t.hb == (p == 3) && t.role == role
            && bit t.glazes g
          let r := rs.getD c []
          let v := recRoute r 0
          let w := recRoute r 1
          let x := recRoute r 2
          (fedBy v 0 11 == [] || has 1) && (bits v 51 48 == 0 || has 2) && (bits w 51 48 == 0 || has 3)
            && fedBy w 1 11 == [] && bits x 59 56 == 0 && fedBy x 2 11 == []
      | none => true

/-- MEM_LAYOUT keeps R226 and R229. -/
def memLayoutOk (b x : List Byte) : Bool :=
  let n := leAt x 0 2
  decide (16 ≤ x.length) && decide (n ≤ 512) && x.length == 16 + 48 * n && zeroAt x 2 14
    && (records x 16 48 n).all streamOk && sharesOk (streamsOf x)
    && (List.range (min (hGlazes b) 8)).all fun g => channelsOk b (streamsOf x) g

/-- VS_STREAMS keeps R254. -/
def vsStreamsOk (x : List Byte) : Bool :=
  let n := byteAt x 0
  let rs := records x 16 16 n
  let ids := rs.map fun r => byteAt r 0
  decide (1 ≤ n ∧ n ≤ 15) && x.length == 16 + 16 * n && zeroAt x 1 15
    && (rs.all fun r => decide (1 ≤ byteAt r 0 ∧ byteAt r 0 ≤ 15) && zeroAt r 1 3 && zeroAt r 8 8)
    && ids.all fun i => ids.count i == 1

/-- The streams that VS_STREAMS defines. -/
def vsDefined (b : List Byte) : List Nat :=
  match sect b 0xA 0xFF 0xFF with
  | some x => (records x 16 16 (byteAt x 0)).map fun r => byteAt r 0
  | none => []

/-- Tags stand only where R253 allows them. -/
def tagsOk (b : List Byte) : Bool :=
  let ids := vsDefined b
  match programs b, setsOf (sect b 3 0xFF 0xFF) 512 with
  | some ps, some ds =>
    (ps.all fun l => l.all fun w =>
      let v := vField w
      v.opc == 0 || v.vs == 0 || ((v.opc == 0x1A || v.opc == 0x1B) && ids.contains v.vs))
      && ds.all fun x => (List.range 16).all fun k =>
        let d := CellProg.desc ⟨0, [], x, [], 0, 0, 0, 0⟩ k
        d.vs == 0 || ids.contains d.vs
  | _, _ => true

/-- The state that BANK_POWER gives bank `k` of a cell; ON without a section (07 R195). -/
def bankAt (b : List Byte) (d c k : Nat) : Nat :=
  match sect b 0xB 0xFF d with
  | some x => bits (leAt x (4 * c) 2) (2 * k + 1) (2 * k)
  | none => 0

/-- BANK_POWER keeps R196, with the banks `off` held OFF by BANK_OFF. -/
def bankPowerOk (off : Nat) (x : List Byte) : Bool :=
  x.length == 864 * 4 && (records x 0 4 864).all fun r =>
    byteAt r 3 == 0 && (List.range 8).all fun k =>
      let st := bits (leAt r 0 2) (2 * k + 1) (2 * k)
      st != 3 && (!bit (byteAt r 2) k || st == 0) && (!bit off k || st == 2)

/-- Whether a range of a cell's scratchpad lies in banks that the canvas leaves ON (R196). -/
def rangeOn (b : List Byte) (off d c a n : Nat) : Bool :=
  (List.range 8).all fun k =>
    !(decide (a < (k + 1) * 0x4000) && decide (k * 0x4000 < a + n)) || (bankAt b d c k == 0 && !bit off k)

/-- CELL_DATA records and queue extensions lie in banks that are ON (R196). -/
def dataBanksOk (b : List Byte) (off : Nat) : Bool :=
  ((List.range 4).all fun d => ifSect (sect b 7 0xFF d) fun x =>
    match cellData x with
    | some l => l.all fun r => rangeOn b off d r.1 r.2.1 r.2.2.1.length
    | none => true)
    && (match setsOf (sect b 4 0xFF 0xFF) 96 with
      | some qs => (List.range (min (hGlazes b) 8)).all fun g => (List.range 4).all fun d =>
          (List.range 864).all fun c =>
            let q := leAt ((glazeRecs b g d).getD c []) 4 2
            q == 0xFFFF || (extRegions (qs.getD q [])).all fun p => rangeOn b off d c p.1 p.2
      | none => true)

/-- Whether a range of `n` bytes from an engine-relative address lies in one scratchpad (R166). -/
def inScratch (a n : Nat) : Bool :=
  if a < 0x8000000000 then false
  else
    let o := a - 0x8000000000
    if o < 0x10000000 then decide (o + n ≤ 0x10000000)
    else
      let x := o - 0x40000000
      decide (0x40000000 ≤ o ∧ o < 0x80000000) && decide (x % 0x10000000 / 0x20000 < 864)
        && decide (x % 0x20000 + n ≤ 0x20000)

/-- STANDBY keeps R166. -/
def standbyOk (x : List Byte) : Bool :=
  let n := leAt x 12 2
  let v := leAt x 8 4
  let rs := records x 16 16 n
  decide (16 ≤ x.length) && leAt x 0 8 % 4096 == 0 && v % 4096 == 0 && decide (4096 ≤ v ∧ v ≤ 0x4000000)
    && decide (1 ≤ n ∧ n ≤ 256) && x.length == 16 + 16 * n && leAt x 14 2 == 0
    && (rs.all fun r => leAt r 0 8 % 64 == 0 && leAt r 8 4 % 64 == 0 && leAt r 12 4 == 0
        && inScratch (leAt r 0 8) (leAt r 8 4))
    && (rs.map fun r => leAt r 8 4).sum == v

/-- LAYOUT_REJECT, for a partition of period `per` and an engine whose cell banks `off` are held OFF. -/
def layoutsOk (per off : Nat) (b : List Byte) : Bool :=
  ifSect (sect b 8 0xFF 0xFF) (periodOk per) && ifSect (sect b 9 0xFF 0xFF) (memLayoutOk b)
    && ifSect (sect b 0xA 0xFF 0xFF) vsStreamsOk && tagsOk b
    && ((List.range 4).all fun d => ifSect (sect b 0xB 0xFF d) (bankPowerOk off))
    && dataBanksOk b off && ifSect (sect b 0xC 0xFF 0xFF) standbyOk

/-! ### The signature (R145, R148) -/

/-- KEY_SLOT of a signed container. -/
def keySlot (b : List Byte) : Nat := byteAt b (hBody b + 32)

/-- The signature bytes. -/
def sigBytes (b : List Byte) : List Byte := slice b (hBody b + 36) 2820

/-- The stored digest, and whether it is SHAKE256 of the body. -/
def digestOf (b : List Byte) : List Byte := slice b (hBody b) 32
def digestOk (b : List Byte) : Bool := shake (b.take (hBody b)) == digestOf b

/-- The checks of stage 3 of a canvas load (R162), in table order but for KEY_DENIED before SIG_INVALID. `keyOk` says
whether KEY_SLOT's key is held and allows the engine's partition, `key` is that key. -/
def canvasCode (b : List Byte) (standby : Bool) (policy per off : Nat) (keyOk : Bool) (key : List Byte) : Nat :=
  firstFail [
    (Code.BAD_LAYOUT, paddingOk b && reservedOk b && (!hSigned b || zeroAt b (hBody b + 33) 3)),
    (Code.DIGEST, digestOk b),
    (Code.SIG_MISSING, hSigned b || policy == 0),
    (Code.KEY_DENIED, !hSigned b || keyOk),
    (Code.SIG_INVALID, !hSigned b || Config.xmssVerify key (digestOf b) (sigBytes b)),
    (Code.SECTION_MISSING, sectionsPresent b standby),
    (Code.UNKNOWN_SECTION, sectionsKnown 1 b),
    (Code.GLAZE_LIMIT, glazesOk b),
    (Code.SLOT_REJECT, slotsOk b),
    (Code.ROUTE_REJECT, routesOk b),
    (Code.CLASS_REJECT, classesOk b),
    (Code.LAYOUT_REJECT, layoutsOk per off b)]

/-! ### Ground images (R146 to R148; 11 R285; 16 R438; 07 R197; 08 R208) -/

/-- The partition records of a PARTITIONS body. -/
def partRecs (x : List Byte) : List PartRec :=
  (records x 16 16 (leAt x 0 4)).map fun r => ⟨byteAt r 0, byteAt r 1, byteAt r 2, leAt r 4 8⟩

/-- PART_LIMIT holds. -/
def partLimitOk (x : List Byte) : Bool :=
  let ids := (partRecs x).map (·.id)
  decide (leAt x 0 4 ≤ 16) && ids.all fun i => decide (i ≤ 15) && ids.count i == 1

/-- PART_OVERLAP holds. -/
def partOverlapOk (x : List Byte) : Bool :=
  let ms := (partRecs x).map (·.engines)
  (ms.all fun m => m != 0) && (List.range 48).all fun e => decide ((ms.filter fun m => bit m e).length ≤ 1)

/-- The key records of a CANVAS_KEYS body. -/
def keyRecs (x : List Byte) : List CanvasKey :=
  (records x 16 80 (byteAt x 1)).map fun r => ⟨byteAt r 0, leAt r 2 2, slice r 4 68⟩

end Sys2Proof.Machine
end

