-- ==== Sys2Proof/Machine/Mem.lean ====
section
/-! DEFINITION. The panel's memory: addresses and the spread hash (08_engine_hub R206 to R210), the block check (R213),
blocks with their assembly buffers (R214 to R217), remote accesses to scratchpads (07 R191, R192), and one access of at most
4 KiB by an engine, a host, a link or a guest (R219). -/
namespace Sys2Proof.Machine

/-! ### Completion status (R219) -/

/-- The completion codes. -/
def St.OK : Nat := 0
def St.ADDR_UNMAPPED : Nat := 1
def St.ALIGN : Nat := 2
def St.REFUSED : Nat := 3
def St.CHECK_FAIL : Nat := 4
def St.HBM_UE : Nat := 5
def St.TARGET_RESET : Nat := 6
def St.SPREAD_LOST : Nat := 7
def St.HOST_ERR : Nat := 8
def St.LINK_ABORT : Nat := 9
def St.BAD_DESC : Nat := 10
def St.PAGED : Nat := 11
def St.ACCESS : Nat := 12
def St.SPM_UE : Nat := 13

/-! ### Addresses -/

/-- The base of engine `e`'s near slot (R206). -/
def nearBase (e : Nat) : Nat := 0x400000000000 + e * 0x4000000000

/-- The base of engine `e`'s scratchpad region (07 R175, R176). -/
def spadBase (e : Nat) : Nat := 0x700000000000 + e * 0x100000000

/-- Blocks that each stack contributes to the spread view (R209). -/
def spreadW (limit : Nat) : Nat := (2044 - limit) * 8192

/-- XOR of the 5-bit pieces of bits 24:0 (R209). -/
def fold5 (x : Nat) : Nat :=
  [5, 10, 15, 20].foldl (fun f i => Nat.xor f (bits x (i + 4) i)) (bits x 4 0)

/-- The stack and local block of a spread block (R209). -/
def spreadPlace (limit b : Nat) : Nat × Nat :=
  let g := b % 3
  let q := b / 3
  let x := q / 32
  (32 * g + Nat.xor (q % 32) (fold5 x), limit * 8192 + x)

/-- The panel address of a local block of stack `t` (the inverse of R207 and R209). -/
def blockAddr (limit t j : Nat) : Nat :=
  if j < limit * 8192 then nearBase (t / 2) + (2 * j + t % 2) * 4096
  else
    let x := j - limit * 8192
    let q := x * 32 + Nat.xor (t % 32) (fold5 x)
    (3 * q + t / 32) * 4096

/-- What a panel address names (R206 to R210, 07 R175, 13 R353, 15 R414). -/
inductive Target where
  | near (e n : Nat)
  | spread (t j byte : Nat)
  | spad (e off : Nat)
  | feed (p f : Nat)
  | guest (g off : Nat)
  | unmapped
  deriving DecidableEq, Repr

/-- The target of a panel address. -/
def State.target (s : State) (a : Nat) : Target :=
  if a < 96 * spreadW s.limit * 4096 then
    let (t, j) := spreadPlace s.limit (a / 4096)
    .spread t j (a % 4096)
  else if 0x400000000000 ≤ a ∧ a < nearBase 48 then .near ((a - 0x400000000000) / 0x4000000000) (a % 0x4000000000)
  else if 0x700000000000 ≤ a ∧ a < spadBase 48 then .spad ((a - 0x700000000000) / 0x100000000) (a % 0x100000000)
  else if 0x740000000000 ≤ a ∧ a < 0x750000000000 then
    .guest ((a - 0x740000000000) / 0x4000000000) (a % 0x4000000000)
  else if 0x780000000000 ≤ a ∧ a < 0x780000200000 then
    .feed ((a - 0x780000000000) / 0x100000) (a % 0x100000 / 0x10000)
  else .unmapped

/-- The panel address of an engine-relative address on engine `e`; none for any other value (R206). -/
def engRel (e r : Nat) : Option Nat :=
  if r < 0x4000000000 then some (nearBase e + r)
  else if 0x8000000000 ≤ r ∧ r < 0x8100000000 then some (spadBase e + (r - 0x8000000000))
  else none

/-- The scratchpad and byte of an offset within an engine's scratchpad region (07 R175, R176). -/
def spadOf (e off : Nat) : Option (SpRef × Nat) :=
  if off < 0x10000000 then some (.hub e, off)
  else if 0x40000000 ≤ off ∧ off < 0x80000000 then
    let o := off - 0x40000000
    let d := o / 0x10000000
    let c := o % 0x10000000 / 0x20000
    if c < 864 then some (.cell e d c, o % 0x20000) else none
  else none

/-- The near offset that engine `e` uses for a near address of the work it runs: an activated standby maps addresses
below STATIC_LEN to the static copy of the adopted slot (R206, 06 R171). -/
def State.nearOff (s : State) (e n : Nat) : Nat :=
  let g := s.eng e
  match g.adopted with
  | some _ => if n < g.staticLen then g.slotBase + n else n
  | none => n

/-- The engine that holds engine `e`'s PRIMARY FEID (11 R280, R281). -/
def State.holder (s : State) (e : Nat) : Nat :=
  match SMap.find? s.primary e with
  | some i => SMap.getD s.edgeFeid i e % 64
  | none => e

/-- Whether a position is down (11 R286). -/
def State.posDown (s : State) (p : Nat) : Bool := s.edgeDown.contains p

/-- Whether a stack serves its blocks (R211, ENG_HUB_INFO.SERVED). -/
def State.serves (s : State) (t : Nat) : Bool :=
  bit (s.fld (Reg.ENG_HUB_INFO (t / 2)) Fld.ENG_HUB_INFO.SERVED) (t % 2)

/-! ### The block check (R213) -/

/-- The ECMA-182 polynomial. -/
def crcPoly : Nat := 0x42F0E1EBA9EA3693

/-- One bit of the CRC-64. -/
def crcBit (r : Nat) : Nat :=
  if 2 ^ 63 ≤ r then Nat.xor ((r * 2) % 2 ^ 64) crcPoly else r * 2

/-- One byte of the CRC-64, most significant bit first. -/
def crcByte (r : Nat) (b : Byte) : Nat :=
  let r0 := Nat.xor r (b.toNat * 2 ^ 56)
  crcBit (crcBit (crcBit (crcBit (crcBit (crcBit (crcBit (crcBit r0)))))))

/-- CRC-64/WE: preset to all ones, not reflected, inverted at the end. -/
def crc64 (bs : List Byte) : Nat := Nat.xor (bs.foldl crcByte (2 ^ 64 - 1)) (2 ^ 64 - 1)

/-- The check word of a block in its place. -/
def checkWord (t j : Nat) (bs : List Byte) : Nat := Nat.xor (crc64 bs) (t * 2 ^ 32 + j)

/-- The byte address of local block `j` of stack `t` in the stacks. -/
def blockKey (t j : Nat) : Nat := t * 2 ^ 36 + j * 4096

/-- The byte address of a block's check word, in the check region (R210, R213). -/
def checkKey (t j : Nat) : Nat := t * 2 ^ 36 + 16744448 * 4096 + 8 * j

/-- The bytes of a stored block. -/
def State.blockRaw (s : State) (t j : Nat) : List Byte := Memory.readN s.hbm (blockKey t j) 4096

/-- Whether a stored block matches its check word. A block that was never written whole does not (R217). -/
def State.blockGood (s : State) (t j : Nat) : Bool :=
  leNat (Memory.readN s.hbm (checkKey t j) 8) == checkWord t j (s.blockRaw t j)

/-- Mark a block of the spread view that lies in a region of the pair (14 R393). -/
def State.pairMark (s : State) (a : Nat) : State :=
  let st := s.fld Reg.LNK_PAIR_STAT Fld.LNK_PAIR_STAT.STATE
  if st < 2 ∨ 4 < st ∨ s.pair.marks.contains (a / 4096) then s
  else if (List.range 16).any fun i =>
      let b := s.rdN (Reg.LNK_PAIR_REGION i 0)
      decide (b ≤ a / 65536 ∧ a / 65536 < b + s.fld (Reg.LNK_PAIR_REGION i 1) Fld.LNK_PAIR_REGION.LEN)
    then { s with pair := { s.pair with marks := s.pair.marks ++ [a / 4096] } }
  else s

/-- Store a whole block with a new check word (R214); a block of the spread view may be marked for the pair. -/
def State.blockStore (s : State) (t j : Nat) (bs : List Byte) : State :=
  let s0 := if s.limit * 8192 ≤ j then s.pairMark (blockAddr s.limit t j) else s
  { s0 with hbm := Memory.writeN (Memory.writeN s.hbm (blockKey t j) bs) (checkKey t j) (leBytes 8 (checkWord t j bs)) }

/-- Capture a check failure in ENG_CHK_FAIL_AT (R217). -/
def State.chkCapture (s : State) (t j : Nat) : State :=
  let e := t / 2
  let r1 := Reg.ENG_CHK_FAIL_AT e 1
  if s.flag r1 Fld.ENG_CHK_FAIL_AT.VALID then s.satFld r1 Fld.ENG_CHK_FAIL_AT.FAILS 1
  else
    let a := blockAddr s.limit t j
    (s.wr (Reg.ENG_CHK_FAIL_AT e 0) (bits a 43 12)).wr r1 (2 ^ 31 + 2 ^ 4 + bits a 47 44)

/-- A failed check: captured, and reported by the engine that holds the block; `consumer` is the engine whose step would
have used it (R217, 18 R474). -/
def State.checkFail (s : State) (t j : Nat) (consumer : Option Nat) : State :=
  (s.chkCapture t j).faultFor Src.HUB_CHECK_FAIL (t / 2) 0 false consumer

/-- The key of a block in `Engine.hbmUe`. -/
def ueKey (t j : Nat) : Nat := t % 2 * 2 ^ 24 + j

/-- Read and verify one block from its stack (R202, R215): the status and the bytes. -/
def State.blockFetch (s : State) (t j : Nat) (consumer : Option Nat) : State × Nat × List Byte :=
  let e := t / 2
  if (s.eng e).hbmUe.contains (ueKey t j) then
    let s1 := s.onEng e fun g => { g with hbmUe := g.hbmUe.erase (ueKey t j) }
    let s2 := s1.satFld (Reg.MC_ERR e (t % 2)) Fld.MC_ERR.UE 1
    (s2.faultFor Src.HUB_HBM_UE e 0 false consumer, St.HBM_UE, [])
  else if s.blockGood t j then (s, St.OK, s.blockRaw t j)
  else (s.checkFail t j consumer, St.CHECK_FAIL, [])

/-! ### Assembly buffers (R216) -/

/-- The assembly buffer of a block, if one is open. -/
def State.asmOf (s : State) (t j : Nat) : Option AsmBuf :=
  (s.eng (t / 2)).asm.find? fun b => b.stack == t % 2 && b.block == j

/-- Close the buffer of a block. -/
def State.asmDrop (s : State) (t j : Nat) : State :=
  s.onEng (t / 2) fun g => { g with asm := g.asm.filter fun b => !(b.stack == t % 2 && b.block == j) }

/-- Lay bytes over a list at an offset. -/
def overlay (base : List Byte) (off : Nat) (bs : List Byte) : List Byte :=
  base.take off ++ bs ++ base.drop (off + bs.length)

/-- Lay held bytes over a block. -/
def layHeld (held : SMap Byte) (base : List Byte) (off : Nat) : List Byte :=
  match base with
  | [] => []
  | b :: bs => (SMap.find? held off).getD b :: layHeld held bs (off + 1)

/-- Whether held bytes cover a range. -/
def heldCovers (held : SMap Byte) (off n : Nat) : Bool :=
  (List.range n).all fun i => (SMap.find? held (off + i)).isSome

/-- Complete a buffer: read the block, verify its old check, merge, and write it whole; a merge whose block fails is
discarded whole and aborts no step (R216, R217). -/
def State.asmComplete (s : State) (t j : Nat) : State :=
  match s.asmOf t j with
  | none => s
  | some b =>
    let s1 := s.asmDrop t j
    let (s2, st, bs) := s1.blockFetch t j none
    if st = St.OK then s2.blockStore t j (layHeld b.bytes bs 0) else s2

/-- Put bytes in a map from an offset on. -/
def putBytes (m : SMap Byte) (off : Nat) : List Byte → SMap Byte
  | [] => m
  | b :: bs => putBytes (SMap.put m off b) (off + 1) bs

/-- Hold a partial write: the oldest buffer is completed first when 64 are in use; a block whose every byte is held is
written whole (R216). -/
def State.asmHold (s : State) (t j off : Nat) (bs : List Byte) : State :=
  let e := t / 2
  let s1 : State := match s.asmOf t j with
    | some _ => s
    | none =>
      let s0 := if 64 ≤ (s.eng e).asm.length then
          (match (s.eng e).asm with
           | b :: _ => s.asmComplete (2 * e + b.stack) b.block
           | [] => s)
        else s
      s0.onEng e fun g => { g with asm := g.asm ++ [⟨t % 2, j, [], s0.now⟩] }
  let s2 := s1.onEng e fun g => { g with asm := g.asm.map fun b =>
    if b.stack == t % 2 && b.block == j then { b with bytes := putBytes b.bytes off bs } else b }
  match s2.asmOf t j with
  | some b =>
    if b.bytes.length = 4096 then (s2.asmDrop t j).blockStore t j (b.bytes.map (·.2)) else s2
  | none => s2

/-- A write to part or all of a block. A whole write discards what is held (R216). -/
def State.hbmWrite (s : State) (t j off : Nat) (bs : List Byte) : State × Nat :=
  if bs.length = 4096 then ((s.asmDrop t j).blockStore t j bs, St.OK)
  else (s.asmHold t j off bs, St.OK)

/-- A read of part of a block: from the held bytes where they cover it, else the verified block with the held bytes laid
over it (R215, R216). -/
def State.hbmRead (s : State) (t j off n : Nat) (consumer : Option Nat) : State × Nat × List Byte :=
  match s.asmOf t j with
  | some b =>
    if heldCovers b.bytes off n then
      (s, St.OK, (List.range n).map fun i => (SMap.find? b.bytes (off + i)).getD 0#8)
    else
      let (s1, st, bs) := s.blockFetch t j consumer
      (s1, st, if st = St.OK then slice (layHeld b.bytes bs 0) off n else [])
  | none =>
    let (s1, st, bs) := s.blockFetch t j consumer
    (s1, st, if st = St.OK then slice bs off n else [])

/-! ### Remote accesses to scratchpads (07 R191, R192) -/

/-- The refusal of a remote access is reported to the engine's fault collection (07 R191). -/
def State.remoteRefused (s : State) (e : Nat) : State := s.fault Src.REMOTE_REFUSED e 0

/-- Whether a remote write's counter is one that its target has; a write that counts nothing names none (07 R191, R223). -/
def counterOk (have' : Nat) : Option Nat → Bool
  | some n => decide (n < have')
  | none => true

/-- Raise an arrival counter by `k`, modulo 2^32 (07 R192). -/
def State.countUp (s : State) (r : SpRef) (n k : Nat) : State :=
  match r with
  | .cell e d c => s.onCell e d c fun x => x.setAcnt n (BitVec.ofNat 32 ((x.acntOf n).toNat + k))
  | .hub e => s.addFld (Reg.ENG_ACNT e n) Fld.ENG_ACNT.COUNT k

/-- Raise a counter where one is named. -/
def State.countMay (s : State) (r : SpRef) (n : Option Nat) (k : Nat) : State :=
  match n with
  | some c => s.countUp r c k
  | none => s

/-- Counters that a scratchpad's owner has (07 R191). -/
def SpRef.counters : SpRef → Nat
  | .cell _ _ _ => 16
  | .hub _ => 256

/-- A remote write to a scratchpad: refused whole, or written and counted. One that meets a cell held in reset waits at
the die (17 R459); one that meets a die held in reset completes with TARGET_RESET (17 R460). -/
def State.remoteWrite (s : State) (r : SpRef) (a : Nat) (bs : List Byte) (counter : Option Nat) : State × Nat :=
  let n := bs.length
  let shape := decide (8 ≤ n ∧ n ≤ 4096) && a % 8 == 0 && n % 8 == 0 && decide (a / 4096 = (a + n - 1) / 4096)
  if !shape then (s.remoteRefused r.engine, St.ALIGN)
  else
    let held := match r with
      | .cell e d _ => (s.fab e d).held
      | .hub _ => false
    if held then (s, St.TARGET_RESET)
    else if !counterOk r.counters counter || !s.spRangeOpen r a n then (s.remoteRefused r.engine, St.REFUSED)
    else match r with
      | .cell e d c =>
        if (s.cell e d c).held then
          (s.onCell e d c fun k => { k with waits := k.waits ++ [⟨a, bs, counter⟩] }, St.OK)
        else ((s.spWriteWords r a bs).countMay r counter (n / 8), St.OK)
      | .hub _ => ((s.spWriteWords r a bs).countMay r counter (n / 8), St.OK)

/-- A remote read of a scratchpad: whole words are read and the bytes asked for returned; an uncorrectable word completes
with SPM_UE and raises HUB_SPM_UE (07 R189, R191). -/
def State.remoteRead (s : State) (r : SpRef) (a n : Nat) (consumer : Option Nat) : State × Nat × List Byte :=
  if !(decide (1 ≤ n ∧ n ≤ 4096) && decide (a / 4096 = (a + n - 1) / 4096)) then (s, St.ALIGN, [])
  else
    let held := match r with
      | .cell e d _ => (s.fab e d).held
      | .hub _ => false
    if held then (s, St.TARGET_RESET, [])
    else if !s.spRangeOpen r a n then (s.remoteRefused r.engine, St.REFUSED, [])
    else
      let (s1, bs, bad) := s.spReadBytes r a n
      match bad with
      | some _ => (s1.faultFor Src.HUB_SPM_UE r.engine 0 false consumer, St.SPM_UE, [])
      | none => (s1, St.OK, bs)

/-! ### One access by panel address -/

/-- The stack, local block and byte of a near offset on engine `e`, if it lies in the near part (R207, R210). -/
def State.nearPlace (s : State) (e n : Nat) : Option (Nat × Nat × Nat) :=
  if n < s.limit * 0x4000000 then
    let k := n / 4096
    some (2 * e + k % 2, k / 2, n % 4096)
  else none

/-- Read at most 4 KiB within one 4 KiB block (R219). `consumer` is the engine that asks, if one does. -/
def State.memRead (s : State) (a n : Nat) (consumer : Option Nat) : State × Nat × List Byte :=
  match s.target a with
  | .spread t j b =>
    if !s.serves t then (s, St.SPREAD_LOST, []) else s.hbmRead t j b n consumer
  | .near e off =>
    let h := s.holder e
    if s.posDown h then (s, St.TARGET_RESET, [])
    else match s.nearPlace h (s.nearOff h off) with
      | some (t, j, b) => s.hbmRead t j b n consumer
      | none => (s, St.ADDR_UNMAPPED, [])
  | .spad e off =>
    let h := s.holder e
    if s.posDown h then (s, St.TARGET_RESET, [])
    else match spadOf h off with
      | some (r, x) => s.remoteRead r x n consumer
      | none => (s, St.ADDR_UNMAPPED, [])
  | .feed _ _ => (s, St.ACCESS, [])
  | .guest _ _ => (s, St.ADDR_UNMAPPED, [])
  | .unmapped => (s, St.ADDR_UNMAPPED, [])

/-- Write at most 4 KiB within one 4 KiB block, naming an arrival counter for a scratchpad (R219). -/
def State.memWrite (s : State) (a : Nat) (bs : List Byte) (counter : Option Nat) : State × Nat :=
  match s.target a with
  | .spread t j b =>
    if !s.serves t then (s, St.SPREAD_LOST) else s.hbmWrite t j b bs
  | .near e off =>
    let h := s.holder e
    if s.posDown h then (s, St.TARGET_RESET)
    else match s.nearPlace h (s.nearOff h off) with
      | some (t, j, b) => s.hbmWrite t j b bs
      | none => (s, St.ADDR_UNMAPPED)
  | .spad e off =>
    let h := s.holder e
    if s.posDown h then (s, St.TARGET_RESET)
    else match spadOf h off with
      | some (r, x) => s.remoteWrite r x bs counter
      | none => (s, St.ADDR_UNMAPPED)
  | .feed _ _ => (s, St.ACCESS)
  | .guest _ _ => (s, St.ADDR_UNMAPPED)
  | .unmapped => (s, St.ADDR_UNMAPPED)

/-- The panel address that engine `e` means by an engine-relative address, its static mapping applied (R206). -/
def State.relAddr (s : State) (e r : Nat) : Option Nat :=
  if r < 0x4000000000 then some (nearBase e + s.nearOff e r) else engRel e r

/-- Read an engine's own memory at an engine-relative address, past the routers. -/
def State.ownRead (s : State) (e r n : Nat) : State × Nat × List Byte :=
  if r < 0x4000000000 then
    match s.nearPlace e (s.nearOff e r) with
    | some (t, j, b) => s.hbmRead t j b n (some e)
    | none => (s, St.ADDR_UNMAPPED, [])
  else if 0x8000000000 ≤ r ∧ r < 0x8100000000 then
    match spadOf e (r - 0x8000000000) with
    | some (x, o) => s.remoteRead x o n (some e)
    | none => (s, St.ADDR_UNMAPPED, [])
  else (s, St.ADDR_UNMAPPED, [])

/-- Write an engine's own memory at an engine-relative address. -/
def State.ownWrite (s : State) (e r : Nat) (bs : List Byte) (counter : Option Nat) : State × Nat :=
  if r < 0x4000000000 then
    match s.nearPlace e (s.nearOff e r) with
    | some (t, j, b) => s.hbmWrite t j b bs
    | none => (s, St.ADDR_UNMAPPED)
  else if 0x8000000000 ≤ r ∧ r < 0x8100000000 then
    match spadOf e (r - 0x8000000000) with
    | some (x, o) => s.remoteWrite x o bs counter
    | none => (s, St.ADDR_UNMAPPED)
  else (s, St.ADDR_UNMAPPED)

/-- An access of engine `e` in space 0 (panel) or 1 (engine-relative). -/
def State.engRead (s : State) (e space a n : Nat) : State × Nat × List Byte :=
  if space = 0 then s.memRead a n (some e) else s.ownRead e a n

/-- A write of engine `e` in space 0 (panel) or 1 (engine-relative). -/
def State.engWrite (s : State) (e space a : Nat) (bs : List Byte) (counter : Option Nat) : State × Nat :=
  if space = 0 then s.memWrite a bs counter else s.ownWrite e a bs counter

/-- A range cut at 4 KiB boundaries: the pieces' offsets and lengths (fuel bounds the count). -/
def pieces (a n : Nat) : Nat → List (Nat × Nat)
  | 0 => []
  | k + 1 =>
    if n = 0 then []
    else
      let l := min n (4096 - a % 4096)
      (a, l) :: pieces (a + l) (n - l) k

/-- Read pieces one after another, up to the first that fails. -/
def State.readPieces (s : State) (consumer : Option Nat) : List (Nat × Nat) → State × Nat × List Byte
  | [] => (s, St.OK, [])
  | (a, n) :: l =>
    let (s1, st, bs) := s.memRead a n consumer
    if st ≠ St.OK then (s1, st, [])
    else
      let (s2, st2, bs2) := s1.readPieces consumer l
      (s2, st2, bs ++ bs2)

/-- Read a range by panel address, in address order, up to the first block that fails. -/
def State.readRange (s : State) (a n : Nat) (consumer : Option Nat) : State × Nat × List Byte :=
  s.readPieces consumer (pieces a n (n / 4096 + 2))

end Sys2Proof.Machine
end

