-- ==== Sys2Proof/Machine/Study.lean ====
section
/-! DEFINITION. Snapshots, records and exports of value studies, and the stall-counter clear (10_value_studies R259 to R267). -/
namespace Sys2Proof.Machine

/-- Whether a snapshot can be taken (R261). -/
def State.vsOpen (s : State) (e : Nat) : Bool :=
  s.flag (Reg.VS_STATUS e) Fld.VS_STATUS.READY && !s.flag (Reg.VS_STATUS e) Fld.VS_STATUS.EXP_BUSY

/-- A snapshot request (R259, R261): the banks swap, or VS_MISSED counts it. `load`: at the t0 of a canvas load. -/
def State.vsSnap (s : State) (e : Nat) (load : Bool) : State :=
  if !s.vsOpen e then s.satFld (Reg.VS_MISSED e) Fld.VS_MISSED.MISSED 1
  else
    let t := s.engTicks e
    (s.onEng e fun g => { g with study := { g.study with
      live := [], frozen := g.study.live, seq := g.study.seq + 1, tSnap := t, tPrev := g.study.tSnap
      liveLoad := load, frozenLoad := g.study.liveLoad, frozenStreams := g.study.streams } }).setFlag
      (Reg.VS_STATUS e) Fld.VS_STATUS.READY false

/-- A count of the frozen bank; slot 0 sums streams 1 to 15 (R262). -/
def Study.count (t : Study) (slot ix : Nat) : Nat :=
  if slot = 0 then ((List.range 15).foldl (fun a k => a + SMap.getD t.frozen ((k + 1) * 128 + ix) 0) 0) % 2 ^ 64
  else if (SMap.find? t.frozenStreams slot).isSome then SMap.getD t.frozen (slot * 128 + ix) 0
  else 0

/-- The 1,024-byte record of a slot (R263). Slot 0 reads as defined (log 23). -/
def Study.record (t : Study) (e slot : Nat) : List Byte :=
  let d := slot == 0 || (SMap.find? t.frozenStreams slot).isSome
  leBytes 8 t.seq ++ leBytes 8 t.tSnap ++ leBytes 8 t.tPrev ++ leBytes 4 (SMap.getD t.frozenStreams slot 0)
    ++ leBytes 1 slot ++ leBytes 1 e ++ leBytes 1 (b2n d + 2 * b2n t.frozenLoad) ++ leBytes 33 0
    ++ (List.range 104).flatMap (fun ix => leBytes 8 (t.count slot ix)) ++ leBytes 128 0

/-- The panel address of the export region (R264). -/
def State.vsAddr (s : State) (e : Nat) : Nat :=
  (s.rdN (Reg.VS_EXPORT_ADDR e 0) + s.fld (Reg.VS_EXPORT_ADDR e 1) Fld.VS_EXPORT_ADDR.ADDR_HI * 2 ^ 32) * 4096

/-- Write an export: four whole blocks, four records each, up to the first that fails (R264). A region outside the near and
spread views is unmapped (log 24). -/
def State.vsWrite (s : State) (e : Nat) : Nat → State × Nat
  | 0 => (s, St.OK)
  | n + 1 =>
    let k := 3 - n
    let a := s.vsAddr e + 4096 * k
    let bs := (List.range 4).flatMap fun i => (s.eng e).study.record e (4 * k + i)
    let inView := match s.target a with
      | .near _ _ => true
      | .spread _ _ _ => true
      | _ => false
    let (s1, st) := if inView then s.memWrite a bs none else (s, St.ADDR_UNMAPPED)
    if st ≠ St.OK then (s1, st) else s1.vsWrite e n

/-- A write of VS_CTRL: SNAP requests a snapshot, the other fields are kept (R259). -/
def State.opVsCtrl (s : State) (e v : Nat) : State :=
  let s1 := s.plainWrite (Reg.VS_CTRL e) v
  if bit v 0 then s1.vsSnap e false else s1

/-- VS_SNAP (R259, R261): a snapshot is taken, or counted as missed. -/
def execVsSnap (r : Req) (e : EngIx) (v : Word) (s : State) : Answer :=
  .next (s.gated r (Reg.VS_CTRL e) v.toNat fun s => s.opVsCtrl e v.toNat)

/-- VS_READY (R261, R264): the frozen bank is complete, READY rises, and an export starts if it is enabled. -/
def execVsReady (e : EngIx) (s : State) : Answer :=
  let a := Reg.VS_STATUS e
  if s.flag a Fld.VS_STATUS.READY then .next s
  else
    let s1 := s.setFlag a Fld.VS_STATUS.READY true
    .next (if s1.flag (Reg.VS_CTRL e) Fld.VS_CTRL.EXPORT_EN then s1.setFlag a Fld.VS_STATUS.EXP_BUSY true else s1)

/-- VS_EXPORT_DONE (R264): the export's blocks are written; one that fails stops it and is reported. -/
def execVsExportDone (e : EngIx) (s : State) : Answer :=
  let a := Reg.VS_STATUS e
  if !s.flag a Fld.VS_STATUS.EXP_BUSY then .next s
  else
    let (s1, st) := s.vsWrite e 4
    let s2 := (s1.setFlag a Fld.VS_STATUS.EXP_BUSY false).setFld a Fld.VS_STATUS.EXP_CODE st
    .next (if st = St.OK then s2 else s2.fault Src.VS_EXPORT_FAIL e st)

/-- VS_MISSED_CLEAR (R272): a write of any value clears VS_MISSED. -/
def execVsMissedClear (r : Req) (e : EngIx) (v : Word) (s : State) : Answer :=
  .next (s.gated r (Reg.VS_MISSED e) v.toNat fun s => s.rstReg (Reg.VS_MISSED e))

/-- Whether an address is a stall counter of a cell of engine `e`. -/
def cellStallAt (e k : Nat) : Bool :=
  let lo := Reg.CEL_STALL e 0 0 0
  let die := Reg.CEL_STALL e 1 0 0 - lo
  decide (lo ≤ k ∧ k < lo + 5 * die ∧ (k - lo) % die < 864 * 0x200 ∧ (k - lo) % die % 0x200 < 72)

/-- Zero every stall counter of an engine: those of its cells, of the hub and of the router (R267). -/
def State.stallClear (s : State) (e : Nat) : State :=
  let hit := fun k : Nat =>
    decide (Reg.VS_HST e 0 ≤ k ∧ k < Reg.VS_HST e 10) || decide (Reg.VS_RST e 0 ≤ k ∧ k < Reg.VS_RST e 12)
      || cellStallAt e k
  { s with regs := s.regs.filter fun p => !hit p.1 }

/-- A write of VS_STALL_CTRL (R267). -/
def State.opStallCtrl (s : State) (e v : Nat) : State :=
  let s1 := s.plainWrite (Reg.VS_STALL_CTRL e) v
  if bit v 1 then s1.stallClear e else s1

/-- STALL_CLEAR (R267): CLEAR zeroes every stall counter of the engine. -/
def execStallClear (r : Req) (e : EngIx) (v : Word) (s : State) : Answer :=
  .next (s.gated r (Reg.VS_STALL_CTRL e) v.toNat fun s => s.opStallCtrl e v.toNat)

end Sys2Proof.Machine
end

