-- ==== Sys2Proof/Machine/Sequence.lean ====
section
/-! DEFINITION. The glaze sequence as operations: the nominal grid (12_clocks_cadence R316, R320), the start of a sequence and
of a run, the ends of streams (08 R227, R228), the queue check of a switch (05 R132), and power-up of cell banks
(07 R183, R186). -/
namespace Sys2Proof.Machine

/-! ### The nominal grid (12 R316, R317, R320) -/

/-- CAD_PART_ORIGIN of a partition. -/
def State.partOrigin (s : State) (p : Nat) : Nat :=
  s.rdN (Reg.CAD_PART_ORIGIN p 0) + s.rdN (Reg.CAD_PART_ORIGIN p 1) * 2 ^ 32

/-- CAD_PART_PERIOD of a partition. -/
def State.partPeriod (s : State) (p : Nat) : Nat := s.rdN (Reg.CAD_PART_PERIOD p)

/-- CAD_PART_PERIOD of the partition of an engine; 0 where it has none. -/
def State.gridPeriod (s : State) (e : Nat) : Nat :=
  match s.partOf e with
  | some p => s.partPeriod p.id
  | none => 0

/-- CAD_PART_ORIGIN of the partition of an engine. -/
def State.gridOrigin (s : State) (e : Nat) : Nat :=
  match s.partOf e with
  | some p => s.partOrigin p.id
  | none => 0

/-- The number of the first nominal period that starts at tick `t` or later. -/
def firstNominal (origin period t : Nat) : Nat :=
  if t ≤ origin then 0 else (t - origin + (period - 1)) / period

/-- Nominal start `n` of an engine's partition. -/
def State.nominal (s : State) (e n : Nat) : Nat := s.gridOrigin e + n * s.gridPeriod e

/-- The period plan of an engine's canvas, if it has one. -/
def State.plan (s : State) (e : Nat) : Option (List Byte) := (s.eng e).canvas.body 8 0xFF 0xFF

/-- PHASE_COUNT, the START and KIND of phase `k`, and where phase `k` ends, of a plan. -/
def planCount (x : List Byte) : Nat := byteAt x 8
def planStart (x : List Byte) (k : Nat) : Nat := leAt x (16 + 16 * k) 8
def planKind (x : List Byte) (k : Nat) : Nat := byteAt x (24 + 16 * k)
def planEnd (x : List Byte) (k : Nat) : Nat := if k + 1 < planCount x then planStart x (k + 1) else leAt x 0 8

/-- The planned length of phase `k`. -/
def planned (x : List Byte) (k : Nat) : Nat := planEnd x k - planStart x k

/-- Whether a phase kind is elastic (R317). -/
def elastic (kind : Nat) : Bool := decide (2 ≤ kind)

/-- The budget of a period: floor(SHARE × E / 100) (R321). -/
def planBudget (x : List Byte) : Nat :=
  let e := ((List.range (planCount x)).map fun k => if elastic (planKind x k) then planned x k else 0).sum
  let share := if byteAt x 9 = 0 then 25 else byteAt x 9
  share * e / 100

/-- No period plan runs (12 R324). -/
def State.planOff (s : State) (e : Nat) : State :=
  (s.setFlag (Reg.CAD_ENG_PHASE e) Fld.CAD_ENG_PHASE.PLAN false).wr (Reg.CAD_ENG_BUDGET e) 0

/-- An engine waits for nominal period `n` with a lag of 0; its plan counts as running (log 33). -/
def State.awaitPeriod (s : State) (e n : Nat) : State :=
  ((s.onEng e fun g => { g with
    canvas := { g.canvas with running := false, waitPeriod := true }
    sched := { startAt := s.nominal e n, n := n } }).setFlag (Reg.CAD_ENG_PHASE e) Fld.CAD_ENG_PHASE.PLAN true).wr
    (Reg.CAD_ENG_BUDGET e) 0

/-! ### Runs (06 R156 to R158) -/

/-- GLAZE and REPEAT of step `k` of an engine's plan of glazes (06 R149). -/
def Canvas.step (cv : Canvas) (k : Nat) : Nat × Nat :=
  let x := (cv.body 1 0xFF 0xFF).getD []
  (byteAt x (8 + 4 * k), leAt x (10 + 4 * k) 2)

/-- STEP_COUNT. -/
def Canvas.steps (cv : Canvas) : Nat := byteAt ((cv.body 1 0xFF 0xFF).getD []) 0

/-- Put ENG_CANVAS_POS. -/
def State.setPos (s : State) (e step glaze left : Nat) : State :=
  s.wr (Reg.ENG_CANVAS_POS e) (left * 2 ^ 16 + glaze * 2 ^ 8 + step)

/-- Every cell of the engine stands at slot 0 of the run, with its iteration count at 0 (R156). -/
def State.cellsToStart (s : State) (e : Nat) : State :=
  s.onCells e none fun k => { k with slot := 0, iter := 0, ended := false, issue := none }

/-- The sequence begins at step 0. -/
def State.beginSeq (s : State) (e : Nat) : State :=
  let (g, n) := (s.eng e).canvas.step 0
  ((s.setPos e 0 g (n - 1)).cellsToStart e).onEng e fun x =>
    { x with canvas := { x.canvas with running := true, waitPeriod := false, switchStuck := false } }

/-- The streams of an engine's canvas with their numbers (08 R226). -/
def State.streamRecs (s : State) (e : Nat) : List (Nat × StreamRec) :=
  let x := ((s.eng e).canvas.body 9 0xFF 0xFF).getD []
  (List.range (leAt x 0 2)).zip (streamsOf x)

/-- A stream's place. -/
def State.streamSt (s : State) (e i : Nat) : StreamSt := SMap.getD (s.eng e).streams i { }

/-- Put a stream's place. -/
def State.setStream (s : State) (e i : Nat) (t : StreamSt) : State :=
  s.onEng e fun g => { g with streams := SMap.set { } g.streams i t }

/-- The entries that a stream moves in one run. -/
def StreamRec.total (t : StreamRec) : Nat := t.rowLen / 64 * t.rows

/-- The streams of the ending glaze end (R227, R228): a READ stream short of its last row is counted in CUT. -/
def State.streamsEnd (s : State) (e g : Nat) : State :=
  ((s.streamRecs e).filter fun p => bit p.2.glazes g).foldl (fun s p =>
    let t := s.streamSt e p.1
    let s1 := if p.2.role == 1 && decide (t.moved < p.2.total) && !t.stopped then
      s.satFld (Reg.ENG_STREAM_STAT e) Fld.ENG_STREAM_STAT.CUT 1 else s
    s1.setStream e p.1 { runs := t.runs + 1 }) s

/-- Whether every cell has ended its glaze and completed its operations (R156). A cell without slots has ended. -/
def State.allEnded (s : State) (e : Nat) : Bool :=
  (List.range 4).all fun d => (List.range 864).all fun c =>
    let k := s.cell e d c
    ((s.prog e d c).n == 0 || k.ended) && k.quiet (s.sent e d c)

/-- Whether every die has delivered its in-flight entries (05 R131). -/
def State.delivered (s : State) (e : Nat) : Bool :=
  ((List.range 4).all fun d => (s.fab e d).bufs == []) && (s.eng e).hubIn == []

/-! ### The queue check (05 R132) -/

/-- The network and point of a queue in FAB_FAULT_AT (05 R136). -/
def queuePoint (q : Nat) : Nat × Nat :=
  if q < 12 then (q / 4, 4 + q % 4)
  else
    let u := (q - 12) / 3
    let i := (q - 12) % 3
    if i = 2 then (2, 8 + u) else (u / 2, 8 + 2 * (u % 2) + i)

/-- The first queue of a die that holds entries and changes between two glazes. -/
def State.queueClash (s : State) (e d g g' : Nat) : Option (Nat × Nat) :=
  let cv := (s.eng e).canvas
  ((s.fab e d).queues.find? fun p =>
    let c := p.1 / 24
    let q := p.1 % 24
    let w := (cv.prog (cv.cellRec g d c)).ext q
    let w' := (cv.prog (cv.cellRec g' d c)).ext q
    p.2.len != 0 && (bits w 10 0 != bits w' 10 0 || (bits w 10 0 != 0 && bits w 21 11 != bits w' 21 11))).map
    fun p => (p.1 / 24, p.1 % 24)

/-- The queue check of a switch: a die with a clash raises QCHANGE. Answers whether the switch takes place. -/
def State.queueCheck (s : State) (e g g' : Nat) : State × Bool :=
  (List.range 4).foldl (fun (acc : State × Bool) d =>
    match acc.1.queueClash e d g g' with
    | some (c, q) => (acc.1.fabFault e d 3 c (queuePoint q).1 (queuePoint q).2, false)
    | none => acc) (s, true)

/-- The cycles t0 to t0 + 11 of a switch, in the stall counters (10 R268). -/
def State.switchStall (s : State) (e : Nat) : State :=
  if s.frozen e then s
  else (List.range 4).foldl (fun s d => (List.range 864).foldl (fun s c =>
    if (s.cell e d c).held then s else s.stall e d c Stall.SWITCH 12 0) s) s

/-! ### Cell banks at a load (07 R181, R183, R195) -/

/-- Put the bank states of a cell: an OFF bank asked to RETAIN stays OFF, and a bank that goes OFF loses its words (R181). -/
def Cell.setBanks (k : Cell) (want : Nat → Nat) : Cell :=
  (List.range 8).foldl (fun k b =>
    let old := SMap.getD k.banks b 0
    let new := if old = 2 ∧ want b = 1 then 2 else if want b = 3 then old else want b
    { k with
      banks := SMap.set 0 k.banks b new
      sp := if new = 2 ∧ old ≠ 2 then k.sp.loseBank 0x4000 b else k.sp }) k

/-- A die without BANK_POWER sets every bank ON (R195). -/
def State.banksOn (s : State) (e d : Nat) : State := s.onCells e (some d) fun k => { k with banks := [] }

/-- A BANK_POWER section takes effect (R195). -/
def State.banksApply (s : State) (e d : Nat) (x : List Byte) : State :=
  (List.range 864).foldl (fun s c =>
    let w := leAt x (4 * c) 2
    if w = 0 ∧ (s.cell e d c).banks = [] then s
    else s.onCell e d c fun k => k.setBanks fun b => bits w (2 * b + 1) (2 * b)) s

/-- Whether a BANK_POWER section fills any bank. -/
def fillsAny (x : List Byte) : Bool := (List.range 864).any fun c => byteAt x (4 * c + 2) != 0

/-- The zero-fill of a die completes: every marked bank that is ON holds zero words (R186). -/
def State.cellsZero (s : State) (e d : Nat) (x : List Byte) : State :=
  (List.range 864).foldl (fun s c =>
    (List.range 8).foldl (fun s b =>
      if bit (byteAt x (4 * c + 2)) b && s.bankState (.cell e d c) b == 0 then
        s.onCell e d c fun k => { k with sp := k.sp.zeroBank 0x4000 b }
      else s) s) s

/-- CELL_DATA of a die is written: records in order, each into banks that are open (06 R155; 07 R196). -/
def State.dataWrite (s : State) (e d : Nat) (x : List Byte) : State :=
  match cellData x with
  | none => s
  | some l => l.foldl (fun s r =>
    let (c, a, bs, _) := r
    if s.spRangeOpen (.cell e d c) a bs.length then s.spWriteWords (.cell e d c) a bs else s) s

/-- The contents of every scratchpad that a failed load had begun to write are undefined (06 R163; log 25). -/
def State.loadUndefined (s : State) (e : Nat) : State :=
  let cv := (s.eng e).canvas
  (List.range 4).foldl (fun s d =>
    let zeroed := (cv.body 0xB 0xFF d).getD []
    let data : Option (List Nat) := match cv.body 7 0xFF d with
      | none => some []
      | some x => if cv.dataWait.contains d then some []
        else (match cellData x with
          | some l => some (l.map (·.1))
          | none => none)
    (List.range 864).foldl (fun s c =>
      let hit := byteAt zeroed (4 * c + 2) != 0 || (match data with
        | some l => l.contains c
        | none => true)
      if hit then s.onCell e d c fun k => { k with sp := { } } else s) s) s

end Sys2Proof.Machine
end

