-- ==== Sys2Proof/Machine/Canvas.lean ====
section
/-! DEFINITION. Loading, starting, stopping and switching a canvas (06_canvases_glazes R156 to R165). -/
namespace Sys2Proof.Machine

/-! ### The container in memory (R160, R162) -/

/-- The panel address that ENG_CANVAS_ADDR names. -/
def State.canvasAddr (s : State) (e : Nat) : Nat := s.rdN (Reg.ENG_CANVAS_ADDR e) * 65536

/-- Whether `n` bytes from an address lie in one near part or in the spread view. -/
def State.viewHolds (s : State) (a n : Nat) : Bool :=
  match s.target a with
  | .near _ off => decide (off + n ≤ s.limit * 0x4000000)
  | .spread _ _ _ => decide (a + n ≤ 96 * spreadW s.limit * 4096)
  | _ => false

/-- The bytes that hold the header and the largest directory. -/
def headBytes : Nat := 1088

/-- The header and directory of the load in progress. -/
def State.loadHead (s : State) (e : Nat) : State × Nat × List Byte :=
  s.readRange (s.eng e).canvas.loadAddr headBytes (some e)

/-- The whole container of the load in progress, whose header has passed. -/
def State.loadAll (s : State) (e : Nat) : State × Nat × List Byte :=
  let (s1, st, h) := s.loadHead e
  if st ≠ St.OK then (s1, st, []) else s.readRange (s.eng e).canvas.loadAddr (hTotal h) (some e)

/-- A load ends with a failing code: STATE becomes EMPTY and no canvas is held (R163). -/
def State.loadFail (s : State) (e code : Nat) : State :=
  let s1 := ((s.loadUndefined e).loadEnd e code).setCvState e Cv.EMPTY
  s1.onEng e fun g => { g with canvas := { } }

/-! ### Commands of ENG_CANVAS_CTRL (R164) -/

/-- A refused command. -/
def State.cmdRej (s : State) (e : Nat) : State :=
  s.setFlag (Reg.ENG_CANVAS_STATUS e) Fld.ENG_CANVAS_STATUS.CMD_REJ true

/-- Forget the canvas. -/
def State.dropCanvas (s : State) (e : Nat) : State :=
  ((((s.onEng e fun g => { g with canvas := { }, sched := { }, streams := [] }).wr (Reg.ENG_CANVAS_ID e 0) 0).wr
    (Reg.ENG_CANVAS_ID e 1) 0).setPos e 0 0 0).planOff e

/-- Disarm a covered engine (R164, R167, R171): it sees code 7. -/
def State.disarm (s : State) (e code : Nat) : State :=
  let a := Reg.ENG_STBY_ARM e
  let s1 := (s.setFlag a Fld.ENG_STBY_ARM.ARMED false).setFld a Fld.ENG_STBY_ARM.ARM_CODE code
  let s2 := s1.onEng e fun g => { g with armAsk := false }
  match SMap.find? s2.armCopies e with
  | some b => ({ s2 with armCopies := SMap.erase s2.armCopies e }).onEng b fun g =>
      { g with commits := SMap.erase g.commits e }
  | none => s2

/-- Disarm every engine that a standby covers, but one if it is named. -/
def State.disarmAll (s : State) (b : Nat) (but : Option Nat) : State :=
  (s.armCopies.filter fun p => p.2 == b && some p.1 != but).foldl (fun s p => s.disarm p.1 7) s

/-- The t0 of a load (R161): the value-study snapshot, and the previous canvas and all its fabric state are gone. -/
def State.loadStart (s : State) (e : Nat) (standby : Bool) : State :=
  let s1 := (s.vsSnap e true).dropCanvas e
  let s2 := (s1.setCvState e Cv.LOADING).setFld (Reg.ENG_CANVAS_STATUS e) Fld.ENG_CANVAS_STATUS.CODE 0
  let s3 := s2.onEng e fun g => { g with
    canvas := { standby := standby, loadAddr := s.canvasAddr e, loadStart := s.now }
    hubIn := [], study := { g.study with streams := [] } }
  let s4 := (List.range 4).foldl (fun s d => s.setFab e d { held := (s.fab e d).held }) s3
  { s4 with cellParity := SMap.eraseRange s4.cellParity (cellKey e 0 0) 4096 }

/-- START: a canvas with a period plan waits for its first nominal start, another begins at once (R158, R165, 12 R320). -/
def State.startSeq (s : State) (e : Nat) : State :=
  let s1 := (s.setCvState e Cv.RUNNING).onEng e fun g => { g with streams := [] }
  match s1.plan e with
  | some _ => s1.awaitPeriod e (firstNominal (s1.gridOrigin e) (s1.gridPeriod e) (s1.stamp e))
  | none => s1.beginSeq e

/-- STATE becomes DONE and the sequence runs no more. -/
def State.seqStop (s : State) (e : Nat) : State :=
  ((s.setCvState e Cv.DONE).onEng e fun g => { g with
    canvas := { g.canvas with running := false, waitPeriod := false, switchStuck := false }, sched := { } }).planOff e

/-- LOAD. -/
def State.cmdLoad (s : State) (e : Nat) (standby : Bool) : State :=
  let c := s.cvState e
  if c = Cv.EMPTY ∨ c = Cv.READY ∨ c = Cv.DONE then s.loadStart e standby else s.cmdRej e

/-- START. -/
def State.cmdStart (s : State) (e : Nat) : State :=
  let c := s.cvState e
  if c = Cv.READY ∨ c = Cv.DONE then s.startSeq e else s.cmdRej e

/-- STOP: at a switch that failed its queue check, and while the engine stands there, STOPPING ends at once (R157, R164). -/
def State.cmdStop (s : State) (e : Nat) : State :=
  if s.cvState e = Cv.RUNNING then
    if (s.eng e).canvas.switchStuck then s.seqStop e else s.setCvState e Cv.STOPPING
  else s.cmdRej e

/-- UNLOAD. -/
def State.cmdUnload (s : State) (e : Nat) : State :=
  let c := s.cvState e
  if c = Cv.EMPTY then s
  else if c = Cv.READY ∨ c = Cv.DONE then (s.dropCanvas e).setCvState e Cv.EMPTY
  else if c = Cv.STANDBY then ((s.disarmAll e none).dropCanvas e).setCvState e Cv.EMPTY
  else s.cmdRej e

/-- A write of ENG_CANVAS_CTRL: one command acts, more than one are refused as a whole (R164). -/
def State.opCanvasCtrl (s : State) (e v : Nat) : State :=
  match v % 16 with
  | 0 => s
  | 1 => s.cmdLoad e (bit v 4)
  | 2 => s.cmdStart e
  | 4 => s.cmdStop e
  | 8 => s.cmdUnload e
  | _ => s.cmdRej e

/-- A requester's write of ENG_CANVAS_CTRL (R160). -/
def State.canvasCtrl (s : State) (r : Req) (e v : Nat) : State :=
  s.gated r (Reg.ENG_CANVAS_CTRL e) v fun s => s.opCanvasCtrl e v

/-- CANVAS_LOAD (R160, R161, R164). -/
def execCanvasLoad (r : Req) (e : EngIx) (s : State) : Answer := .next (s.canvasCtrl r e 0x01)

/-- CANVAS_LOAD_STANDBY (R161, R164, R168). -/
def execCanvasLoadStandby (r : Req) (e : EngIx) (s : State) : Answer := .next (s.canvasCtrl r e 0x11)

/-- CANVAS_START (R158, R164, R165). -/
def execCanvasStart (r : Req) (e : EngIx) (s : State) : Answer := .next (s.canvasCtrl r e 0x02)

/-- CANVAS_STOP (R157, R164). -/
def execCanvasStop (r : Req) (e : EngIx) (s : State) : Answer := .next (s.canvasCtrl r e 0x04)

/-- CANVAS_UNLOAD (R164). -/
def execCanvasUnload (r : Req) (e : EngIx) (s : State) : Answer := .next (s.canvasCtrl r e 0x08)

/-! ### The course of a load (R161 to R163) -/

/-- CANVAS_HEADER_CHECK (R162 stage 1): the first check of the header and directory that fails ends the load. -/
def execCanvasHeaderCheck (e : EngIx) (s : State) : Answer :=
  let cv := (s.eng e).canvas
  if s.cvState e ≠ Cv.LOADING ∨ cv.headerOk then .next s
  else if !s.viewHolds cv.loadAddr headBytes then .next (s.loadFail e Code.BAD_ADDR)
  else
    let (s1, st, b) := s.loadHead e
    if st ≠ St.OK then .next s
    else
      let code := firstFail [(Code.BAD_ADDR, s.viewHolds cv.loadAddr (hTotal b)), (Code.BAD_HEADER, headerOk 1 b),
        (Code.BAD_LAYOUT, layoutOk b)]
      let s2 := s1.onEng e fun g => { g with canvas := { g.canvas with image := hImage b } }
      if code ≠ 0 then .next (s2.loadFail e code)
      else
        let s3 := s2.onEng e fun g => { g with canvas := { g.canvas with headerOk := true } }
        .next ((List.range 4).foldl (fun s d =>
          if (directory b).any fun x => x.ty == 0xB && x.die == d then s else s.banksOn e d) s3)

/-- CANVAS_SECTION_APPLY (R161; 07 R183, R186): the next section of the directory arrives. -/
def execCanvasSectionApply (e : EngIx) (s : State) : Answer :=
  let cv := (s.eng e).canvas
  if s.cvState e ≠ Cv.LOADING ∨ !cv.headerOk then .next s
  else
    let (s1, st, h) := s.loadHead e
    if st ≠ St.OK then .next s
    else match (directory h)[cv.applied]? with
      | none => .next s
      | some x =>
        let (s2, st2, body) := s1.readRange (cv.loadAddr + x.off) x.len (some e.val)
        if st2 ≠ St.OK then .next s
        else
          let known := decide (1 ≤ x.ty ∧ x.ty ≤ 0xC)
          let s3 := s2.onEng e fun g => { g with canvas := { g.canvas with
            applied := g.canvas.applied + 1
            secs := if known then g.canvas.secs ++ [⟨x.ty, x.glaze, x.die, body⟩] else g.canvas.secs
            dataWait := if x.ty = 7 then g.canvas.dataWait ++ [x.die] else g.canvas.dataWait
            zeroWait := if x.ty = 0xB ∧ fillsAny body then g.canvas.zeroWait ++ [x.die] else g.canvas.zeroWait } }
          .next (if x.ty = 0xB then s3.banksApply e x.die body else s3)

/-- CELL_ZERO_FILL_DONE (07 R186): the zero-fill of a die completes at load. -/
def execCellZeroFillDone (e : EngIx) (d : DieIx) (s : State) : Answer :=
  let cv := (s.eng e).canvas
  if s.cvState e ≠ Cv.LOADING ∨ !cv.zeroWait.contains d.val then .next s
  else
    let s1 := s.onEng e fun g => { g with canvas := { g.canvas with zeroWait := g.canvas.zeroWait.filter (· != d.val) } }
    .next (s1.cellsZero e d ((cv.body 0xB 0xFF d).getD []))

/-- CELL_DATA_WRITE (06 R155, R161; 07 R186): the CELL_DATA of a die is written once its zero-fill has completed. -/
def execCellDataWrite (e : EngIx) (d : DieIx) (s : State) : Answer :=
  let cv := (s.eng e).canvas
  if s.cvState e ≠ Cv.LOADING ∨ !cv.dataWait.contains d.val ∨ cv.zeroWait.contains d.val then .next s
  else
    let s1 := s.onEng e fun g => { g with canvas := { g.canvas with dataWait := g.canvas.dataWait.filter (· != d.val) } }
    .next (s1.dataWrite e d ((cv.body 7 0xFF d).getD []))

/-- CANVAS_BLOCK_CHECK_FAIL (R162 stage 2, R163): a block of the container fails, which ends the load at once; any other failed
read ends it the same way (log 21). Where the fault of the failing block contains the engine, the containment has ended the load. -/
def execCanvasBlockCheckFail (e : EngIx) (s : State) : Answer :=
  let cv := (s.eng e).canvas
  if s.cvState e ≠ Cv.LOADING ∨ !s.viewHolds cv.loadAddr headBytes then .next s
  else
    let (s1, st, _) := if cv.headerOk then s.loadAll e else s.loadHead e
    if st = St.OK then .next s
    else if s1.cvState e ≠ Cv.LOADING then .next s1
    else .next (s1.loadFail e Code.BLOCK_CHECK)

/-- The key that a container names, and whether it allows the engine's partition (R148, R162). -/
def State.keyFor (s : State) (e : Nat) (b : List Byte) : Bool × List Byte :=
  match s.ground.keys.find? fun k => k.slot == keySlot b with
  | some k => (match s.partOf e with
    | some p => bit k.parts p.id
    | none => false, k.key)
  | none => (false, [])

/-- The seed and initial registers of a cell from CELL_INIT (R154). -/
def cellInit (x : List Byte) (c : Nat) : Word64 × SMap Word :=
  (BitVec.ofNat 64 (leAt x (144 * c) 8),
   (List.range 31).foldl (fun m i => SMap.set 0#32 m (i + 1) (BitVec.ofNat 32 (leAt x (144 * c + 8 + 4 * i) 4))) [])

/-- Every cell of the engine takes the state of 04 R90, with the canvas's seeds and registers. -/
def State.cellsFresh (s : State) (e : Nat) : State :=
  let cv := (s.eng e).canvas
  (List.range 4).foldl (fun s d =>
    match cv.body 6 0xFF d with
    | none => s.onCells e (some d) fun k => k.fresh 0#64 []
    | some x => (List.range 864).foldl (fun s c =>
        let (seed, regs) := cellInit x c
        s.onCell e d c fun k => k.fresh seed regs) s) s

/-- The labels of the streams that VS_STREAMS defines (10 R254). -/
def Canvas.vsLabels (cv : Canvas) : SMap Nat :=
  match cv.body 0xA 0xFF 0xFF with
  | none => []
  | some x => (records x 16 16 (byteAt x 0)).foldl (fun m r => SMap.put m (byteAt r 0) (leAt r 4 4)) []

/-- A load succeeds (R161): the cells take their state, the canvas its name. -/
def State.loadOk (s : State) (e : Nat) (b : List Byte) : State :=
  let s1 := s.onCells e none fun k => { k with slotBad := [], descBad := [] }
  let s2 := s1.cellsFresh e
  let s3 := s2.onEng e fun g => { g with
    canvas := { g.canvas with digest := digestOf b }, study := { g.study with streams := g.canvas.vsLabels } }
  let s4 := (s3.wr (Reg.ENG_CANVAS_ID e 0) (hImage b % 2 ^ 32)).wr (Reg.ENG_CANVAS_ID e 1) (hImage b / 2 ^ 32)
  (s4.setCvState e (if (s.eng e).canvas.standby then Cv.STANDBY else Cv.READY)).loadEnd e Code.OK

/-- CANVAS_LOAD_COMPLETE (R161, R162 stage 3): once every section has arrived and been written, the remaining checks run. -/
def execCanvasLoadComplete (e : EngIx) (s : State) : Answer :=
  let cv := (s.eng e).canvas
  if s.cvState e ≠ Cv.LOADING ∨ !cv.headerOk ∨ cv.zeroWait ≠ [] ∨ cv.dataWait ≠ [] then .next s
  else
    let (s1, st, b) := s.loadAll e
    if st ≠ St.OK ∨ cv.applied < hSections b then .next s
    else
      let (ok, key) := s.keyFor e b
      let code := canvasCode b cv.standby s.ground.policy (s.gridPeriod e) (s.eng e).cellOff ok key
      if code = Code.OK then .next (s1.loadOk e b)
      else .next ((s1.onEng e fun g => { g with canvas := { g.canvas with digest := digestOf b } }).loadFail e code)

/-! ### The glaze switch (R156 to R158) -/

/-- The sequence completes (R158; 11 R295). -/
def State.seqComplete (s : State) (e : Nat) : State :=
  if s.flag (Reg.NET_BAR_CFG e) Fld.NET_BAR_CFG.SEQ_ARRIVE then s.barArrive e else s

/-- The next run takes effect in all four dies. -/
def State.nextRun (s : State) (e step glaze left : Nat) : State :=
  ((s.setPos e step glaze left).cellsToStart e).switchStall e

/-- One switch from a run whose cells have ended: to the next run, to the wait for the next period, or to DONE. -/
def State.glazeSwitch (s : State) (e : Nat) : State :=
  let a := Reg.ENG_CANVAS_POS e
  let cv := (s.eng e).canvas
  let step := s.fld a Fld.ENG_CANVAS_POS.STEP
  let g := s.glaze e
  let left := s.fld a Fld.ENG_CANVAS_POS.REPEAT_LEFT
  let last := left == 0 && cv.steps ≤ step + 1
  if s.cvState e = Cv.STOPPING then
    let s1 := (s.streamsEnd e g).seqStop e
    if last then
      let s2 := s1.seqComplete e
      if (s.plan e).isNone then s2.raiseEvent e 2 0 0 else s2
    else s1
  else if last then
    match s.plan e with
    | none => (((s.streamsEnd e g).seqStop e).seqComplete e).raiseEvent e 2 0 0
    | some _ =>
      let (s1, ok) := s.queueCheck e g (cv.step 0).1
      if !ok then s1.onEng e fun x => { x with canvas := { x.canvas with switchStuck := true } }
      else
        let s2 := (s1.streamsEnd e g).seqComplete e
        let s3 := s2.onEng e fun x => { x with
          canvas := { x.canvas with running := false }, sched := { x.sched with workDone := true } }
        s3.nextRun e 0 (cv.step 0).1 (cv.step 0).2
  else
    let (step', g', left') := if left ≠ 0 then (step, g, left - 1)
      else (step + 1, (cv.step (step + 1)).1, (cv.step (step + 1)).2 - 1)
    let (s1, ok) := s.queueCheck e g g'
    if !ok then s1.onEng e fun x => { x with canvas := { x.canvas with switchStuck := true } }
    else (s1.streamsEnd e g).nextRun e step' g' left'

/-- GLAZE_SWITCH (R156 to R158; 05 R131, R132): once every cell has ended and every in-flight entry has been delivered. -/
def execGlazeSwitch (e : EngIx) (s : State) : Answer :=
  if !s.cellsRun e ∨ (s.eng e).canvas.switchStuck ∨ !s.delivered e ∨ !s.allEnded e then .next s
  else .next (s.glazeSwitch e)

end Sys2Proof.Machine
end

