-- ==== Sys2Proof/Machine/Hub.lean ====
section
/-! DEFINITION. The commands of the memory controllers and of whole and partial blocks, and the scrubber (08_engine_hub R202 to
R218). -/
namespace Sys2Proof.Machine

/-- How a request for local block `j` of stack `t` is met: a near block of a down engine, or a spread block of a stack that does
not serve, is answered without the stack (R211; 11 R286). -/
def State.stackReach (s : State) (t j : Nat) : Nat :=
  if j < s.limit * 8192 then (if s.posDown (t / 2) then St.TARGET_RESET else St.OK)
  else if s.serves t then St.OK
  else St.SPREAD_LOST

/-- HBM_ACCESS (R202): one access by the controller. `corrected`: the stack reports an on-die correction; `parity`: the access
fails its parity and is retried; `fails`: the retry fails too, or the stack reports an uncorrectable error. A failed read is
reported by the access that reads the block; a failed write at once. -/
def execHbmAccess (e : EngIx) (st : Fin 2) (j : Fin 0x1000000) (write corrected parity fails : Bool)
    (s : State) : Answer :=
  let a := Reg.MC_ERR e st
  let s1 := if corrected then s.satFld a Fld.MC_ERR.ECC_CE 1 else s
  let s2 := if parity then s1.satFld a Fld.MC_ERR.PAR_RETRY 1 else s1
  if !fails then .next s2
  else if write then .next ((s2.satFld a Fld.MC_ERR.UE 1).fault Src.HUB_HBM_UE e 0)
  else
    let k := ueKey st j
    .next (s2.onEng e fun g => { g with hbmUe := if g.hbmUe.contains k then g.hbmUe else g.hbmUe ++ [k] })

/-- HUB_BLOCK_WRITE (R214, R216): a whole block is written with a new check word. -/
def execHubBlockWrite (e : EngIx) (st : Fin 2) (j : Fin 16744448) (data : Vector Byte 4096) (s : State) : Answer :=
  let t := 2 * e.val + st.val
  match s.stackReach t j with
  | 0 =>
    let (s1, code) := s.hbmWrite t j 0 data.toList
    .next (s1.emit (.hubDone e code []))
  | c => .next (s.emit (.hubDone e c []))

/-- HUB_BLOCK_READ (R215, R217): a whole block is read and verified, for the step of engine `by'` if an engine asks. -/
def execHubBlockRead (e : EngIx) (st : Fin 2) (j : Fin 16744448) (by' : Option EngIx) (s : State) : Answer :=
  let t := 2 * e.val + st.val
  match s.stackReach t j with
  | 0 =>
    let (s1, code, bs) := s.hbmRead t j 0 4096 (by'.map (·.val))
    .next (s1.emit (.hubDone e code bs))
  | c => .next (s.emit (.hubDone e c []))

/-- PARTIAL_WRITE_HOLD (R216): a write of part of a block is held; the oldest buffer is completed first when 64 are in use. A
whole block, no bytes, or bytes beyond the block's end are no partial write. -/
def execPartialWriteHold (e : EngIx) (st : Fin 2) (j : Fin 16744448) (off : Fin 4096) (data : List Byte)
    (s : State) : Answer :=
  let t := 2 * e.val + st.val
  if data = [] ∨ 4096 ≤ data.length ∨ 4096 < off.val + data.length then .next s
  else match s.stackReach t j with
  | 0 => .next ((s.asmHold t j off data).emit (.hubDone e St.OK []))
  | c => .next (s.emit (.hubDone e c []))

/-- ASSEMBLY_TIMEOUT (R216): 2 µs after its first write, a buffer is completed. -/
def execAssemblyTimeout (e : EngIx) (st : Fin 2) (j : Fin 16744448) (s : State) : Answer :=
  let t := 2 * e.val + st.val
  match s.asmOf t j with
  | none => .next s
  | some b => if s.now < b.since + 2000 then .next s else .next (s.asmComplete t j)

/-- Blocks of a stack outside its check region (R210). -/
def stackBlocks : Nat := 16744448

/-- Whether the scrubber may verify a block now (R218; 12 R317): in a scrub phase with blocks left, or without a period plan
while RUNNING. -/
def State.scrubOpen (s : State) (e : Nat) : Bool :=
  s.flag (Reg.MC_SCRUB e) Fld.MC_SCRUB.ENABLE && !(s.eng e).contained &&
    (match s.plan e with
     | some x => s.flag (Reg.CAD_ENG_PHASE e) Fld.CAD_ENG_PHASE.PLAN && planKind x (s.eng e).sched.phase == 3
         && decide ((s.eng e).scrubbed < 64 * s.fld (Reg.MC_SCRUB e) Fld.MC_SCRUB.BLOCKS)
     | none => s.cvState e == Cv.RUNNING)

/-- SCRUB_BLOCK (R218): the next block, in local-block order over both stacks, is verified (log 27). A failing block is counted,
captured and reported, and aborts no step. -/
def execScrubBlock (e : EngIx) (s : State) : Answer :=
  if !s.scrubOpen e then .next s
  else
    let n := (s.eng e).scrubAt
    let t := 2 * e.val + n % 2
    let j := n / 2
    let last := n + 1 == 2 * stackBlocks
    let s1 := s.onEng e fun g => { g with scrubAt := if last then 0 else n + 1, scrubbed := g.scrubbed + 1 }
    let s2 := if last then s1.satFld (Reg.MC_SCRUB_STAT e) Fld.MC_SCRUB_STAT.SWEEPS 1 else s1
    if (s2.eng e).hbmUe.contains (ueKey t j) then .next (s2.blockFetch t j none).1
    else if s2.blockGood t j then .next s2
    else
      let s3 := (s2.satFld (Reg.MC_SCRUB_STAT e) Fld.MC_SCRUB_STAT.FAILS 1).chkCapture t j
      .next (s3.faultFor Src.HUB_SCRUB_FAIL e 0 false none)

/-- MC_ERR_CLEAR (R231): a write of any value clears the three counts. -/
def execMcErrClear (r : Req) (e : EngIx) (st : Fin 2) (v : Word) (s : State) : Answer :=
  .next (s.gated r (Reg.MC_ERR e st) v.toNat fun s => s.rstReg (Reg.MC_ERR e st))

/-! ### Read merging (R230) -/

/-- Read lines of an engine's own scratchpad through the merge entries: a line held by an entry is served from it, another is
read and opens an entry while fewer than 128 are open. Answers a status and the bytes. -/
def State.mergeLines (s : State) (e line : Nat) (consumer : Option Nat) : Nat → State × Nat × List Byte
  | 0 => (s, St.OK, [])
  | n + 1 =>
    match (s.eng e).merges.find? fun m => m.line == line with
    | some m =>
      let s1 := s.addFld (Reg.ENG_MERGE_STAT e) Fld.ENG_MERGE_STAT.MERGED 1
      let (s2, st, bs) := s1.mergeLines e (line + 1) consumer n
      (s2, st, m.bytes ++ bs)
    | none =>
      let (s1, st, bs) := s.remoteRead (.hub e) (line * 64) 64 consumer
      if st ≠ St.OK then (s1, st, [])
      else
        let s2 := if (s1.eng e).merges.length < 128 then
            s1.onEng e fun g => { g with merges := g.merges ++ [⟨line, bs⟩] } else s1
        let (s3, st3, bs3) := s2.mergeLines e (line + 1) consumer n
        (s3, st3, bs ++ bs3)

/-- MERGE_WINDOW_CLOSE (R230): a merge entry closes at the end of its window. -/
def execMergeWindowClose (e : EngIx) (line : Fin 0x400000) (s : State) : Answer :=
  .next (s.onEng e fun g => { g with merges := g.merges.filter fun m => m.line != line.val })

end Sys2Proof.Machine
end

