-- ==== Sys2Proof/Machine/LinkOps.lean ====
section
/-! DEFINITION. Operations of the link ports that other families use: packets, sending, routing between panels and the pair's
address relocation (14_links_pairs_chains R364 to R383, R393 to R396; 11_panel_networks R279 to R281). -/
namespace Sys2Proof.Machine

/-- The alternate port of a packet routed through port `p`, where one applies (R383). -/
def State.linkAlt (s : State) (p : Nat) (x : LinkPkt) : Option Nat :=
  let a := s.fld (Reg.LNK_PORT_CTRL p) Fld.LNK_PORT_CTRL.ALT_PORT
  if s.flag (Reg.LNK_PORT_CTRL p) Fld.LNK_PORT_CTRL.ALT_EN && !x.rerouted && s.linkLive a then some a else none

/-- The horizon (R378). -/
def State.horizon (s : State) : Nat := max 1 (s.fld Reg.LNK_CFG Fld.LNK_CFG.HORIZON)

/-- Send a packet through port `p`, with how it went: 0 sent or waiting, 1 refused by the horizon, 2 no way out (R371, R378,
R383). -/
def State.linkOut (s : State) (p : Nat) (x : LinkPkt) : State × Nat :=
  let y := { x with hops := x.hops + 1 }
  let st := s.linkState p
  if s.horizon < y.hops then (s, 1)
  else if s.linkLive p then (s.linkPut p y, 0)
  else match (if st ≠ 4 ∨ (s.link p).noticed then s.linkAlt p y else none) with
    | some a => (s.linkPut a { y with rerouted := true }, 0)
    | none => if st = 4 ∨ st = 1 then (s.onLink p fun l => { l with wait := l.wait ++ [(y, s.now)] }, 0) else (s, 2)

/-! ### Routing between panels (R377; 11 R279 to R281) -/

/-- PANEL of the route tables in force (11 R284). -/
def State.panelNo (s : State) : Nat := leAt s.ground.routes 0 2

/-- Whether a panel is expelled (R390). -/
def State.expelled (s : State) (panel : Nat) : Bool :=
  (List.range 16).any fun i => s.flag (Reg.LNK_EXPEL i) Fld.LNK_EXPEL.VALID && s.fld (Reg.LNK_EXPEL i) Fld.LNK_EXPEL.PANEL == panel

/-- The panel that answers for a panel number: the adopter of its LNK_REDIR entry, or itself. -/
def State.redirect (s : State) (panel : Nat) : Nat :=
  match (List.range 16).find? fun i => s.rdN (Reg.LNK_REDIR i) != 0 && s.fld (Reg.LNK_REDIR i) Fld.LNK_REDIR.FAILED == panel with
  | some i => s.fld (Reg.LNK_REDIR i) Fld.LNK_REDIR.ADOPTER
  | none => panel

/-- The state of the pair. -/
def State.pairState (s : State) : Nat := s.fld Reg.LNK_PAIR_STAT Fld.LNK_PAIR_STAT.STATE

/-- Whether a panel number is the partner that this panel has taken over. -/
def State.adoptedPanel (s : State) (panel : Nat) : Bool :=
  s.pairState == 6 && s.fld Reg.LNK_PAIR_STAT Fld.LNK_PAIR_STAT.PARTNER == panel

/-- The first VALID remote entry whose range holds a panel number (11 R281, R284); while pair mode is on, entries that name LP6 or
LP7 count as not VALID (R377). -/
def State.remotePort (s : State) (panel : Nat) : Option Nat :=
  ((List.range 16).find? fun k =>
    let o := 0x410 + 8 * k
    let pos := byteAt s.ground.routes (o + 4)
    bit (byteAt s.ground.routes (o + 5)) 0 && decide (leAt s.ground.routes o 2 ≤ panel ∧ panel ≤ leAt s.ground.routes (o + 2) 2)
      && !((pos == 54 || pos == 55) && (s.linkPaired 6 || s.linkPaired 7))).map
        fun k => byteAt s.ground.routes (0x414 + 8 * k) - 48

/-- Where a FEID leads: a position of this panel, a position that stands in for a partner engine, a link port, an expelled
panel, a partner FEID that nobody holds, or nowhere. -/
inductive FeidDest where
  | here (pos : Nat)
  | standIn (pos : Nat)
  | away (port : Nat)
  | barred
  | orphan
  | nowhere
  deriving DecidableEq, Repr

/-- The route of a FEID (R377; 11 R281). -/
def State.feidRoute (s : State) (feid : Nat) : FeidDest :=
  let panel := s.redirect (feid / 256)
  if s.expelled (feid / 256) then .barred
  else if feid / 256 = s.panelNo then
    let x := SMap.getD s.edgeFeid (feid % 256) 0
    if bit x 7 then .here (x % 64) else .nowhere
  else if s.adoptedPanel (feid / 256) then
    match SMap.find? s.pair.feids (feid % 256) with
    | some b => .standIn b
    | none => .orphan
  else match s.remotePort panel with
    | some p => .away p
    | none => .nowhere

/-! ### Answers and removals (R371, R377, R378) -/

/-- A port counts a packet that it removes (R371). -/
def State.linkAborted (s : State) (p : Nat) : State := s.satFld (Reg.LNK_PORT_CNT p 1) Fld.LNK_PORT_CNT.ABORTED 1

/-- A cause that will abort a collective, unless one waits already (R387). -/
def State.collDue (s : State) (c cause : Nat) : State :=
  let x := SMap.getD s.colls c { }
  { s with colls := SMap.set { } s.colls c { x with due := if x.due = 0 then cause else x.due } }

/-- Answer a request with a status: to the requester's hub on this panel, or by a reply on a link. -/
def State.linkAnswer (s : State) (x : LinkPkt) (status : Nat) (data : List Byte) : State :=
  match s.feidRoute x.src with
  | .here pos => if pos < 48 then s.emit (.hubDone pos status data) else s
  | .away p =>
    let y : LinkPkt := { kind := x.kind + 2, dst := x.src, src := x.dst, status := status, addr := x.addr, tag := x.tag, aux := x.aux, data := data }
    let (s1, r) := s.linkOut p y
    if r = 0 then s1 else s1.linkAborted p
  | _ => s

/-- A packet is removed at port `p`: a request is answered with LINK_ABORT, and a collective's packet aborts it (R371, R387). -/
def State.linkDrop (s : State) (p : Nat) (x : LinkPkt) (cause : Nat) : State :=
  if x.request then s.linkAnswer x St.LINK_ABORT []
  else
    let s1 := s.linkAborted p
    if x.kind = 0x10 then s1.collDue (x.addr / 2 ^ 42 % 64) cause else s1

/-- Send a packet through port `p`, or remove it (R371, R378). -/
def State.linkSend (s : State) (p : Nat) (x : LinkPkt) : State :=
  match s.linkOut p x with
  | (s1, 0) => s1
  | (s1, 1) =>
    let s2 := (s1.setFlag Reg.LNK_FAULT Fld.LNK_FAULT.HOP_LIMIT true).fault Src.LNK_HOP_LIMIT panelScope p
    if x.request then s2.linkAnswer x St.LINK_ABORT []
    else if x.kind = 0x10 then s2.collDue (x.addr / 2 ^ 42 % 64) 7
    else s2
  | (s1, _) => s1.linkDrop p x 2

/-! ### The pair's relocation (R396) -/

/-- The mirror address of a partner's spread address, where a region of the partner covers it. -/
def State.mirrorOf (s : State) (a : Nat) : Option Nat :=
  (s.pair.partner.regions.find? fun r => decide (r.1.val * 65536 ≤ a ∧ a < (r.1.val + r.2.1.val) * 65536)).map
    fun r => r.2.2.val * 65536 + (a - r.1.val * 65536)

/-- The stage base and its number of blocks (R394). -/
def State.stageBase (s : State) : Nat :=
  (s.rdN (Reg.LNK_PAIR_STAGE 0) + s.fld (Reg.LNK_PAIR_STAGE 1) Fld.LNK_PAIR_STAGE.BASE_HI * 2 ^ 32) * 4096
def State.stageBlocks (s : State) : Nat := s.fld (Reg.LNK_PAIR_STAGE 2) Fld.LNK_PAIR_STAGE.BLOCKS

/-- Whether the pair protects an engine of this panel: its partition is PART and the pair is formed (R393). -/
def State.pairCovers (s : State) (e : Nat) : Bool :=
  decide (2 ≤ s.pairState ∧ s.pairState ≤ 4) && (match s.partOf e with
    | some p => p.id == s.fld Reg.LNK_PAIR_CTRL Fld.LNK_PAIR_CTRL.PART
    | none => false)

/-- Whether an engine is a stand-in that has taken over a partner's engine. -/
def State.standsIn (s : State) (e : Nat) : Bool :=
  match (s.eng e).adopted with
  | some x => decide (48 ≤ x)
  | none => false

/-- The address that a read of engine `e` uses: a stand-in's access to a partner's region goes to its mirror, or to the committed stage
until the apply ends. -/
def State.pairRead (s : State) (e a : Nat) : Nat :=
  if !s.standsIn e then a
  else match s.mirrorOf a with
    | none => a
    | some m =>
      match s.pair.apply.find? fun p => p.2 == a / 4096 with
      | some (j, _) => if s.pair.written.contains (a / 4096) then m else s.stageBase + j * 4096 + a % 4096
      | none => m

/-- The address that a write of engine `e` uses, the block noted so that the apply skips it. -/
def State.pairWrite (s : State) (e a : Nat) : State × Nat :=
  if !s.standsIn e then (s, a)
  else match s.mirrorOf a with
    | none => (s, a)
    | some m =>
      let b := a / 4096
      (if s.pair.written.contains b then s else { s with pair := { s.pair with written := s.pair.written ++ [b] } }, m)

end Sys2Proof.Machine
end

