-- ==== Sys2Proof/Machine/Dma.lean ====
section
/-! DEFINITION. The transfer engine: DMA queues, descriptors, pieces and their completion (08_engine_hub R220 to R225). -/
namespace Sys2Proof.Machine

/-! ### Guest windows (15 R414) -/

/-- The capability record of a site's guest (15 R401, R416). -/
def State.guestCap (s : State) (g : Nat) : List Byte :=
  (List.range 8).flatMap fun n => leBytes 4 (s.rdN (Reg.SK_GUEST_CAP g n))

/-- The window of a guest site in bytes: WINDOW GiB of its capability record. -/
def State.guestWindow (s : State) (g : Nat) : Nat := leAt (s.guestCap g) 10 2 * 2 ^ 30

/-- Whether a wait is a host read of port `p`. -/
def GuestWait.ofPort (w : GuestWait) (p : Nat) : Bool :=
  match w.who with
  | .hostRead q _ => q == p
  | _ => false

/-- Deliver a request to a guest: its header words, with the TAG its answer carries (R414; log 53). -/
def State.guestAsk (s : State) (g : Nat) (who : GuestAsker) (words : List Nat) (data : List Byte) : State :=
  let s1 : State := { s with guestWaits := s.guestWaits ++ [⟨g, s.guestTag, s.now, who⟩], guestTag := (s.guestTag + 1) % 65536 }
  s1.emit (.guest g (words ++ [s.guestTag]) data)

/-- How a request of partition `part` in a guest window is met: OK when it is delivered to the guest. -/
def State.guestReach (s : State) (g off n : Nat) (part : Option Nat) : Nat :=
  if s.guestWindow g < off + n ∨ !s.flag (Reg.SK_GUEST_STAT g) Fld.SK_GUEST_STAT.ADMITTED then St.ADDR_UNMAPPED
  else match part with
    | some p => if !bit (s.rdN (Reg.SK_GUEST_ACCESS g)) p then St.ACCESS
      else if s.flag (Reg.SK_GUEST_STAT g) Fld.SK_GUEST_STAT.IN_RESET then St.TARGET_RESET else St.OK
    | none => St.ACCESS

/-- The partition number of an engine. -/
def State.partId (s : State) (e : Nat) : Option Nat := (s.partOf e).map (·.id)

/-! ### Descriptors (R221, R222; 09 R241, R242) -/

/-- The fields of a descriptor. -/
def Flight.op (f : Flight) : Nat := byteAt f.raw 0
def Flight.fence (f : Flight) : Bool := bit (byteAt f.raw 1) 0
def Flight.notify (f : Flight) : Bool := bit (byteAt f.raw 1) 1
def Flight.counter (f : Flight) : Option Nat := if bit (byteAt f.raw 1) 2 then some (byteAt f.raw 2) else none
def Flight.srcSpace (f : Flight) : Nat := byteAt f.raw 4 % 16
def Flight.dstSpace (f : Flight) : Nat := byteAt f.raw 4 / 16
def Flight.src (f : Flight) : Nat := leAt f.raw 0x08 8
def Flight.dst (f : Flight) : Nat := leAt f.raw 0x10 8
def Flight.rowLen (f : Flight) : Nat := leAt f.raw 0x18 4
def Flight.rows (f : Flight) : Nat := leAt f.raw 0x1C 4
def Flight.srcStride (f : Flight) : Nat := leAt f.raw 0x20 4
def Flight.dstStride (f : Flight) : Nat := leAt f.raw 0x24 4
def Flight.peer (f : Flight) : Nat := leAt f.raw 0x28 3
def Flight.tag (f : Flight) : Nat := leAt f.raw 0x2C 4
def Flight.args (f : Flight) : Nat := leAt f.raw 0x30 16
def Flight.subop (f : Flight) : Nat := byteAt f.raw 0x30

/-- Whether a SUBOP moves rows (09 R238). -/
def subopMoves (op : Nat) : Bool := op == 1 || op == 2

/-- Whether PAGED_ARGS holds no reserved code and no reserved bit (09 R241). -/
def pagedArgsOk (w : Nat) : Bool :=
  let op := bits w 7 0
  (subopMoves op || decide (0x10 ≤ op ∧ op ≤ 0x14)) && !bit w 8 && bits w 15 10 == 0
    && (op != 0x10 || bits w 31 16 == 0)
    && (op == 0x10 || op == 0x11 || op == 0x12 || bits w 63 32 == 0)
    && (op == 0x10 || (bits w 95 64 == 0 && bits w 127 96 == 0))

/-- Whether rows, lengths and strides are in range and aligned (R222); FILL has no source stride. -/
def Flight.shapeOk (f : Flight) : Bool :=
  f.rowLen % 8 == 0 && decide (8 ≤ f.rowLen ∧ f.rowLen ≤ 2 ^ 24) && decide (1 ≤ f.rows ∧ f.rows ≤ 65536)
    && f.dstStride % 8 == 0 && (f.op == 2 || f.srcStride % 8 == 0) && f.dst % 8 == 0 && (f.op == 2 || f.src % 8 == 0)

/-- Whether a descriptor breaks nothing of R222. -/
def Flight.ok (f : Flight) : Bool :=
  let clear := decide (byteAt f.raw 1 < 8) && byteAt f.raw 3 == 0 && zeroAt f.raw 5 3 && byteAt f.raw 0x2B == 0
    && decide (f.srcSpace ≤ 3) && decide (f.dstSpace ≤ 3)
  let far := fun sp a => !(sp == 0 || sp == 3) || decide (a < 2 ^ 48)
  match f.op with
  | 1 => clear && f.args == 0 && f.shapeOk && far f.srcSpace f.src && far f.dstSpace f.dst
  | 2 => clear && f.args == 0 && f.shapeOk && far f.dstSpace f.dst
  | 3 => clear && pagedArgsOk f.args && far f.srcSpace f.src && far f.dstSpace f.dst
    && (!subopMoves f.subop || f.shapeOk)
  | 4 => clear && f.args == 0
  | _ => false

/-- Whether a PAGED descriptor breaks nothing of 09 R242 that R222 does not catch. -/
def Flight.pagedOk (f : Flight) : Bool :=
  match f.subop with
  | 1 => f.srcSpace == 0 && decide (f.src < 2 ^ 32)
  | 2 => f.dstSpace == 0 && decide (f.dst < 2 ^ 32)
  | op =>
    f.rowLen == 8 && f.rows == 1 && f.srcStride == 0 && f.dstStride == 0
      && (if op = 0x10 then decide (f.srcSpace ≤ 1) else f.src == 0 && f.srcSpace == 0)

/-- Whether a descriptor's pieces have all been moved. -/
def Flight.moved (f : Flight) : Bool :=
  match f.op with
  | 1 | 2 => decide (f.rows ≤ f.row)
  | 3 => if subopMoves f.subop then decide (f.rows ≤ f.row) else f.opDone
  | _ => f.opDone

/-- The source address, destination address and length of the next piece: each row is split at 4 KiB boundaries of both sides
(R223); a FILL has no source. -/
def Flight.next (f : Flight) : Nat × Nat × Nat :=
  let a := f.src + f.row * f.srcStride + f.off
  let b := f.dst + f.row * f.dstStride + f.off
  let n0 := min (f.rowLen - f.off) (4096 - b % 4096)
  (a, b, if f.op = 2 then n0 else min n0 (4096 - a % 4096))

/-- The descriptor after a piece of `n` bytes. -/
def Flight.step (f : Flight) (n : Nat) : Flight :=
  if f.off + n < f.rowLen then { f with off := f.off + n } else { f with row := f.row + 1, off := 0 }

/-! ### Queues (R220, R224, R225) -/

/-- A queue's part beside its registers. -/
def State.dmaq (s : State) (e q : Nat) : DmaQ := SMap.getD (s.eng e).dmaq q { }

/-- Change a queue's part. -/
def State.onDmaq (s : State) (e q : Nat) (f : DmaQ → DmaQ) : State :=
  s.onEng e fun g => { g with dmaq := SMap.set { } g.dmaq q (f (SMap.getD g.dmaq q { })) }

/-- Entries of a queue's ring. -/
def State.dmaSize (s : State) (e q : Nat) : Nat := 2 ^ (min (s.fld (Reg.ENG_DMAQ_CFG e q) Fld.ENG_DMAQ_CFG.SIZE) 8 + 4)

/-- Whether a queue is halted. -/
def State.dmaHalted (s : State) (e q : Nat) : Bool := s.flag (Reg.ENG_DMAQ_STATUS e q) Fld.ENG_DMAQ_STATUS.HALTED

/-- HEAD, DONE and TAIL of a queue. -/
def State.dmaHead (s : State) (e q : Nat) : Nat := s.fld (Reg.ENG_DMAQ_HEAD e q) Fld.ENG_DMAQ_HEAD.HEAD
def State.dmaDone (s : State) (e q : Nat) : Nat := s.fld (Reg.ENG_DMAQ_HEAD e q) Fld.ENG_DMAQ_HEAD.DONE
def State.dmaTail (s : State) (e q : Nat) : Nat := s.fld (Reg.ENG_DMAQ_TAIL e q) Fld.ENG_DMAQ_TAIL.TAIL

/-- How far index `i` lies beyond index `j`, modulo 2^16. -/
def ahead (i j : Nat) : Nat := (i + 65536 - j % 65536) % 65536

/-- A queue whose TAIL runs more than its ring ahead of DONE will halt at index DONE + ring size (R220; log 28). -/
def State.dmaTailCheck (s : State) (e q : Nat) : State :=
  let n := s.dmaSize e q
  let bad := if n < ahead (s.dmaTail e q) (s.dmaDone e q) then some ((s.dmaDone e q + n) % 65536) else none
  s.onDmaq e q fun x => { x with bad := bad }

/-- A new TAIL (R220, R225): one written while the queue is halted acts after the restart. -/
def State.dmaSetTail (s : State) (e q v : Nat) : State :=
  let s1 := s.setFld (Reg.ENG_DMAQ_TAIL e q) Fld.ENG_DMAQ_TAIL.TAIL v
  if s1.dmaHalted e q then s1 else s1.dmaTailCheck e q

/-- The descriptors of a queue that are in flight. -/
def State.inFlight (s : State) (e q : Nat) : List Flight := (s.eng e).flights.filter fun f => f.q == q

/-- DONE advances in index order over completed indices (R224). -/
def State.dmaAdvance (s : State) (e q : Nat) : Nat → State
  | 0 => s
  | n + 1 =>
    let d := s.dmaDone e q
    if (s.dmaq e q).fin.contains d then
      ((s.onDmaq e q fun x => { x with fin := x.fin.filter (· != d) }).addFld (Reg.ENG_DMAQ_HEAD e q)
        Fld.ENG_DMAQ_HEAD.DONE 1).dmaAdvance e q n
    else s

/-- Index `i` is counted as completed. -/
def State.dmaFinish (s : State) (e q i : Nat) : State :=
  let s1 := s.onDmaq e q fun x => { x with fin := if x.fin.contains i then x.fin else x.fin ++ [i] }
  s1.dmaAdvance e q (s1.dmaq e q).fin.length

/-- A restart asked for is carried out once nothing of the queue is in flight (R225). -/
def State.dmaRestart (s : State) (e q : Nat) : State :=
  let x := s.dmaq e q
  if x.restart = 0 ∨ s.inFlight e q ≠ [] then s
  else
    let i := s.fld (Reg.ENG_DMAQ_STATUS e q) Fld.ENG_DMAQ_STATUS.INDEX
    let s1 := (s.onDmaq e q fun x => { x with restart := 0 }).setFlag (Reg.ENG_DMAQ_STATUS e q)
      Fld.ENG_DMAQ_STATUS.HALTED false
    let s2 := if x.restart = 2 then
        (s1.setFld (Reg.ENG_DMAQ_HEAD e q) Fld.ENG_DMAQ_HEAD.HEAD (i + 1)).dmaFinish e q i
      else s1.setFld (Reg.ENG_DMAQ_HEAD e q) Fld.ENG_DMAQ_HEAD.HEAD i
    s2.dmaTailCheck e q

/-- A write of ENG_DMAQ_CTRL: more than one bit set does nothing (R231). RESUME and SKIP act on a halted queue; CLEAR with ENABLE
clear and nothing in flight. -/
def State.opDmaqCtrl (s : State) (e q v : Nat) : State :=
  match v % 8 with
  | 1 => if s.dmaHalted e q then (s.onDmaq e q fun x => { x with restart := 1 }).dmaRestart e q else s
  | 2 => if s.dmaHalted e q then (s.onDmaq e q fun x => { x with restart := 2 }).dmaRestart e q else s
  | 4 =>
    if s.flag (Reg.ENG_DMAQ_CFG e q) Fld.ENG_DMAQ_CFG.ENABLE ∨ s.inFlight e q ≠ [] then s
    else (((((s.rstReg (Reg.ENG_DMAQ_TAIL e q)).rstReg (Reg.ENG_DMAQ_HEAD e q)).rstReg
      (Reg.ENG_DMAQ_STATUS e q)).rstReg (Reg.PT_QSTAT e q)).onDmaq e q fun x => { base := x.base })
  | _ => s

/-- A write of ENG_DMAQ_CFG: ENABLE rising takes up ENG_DMAQ_BASE and starts the queue (R231). -/
def State.opDmaqCfg (s : State) (e q v : Nat) : State :=
  let a := Reg.ENG_DMAQ_CFG e q
  let was := s.flag a Fld.ENG_DMAQ_CFG.ENABLE
  let s1 := s.plainWrite a v
  if s1.flag a Fld.ENG_DMAQ_CFG.ENABLE && !was then
    let s2 := s1.onDmaq e q fun x => { x with base := s1.rdN (Reg.ENG_DMAQ_BASE e q) * 64 }
    if s2.dmaHalted e q then s2 else s2.dmaTailCheck e q
  else s1

/-- DMAQ_TAIL_WRITE (R220, R225). -/
def execDmaqTailWrite (r : Req) (e : EngIx) (q : QueueIx) (v : Word) (s : State) : Answer :=
  .next (s.gated r (Reg.ENG_DMAQ_TAIL e q) v.toNat fun s => s.dmaSetTail e q (v.toNat % 65536))

/-- DMAQ_RESUME (R225): the queue restarts at the failing descriptor. -/
def execDmaqResume (r : Req) (e : EngIx) (q : QueueIx) (s : State) : Answer :=
  .next (s.gated r (Reg.ENG_DMAQ_CTRL e q) 1 fun s => s.opDmaqCtrl e q 1)

/-- DMAQ_SKIP (R225): the failing descriptor is counted and the queue restarts at the next. -/
def execDmaqSkip (r : Req) (e : EngIx) (q : QueueIx) (s : State) : Answer :=
  .next (s.gated r (Reg.ENG_DMAQ_CTRL e q) 2 fun s => s.opDmaqCtrl e q 2)

/-- DMAQ_CLEAR (R231). -/
def execDmaqClear (r : Req) (e : EngIx) (q : QueueIx) (s : State) : Answer :=
  .next (s.gated r (Reg.ENG_DMAQ_CTRL e q) 4 fun s => s.opDmaqCtrl e q 4)

/-- DMAQ_ENABLE (R231). -/
def execDmaqEnable (r : Req) (e : EngIx) (q : QueueIx) (v : Word) (s : State) : Answer :=
  .next (s.gated r (Reg.ENG_DMAQ_CFG e q) v.toNat fun s => s.opDmaqCfg e q v.toNat)

/-! ### Descriptors in flight -/

/-- The flight of a queue's index. -/
def State.flight (s : State) (e q i : Nat) : Option Flight := (s.eng e).flights.find? fun f => f.q == q && f.ix == i

/-- Change a flight. -/
def State.setFlight (s : State) (e : Nat) (f : Flight) : State :=
  s.onEng e fun g => { g with flights := g.flights.map fun x => if x.q == f.q && x.ix == f.ix then f else x }

/-- The descriptor of index `i`, read from the ring in the engine scratchpad: a slot in a bank that may not be accessed fails with
REFUSED, an uncorrectable one with SPM_UE (log 29). -/
def State.dmaFetch (s : State) (e q i : Nat) : State × Flight :=
  let a := (s.dmaq e q).base + 64 * (i % s.dmaSize e q)
  if !s.spRangeOpen (.hub e) a 64 then (s, { q := q, ix := i, raw := [], code := St.REFUSED })
  else
    let (s1, bs, bad) := s.spReadBytes (.hub e) a 64
    match bad with
    | some _ => (s1.fault Src.HUB_SPM_UE e 0, { q := q, ix := i, raw := [], code := St.SPM_UE })
    | none =>
      let f : Flight := { q := q, ix := i, raw := bs }
      if !f.ok then (s1, { f with code := St.BAD_DESC })
      else if f.op = 3 ∧ subopMoves f.subop ∧ !f.pagedOk then (s1, { f with code := St.PAGED, pst := 0x0B })
      else (s1, f)

/-- Whether a queue may start a descriptor (R224, R225; 18 R476). -/
def State.dmaReady (s : State) (e q : Nat) : Bool :=
  s.engineUp e && !(s.eng e).contained && s.flag (Reg.ENG_DMAQ_CFG e q) Fld.ENG_DMAQ_CFG.ENABLE && !s.dmaHalted e q
    && s.dmaHead e q != s.dmaTail e q && decide ((s.inFlight e q).length < 8)

/-- DMA_DESC_START (R220, R222, R224): the next descriptor of a queue starts; one with FENCE waits for every earlier one. -/
def execDmaDescStart (e : EngIx) (q : QueueIx) (s : State) : Answer :=
  if !s.dmaReady e q then .next s
  else
    let i := s.dmaHead e q
    let (s1, f) : State × Flight :=
      if (s.dmaq e q).bad = some i then
        (s.onDmaq e q fun x => { x with bad := none }, { q := q, ix := i, raw := [], code := St.BAD_DESC })
      else s.dmaFetch e q i
    if f.code = 0 ∧ f.fence ∧ s.dmaDone e q ≠ i then .next s
    else .next ((s1.onEng e fun g => { g with flights := g.flights ++ [{ f with since := s.now }] }).addFld (Reg.ENG_DMAQ_HEAD e q)
      Fld.ENG_DMAQ_HEAD.HEAD 1)

/-- What came back from host memory, another panel or a guest: its code and its data. -/
structure Far where
  code : Nat
  data : List Byte
  deriving DecidableEq, Repr

/-- The FEID that an engine's link requests carry: its PRIMARY FEID (14 R367). -/
def State.ownFeid (s : State) (e : Nat) : Nat := s.panelNo * 256 + SMap.getD s.primary e 0

/-- An address in an engine's near slot or scratchpad region, moved to those of the engine that stands in for it. -/
def shiftTo (b a : Nat) : Nat :=
  if 0x400000000000 ≤ a ∧ a < nearBase 48 then nearBase b + (a - 0x400000000000) % 0x4000000000
  else if 0x700000000000 ≤ a ∧ a < spadBase 48 then spadBase b + (a - 0x700000000000) % 0x100000000
  else a

/-- Whether a panel address lies in a scratchpad region. -/
def inSpads (a : Nat) : Bool := decide (0x700000000000 ≤ a ∧ a < spadBase 48)

/-- Read the source of a piece. `far` is the answer from outside the panel, where one is needed; none when the source is a feed
port, which its own commands read (13 R353). -/
def State.srcRead (s : State) (e space a n peer : Nat) (far : Far) : Option (State × Nat × List Byte) :=
  let ans := fun (s : State) => (s, far.code, if far.code = St.OK then slice far.data 0 n else [])
  match space with
  | 2 => match s.partOf e with
    | none => some (s, St.HOST_ERR, [])
    | some p =>
      if !s.portUp p.port then some (s, St.HOST_ERR, [])
      else
        let s1 := s.emit (.hostRead p.port p.fn a n)
        some (if far.code = St.OK then ans s1 else (s1, St.HOST_ERR, []))
  | 3 => match s.feidRoute peer with
    | .nowhere => some (s, St.ADDR_UNMAPPED, [])
    | .barred => some (s, St.LINK_ABORT, [])
    | .orphan => some (s, St.TARGET_RESET, [])
    | .away p =>
      let (s1, r) := s.linkOut p { kind := 1, dst := peer, src := s.ownFeid e, addr := a, aux := n }
      some (if r = 0 then ans s1 else (s1, St.LINK_ABORT, []))
    | .standIn b => some (s.memRead (s.pairRead b (shiftTo b a)) n (some e))
    | .here _ => some (s.memRead a n (some e))
  | 1 =>
    if 0x8000000000 ≤ a ∧ a + n ≤ 0x8010000000 ∧ a % 64 = 0 ∧ n % 64 = 0 then
      some (s.mergeLines e ((a - 0x8000000000) / 64) (some e) (n / 64))
    else some (s.ownRead e a n)
  | _ =>
    match s.target a with
    | .feed _ _ => none
    | .guest g off =>
      let c := s.guestReach g off n (s.partId e)
      some (if c ≠ St.OK then (s, c, []) else ans (s.emit (.guest g [1, off, n] [])))
    | .spad e' off =>
      if s.holder e' = e ∧ off + n ≤ 0x10000000 ∧ off % 64 = 0 ∧ n % 64 = 0 then
        some (s.mergeLines e (off / 64) (some e) (n / 64))
      else some (s.memRead a n (some e))
    | _ => some (s.memRead (s.pairRead e a) n (some e))

/-- Write the destination of a piece: the state, the code, and the words that an engine counter is owed once the write is
acknowledged (R223). -/
def State.dstWrite (s : State) (e space a peer : Nat) (bs : List Byte) (counter : Option Nat) : State × Nat × Nat :=
  let words := bs.length / 8
  match space with
  | 2 => match s.partOf e with
    | none => (s, St.HOST_ERR, 0)
    | some p => if s.portUp p.port then (s.hostWrite p.port p.fn a bs, St.OK, words) else (s, St.HOST_ERR, 0)
  | 3 => match s.feidRoute peer with
    | .nowhere => (s, St.ADDR_UNMAPPED, 0)
    | .barred => (s, St.LINK_ABORT, 0)
    | .orphan => (s, St.TARGET_RESET, 0)
    | .away p =>
      let aux := match counter with
        | some c => 1 + 256 * c
        | none => 0
      let (s1, r) := s.linkOut p { kind := 2, dst := peer, src := s.ownFeid e, addr := a, aux := aux, data := bs }
      if r = 0 then (s1, St.OK, if inSpads a then 0 else words) else (s1, St.LINK_ABORT, 0)
    | .standIn b =>
      let (s0, a') := s.pairWrite b (shiftTo b a)
      let (s1, st) := s0.memWrite a' bs counter
      (s1, st, if inSpads a then 0 else words)
    | .here pos =>
      if 48 ≤ pos ∧ pos < 56 then ({ s with collIn := s.collIn ++ [⟨pos - 48, some e, a, bs⟩] }, St.OK, words)
      else
        let (s1, st) := s.memWrite a bs counter
        (s1, st, match s.target a with
          | .spad _ _ => 0
          | _ => words)
  | 1 =>
    let (s1, st) := s.ownWrite e a bs counter
    (s1, st, if a < 0x4000000000 then words else 0)
  | _ =>
    match s.target a with
    | .guest g off =>
      let c := s.guestReach g off bs.length (s.partId e)
      if c ≠ St.OK then (s, c, 0) else (s.emit (.guest g [2, off] bs), St.OK, words)
    | .spad _ _ =>
      let (s1, st) := s.memWrite a bs counter
      (s1, st, 0)
    | _ =>
      let (s0, a') := s.pairWrite e a
      let (s1, st) := s0.memWrite a' bs counter
      (s1, st, words)

/-- A piece whose source has been read is written to its destination, or fails (R223). `via`: the context ID and page index
that a paged side went through. -/
def State.pieceWrite (s : State) (e : Nat) (f : Flight) (st : Nat) (bs : List Byte) (dspace b n : Nat)
    (via : Option (Nat × Nat)) : State :=
  if st ≠ St.OK then s.setFlight e { f with code := st }
  else
    let (s1, st2, words) := s.dstWrite e dspace b f.peer bs f.counter
    if st2 ≠ St.OK then s1.setFlight e { f with code := st2 }
    else
      let owed := if f.counter.isSome then words else 0
      s1.setFlight e { (f.step n) with unacked := f.unacked ++ [(owed, via)], xlat := none, waiting := false, since := s.now, asked := f.asked ++ [s.now] }

/-- Whether a flight has a piece to move. -/
def Flight.open' (f : Flight) : Bool := f.code == 0 && !f.moved

/-- DMA_COPY (R223): the next piece of a COPY. -/
def execDmaCopy (e : EngIx) (q : QueueIx) (ix : Fin 65536) (code : Fin 16) (data : List Byte) (s : State) : Answer :=
  match s.flight e q ix with
  | none => .next s
  | some f =>
    if f.op ≠ 1 ∨ !f.open' then .next s
    else
      let (a, b, n) := f.next
      match s.srcRead e f.srcSpace a n f.peer ⟨code, data⟩ with
      | none => .next s
      | some (s1, st, bs) => .next (s1.pieceWrite e f st bs f.dstSpace b n none)

/-- DMA_FILL (R223): the next piece of a FILL: the pattern in every 64-bit word. -/
def execDmaFill (e : EngIx) (q : QueueIx) (ix : Fin 65536) (s : State) : Answer :=
  match s.flight e q ix with
  | none => .next s
  | some f =>
    if f.op ≠ 2 ∨ !f.open' then .next s
    else
      let (_, b, n) := f.next
      let bs := (List.replicate (n / 8) (leBytes 8 f.src)).flatten
      .next (s.pieceWrite e f St.OK bs f.dstSpace b n none)

/-- DMA_NOP (R221): a NOP descriptor has nothing to do. -/
def execDmaNop (e : EngIx) (q : QueueIx) (ix : Fin 65536) (s : State) : Answer :=
  match s.flight e q ix with
  | none => .next s
  | some f => if f.op ≠ 4 ∨ f.code ≠ 0 then .next s else .next (s.setFlight e { f with opDone := true })

/-- DMA_PIECE_ACK (R223): the destination acknowledges the oldest piece, and an engine counter rises by its words. A write to host
memory, another panel or a guest may be answered with a code of its own. -/
def execDmaPieceAck (e : EngIx) (q : QueueIx) (ix : Fin 65536) (code : Fin 16) (s : State) : Answer :=
  match s.flight e q ix with
  | none => .next s
  | some f => match f.unacked with
    | [] => .next s
    | (words, _) :: rest =>
      let outside := f.dstSpace == 2 || f.dstSpace == 3 || (f.dstSpace == 0 && decide (f.dst / 2 ^ 40 = 0x74))
      let st := if outside then (if f.dstSpace = 2 ∧ code.val ≠ 0 then St.HOST_ERR else code.val) else St.OK
      let f1 := { f with unacked := rest, asked := f.asked.drop 1, code := if f.code = 0 then st else f.code }
      let s1 := s.setFlight e f1
      match f.counter with
      | some c => .next (if st = St.OK then s1.addFld (Reg.ENG_ACNT e c) Fld.ENG_ACNT.COUNT words else s1)
      | none => .next s1

/-- A descriptor completes (R221, R224, R225). -/
def State.dmaComplete (s : State) (e : Nat) (f : Flight) : State :=
  let s1 := s.onEng e fun g => { g with flights := g.flights.filter fun x => !(x.q == f.q && x.ix == f.ix) }
  let s2 := if f.notify then s1.raiseEvent e 3 f.q f.tag else s1
  let a := Reg.ENG_DMAQ_STATUS e f.q
  let done := s2.dmaDone e f.q
  let failed := s2.fld a Fld.ENG_DMAQ_STATUS.INDEX
  let halted := s2.dmaHalted e f.q
  let s3 :=
    if f.code ≠ 0 then
      let s3 := if f.code = St.PAGED then
          s2.wr (Reg.PT_QSTAT e f.q) (bits f.args 31 16 * 65536 + f.dcode * 256 + f.pst) else s2
      if !halted || decide (ahead f.ix done < ahead failed done) then
        ((s3.wr a (2 ^ 31 + f.code * 65536 + f.ix)).setFld (Reg.ENG_DMAQ_HEAD e f.q) Fld.ENG_DMAQ_HEAD.HEAD f.ix).onDmaq
          e f.q fun x => { x with fin := x.fin.filter fun i => decide (ahead i done < ahead f.ix done) }
      else s3
    else if halted && decide (ahead failed done < ahead f.ix done) then s2
    else s2.dmaFinish e f.q f.ix
  s3.dmaRestart e f.q

/-- DMA_DESC_COMPLETE (R223 to R225): a descriptor whose pieces are moved and acknowledged, or that has failed with none left
unacknowledged, completes. -/
def execDmaDescComplete (e : EngIx) (q : QueueIx) (ix : Fin 65536) (s : State) : Answer :=
  match s.flight e q ix with
  | none => .next s
  | some f => if f.open' ∨ f.unacked ≠ [] then .next s else .next (s.dmaComplete e f)

end Sys2Proof.Machine
end

