-- ==== Sys2Proof/Machine/Paged.lean ====
section
/-! DEFINITION. Paged tensor memory: contexts, context operations, the walker, and the snapshot image (09_paged_tensors). -/
namespace Sys2Proof.Machine

/-! ### Status codes (R249) -/

/-- The codes of paged operations. -/
def Pt.OK : Nat := 0
def Pt.CTX_TABLE_FULL : Nat := 1
def Pt.CTX_UNKNOWN : Nat := 2
def Pt.CTX_STALE : Nat := 3
def Pt.LIST_LIMIT : Nat := 4
def Pt.LIST_ADDR : Nat := 5
def Pt.LENGTH_UNDER : Nat := 6
def Pt.OFFSET_RANGE : Nat := 7
def Pt.PAGE_HOLE : Nat := 8
def Pt.PAGE_RANGE : Nat := 9
def Pt.LIST_READ : Nat := 0xA
def Pt.BAD_ARGS : Nat := 0xB

/-! ### Contexts (R235, R236) -/

/-- A context record. -/
def State.ctx (s : State) (e id : Nat) : Ctx := SMap.getD (s.eng e).ctxs id { }

/-- Put a context record, and show how many are bound. -/
def State.setCtx (s : State) (e id : Nat) (c : Ctx) : State :=
  let s1 := s.onEng e fun g => { g with ctxs := SMap.set { } g.ctxs id c }
  s1.setFld (Reg.PT_STATUS e) Fld.PT_STATUS.BOUND ((s1.eng e).ctxs.filter fun p => p.2.bound).length

/-- The handle of a record. -/
def Ctx.handle (c : Ctx) (id : Nat) : Nat := c.gen * 4096 + id

/-- The check of a handle: OK, CTX_UNKNOWN or CTX_STALE (R235, R246). -/
def State.handleCheck (s : State) (e h : Nat) : Nat :=
  let c := s.ctx e (h % 4096)
  if !c.bound then Pt.CTX_UNKNOWN else if c.handle (h % 4096) ≠ h then Pt.CTX_STALE else Pt.OK

/-- The lowest free ID. -/
def State.freeCtx (s : State) (e : Nat) : Option Nat := (List.range 4096).find? fun i => !(s.ctx e i).bound

/-- Discard the cached lines of a context from line `n` on (R248). -/
def State.dropLines (s : State) (e id n : Nat) : State :=
  s.onEng e fun g => { g with lines := g.lines.filter fun l => l.ctx != id || decide (l.line < n) }

/-- Whether a page list lies where R234 allows it: in the engine's own scratchpad, one near part, or the spread view. -/
def State.listOk (s : State) (e a cap : Nat) : Bool :=
  a % 64 == 0 &&
    (match s.target a with
     | .spad e' off => e' == e && decide (off + 4 * cap ≤ 0x10000000)
     | _ => s.viewHolds a (4 * cap))

/-- The panel address that an engine-relative LIST_BASE names (R206, R242). -/
def State.relList (s : State) (e r : Nat) : Option Nat :=
  if r < 0x4000000000 then engRel e (s.nearOff e r) else engRel e r

/-! ### Context operations (R238 to R240) -/

/-- The outcome of a context operation: its status, handle and LENGTH, and the first page removed where it must drain. -/
structure CtxOut where
  status : Nat
  handle : Nat
  length : Nat
  drainFrom : Option Nat := none
  deriving DecidableEq, Repr

/-- BIND with CAP, LENGTH, LIST_BASE and OWNER_TAG (R239, R240). -/
def State.ctxBind (s : State) (e cap length tag : Nat) (list : Option Nat) : State × CtxOut :=
  let bad := fun st => (s, ⟨st, 0, 0, none⟩)
  if cap = 0 then bad Pt.BAD_ARGS
  else if 65536 < cap ∨ cap < length then bad Pt.LIST_LIMIT
  else match list with
    | none => bad Pt.LIST_ADDR
    | some a =>
      if !s.listOk e a cap then bad Pt.LIST_ADDR
      else match s.freeCtx e with
        | none => bad Pt.CTX_TABLE_FULL
        | some id =>
          let c : Ctx := { s.ctx e id with bound := true, list := a, length := length, cap := cap, tag := tag }
          ((s.dropLines e id 0).setCtx e id c, ⟨Pt.OK, c.handle id, length, none⟩)

/-- A context operation with PAGED_ARGS `w` (R240). An operation that fails changes nothing; the LENGTH it answers is that of the
record its handle names, 0 where it names none (log 31). -/
def State.ctxOp (s : State) (e w : Nat) (list : Option Nat) : State × CtxOut :=
  let op := bits w 7 0
  let h := bits w 31 16
  let count := bits w 63 32
  if op = 0x10 then s.ctxBind e (bits w 95 64) count (bits w 127 96) list
  else
    let id := h % 4096
    let c := s.ctx e id
    let chk := s.handleCheck e h
    if chk ≠ Pt.OK then (s, ⟨chk, h, 0, none⟩)
    else
      let bad := fun st => (s, ⟨st, h, c.length, none⟩)
      match op with
      | 0x11 =>
        if count = 0 ∨ 65536 < count then bad Pt.BAD_ARGS
        else if c.cap < c.length + count then bad Pt.LIST_LIMIT
        else ((s.dropLines e id (c.length / 16)).setCtx e id { c with length := c.length + count },
          ⟨Pt.OK, h, c.length + count, none⟩)
      | 0x12 =>
        if count = 0 then bad Pt.BAD_ARGS
        else if c.length < count then bad Pt.LENGTH_UNDER
        else (s.setCtx e id { c with length := c.length - count },
          ⟨Pt.OK, h, c.length - count, some (c.length - count)⟩)
      | 0x13 => ((s.dropLines e id 0).setCtx e id { gen := (c.gen + 1) % 16 }, ⟨Pt.OK, h, 0, some 0⟩)
      | 0x14 => (s.dropLines e id 0, ⟨Pt.OK, h, c.length, none⟩)
      | _ => bad Pt.BAD_ARGS

/-- A context operation ends: its outcome is shown in PT_CMD_STATUS and PT_CMD_LEN, or in its result word and its descriptor
(R243, R244). -/
def State.ctxEnd (s : State) (e : Nat) (from' : Option (Nat × Nat)) (o : CtxOut) : State :=
  match from' with
  | none =>
    let a := Reg.PT_CMD_STATUS e
    let s1 := s.wr a (putBits (putBits (putBits (s.rdN a) 31 31 0) 23 16 o.status) 15 0 o.handle)
    s1.wr (Reg.PT_CMD_LEN e) o.length
  | some (q, ix) =>
    match s.flight e q ix with
    | none => s
    | some f =>
      let done := { f with opDone := true, pst := o.status, code := if o.status = Pt.OK then f.code else St.PAGED }
      if !bit f.args 9 then s.setFlight e done
      else
        let bs := leBytes 1 o.status ++ leBytes 1 0 ++ leBytes 2 o.handle ++ leBytes 4 o.length
        let (s1, st, words) := s.dstWrite e f.dstSpace f.dst f.peer bs f.counter
        if st ≠ St.OK then
          s1.setFlight e { done with code := if o.status = Pt.OK then st else St.PAGED }
        else s1.setFlight e { done with
          unacked := f.unacked ++ [(if f.counter.isSome then words else 0, none)], asked := f.asked ++ [s.now] }

/-- Carry out a context operation, which ends at once or waits for its drain (R249). -/
def State.ctxRun (s : State) (e w : Nat) (list : Option Nat) (from' : Option (Nat × Nat)) : State :=
  let (s1, o) := s.ctxOp e w list
  match o.drainFrom with
  | none => s1.ctxEnd e from' o
  | some p => s1.onEng e fun g => { g with drain := some ⟨from', o.handle, p, o.length⟩ }

/-- LIST_BASE as PT_CMD_LIST names it (R244). -/
def State.cmdList (s : State) (e : Nat) : Option Nat :=
  let a := s.rdN (Reg.PT_CMD_LIST e 0) + s.fld (Reg.PT_CMD_LIST e 1) Fld.PT_CMD_LIST.BASE_HI * 2 ^ 32
  if s.flag (Reg.PT_CMD_LIST e 1) Fld.PT_CMD_LIST.REL then s.relList e a else some a

/-- The PAGED_ARGS layout in PT_CMD_ARG. -/
def State.cmdArgs (s : State) (e : Nat) : Nat :=
  leNat ((List.range 4).flatMap fun n => leBytes 4 (s.rdN (Reg.PT_CMD_ARG e n)))

/-- Run the command that waits, unless an operation is draining (R245). A reserved SUBOP or bit gives BAD_ARGS (R244). -/
def State.ptNext (s : State) (e : Nat) : State :=
  match (s.eng e).drain, (s.eng e).ptCmd with
  | none, some (w, l) =>
    let s1 := s.onEng e fun g => { g with ptCmd := none }
    if pagedArgsOk w then s1.ctxRun e w (if l = 0 then none else some (l - 1)) none
    else s1.ctxEnd e none ⟨Pt.BAD_ARGS, if bits w 7 0 = 0x10 then 0 else bits w 31 16, 0, none⟩
  | _, _ => s

/-- A write of PT_CMD (R244): a GO while one is BUSY, or for GATHER or SCATTER, is refused. -/
def State.opPtCmd (s : State) (e v : Nat) : State :=
  let a := Reg.PT_CMD_STATUS e
  if !bit v 0 then s
  else
    let w := s.cmdArgs e
    if s.flag a Fld.PT_CMD_STATUS.BUSY ∨ subopMoves (bits w 7 0) then s.setFlag a Fld.PT_CMD_STATUS.CMD_REJ true
    else
      let l := match s.cmdList e with
        | some x => x + 1
        | none => 0
      ((s.setFlag a Fld.PT_CMD_STATUS.BUSY true).onEng e fun g => { g with ptCmd := some (w, l) }).ptNext e

/-- A requester's write of PT_CMD: one that does not own the partition is refused and sets CMD_REJ (R244). -/
def State.ptCmdWrite (s : State) (r : Req) (e v : Nat) : State :=
  let s1 := s.gated r (Reg.PT_CMD e) v fun s => s.opPtCmd e v
  if s.mayWrite r (Reg.PT_CMD e) ∨ !s.reqLive r ∨ !bit v 0 ∨ !s.engineUp e ∨ (s.eng e).contained then s1
  else s1.setFlag (Reg.PT_CMD_STATUS e) Fld.PT_CMD_STATUS.CMD_REJ true

/-- LIST_BASE of a BIND descriptor (R242). -/
def State.descList (s : State) (e : Nat) (f : Flight) : Option Nat :=
  if f.srcSpace = 1 then s.relList e f.src else some f.src

/-- A context operation of SUBOP `op` is issued by a GO whose arguments name it, or by a descriptor that has started; operations run one
at a time, and a command goes before descriptors (R244, R245). -/
def State.ctxIssue (s : State) (e op : Nat) : CtxSrc → State
  | .go r => if bits (s.cmdArgs e) 7 0 = op then s.ptCmdWrite r e 1 else s
  | .desc q ix =>
    match s.flight e q ix with
    | none => s
    | some f =>
      if f.op ≠ 3 ∨ f.subop ≠ op ∨ f.code ≠ 0 ∨ f.opDone ∨ (s.eng e).drain ≠ none ∨ (s.eng e).ptCmd ≠ none then s
      else if !f.pagedOk then
        s.ctxEnd e (some (q.val, ix.val)) ⟨Pt.BAD_ARGS, if op = 0x10 then 0 else bits f.args 31 16, 0, none⟩
      else s.ctxRun e f.args (s.descList e f) (some (q.val, ix.val))

/-- BIND (R238 to R240). -/
def execBind (e : EngIx) (src : CtxSrc) (s : State) : Answer := .next (s.ctxIssue e 0x10 src)

/-- EXTEND (R238, R240, R248). -/
def execExtend (e : EngIx) (src : CtxSrc) (s : State) : Answer := .next (s.ctxIssue e 0x11 src)

/-- SHRINK (R238, R240, R249). -/
def execShrink (e : EngIx) (src : CtxSrc) (s : State) : Answer := .next (s.ctxIssue e 0x12 src)

/-- UNBIND (R235, R238, R249). -/
def execUnbind (e : EngIx) (src : CtxSrc) (s : State) : Answer := .next (s.ctxIssue e 0x13 src)

/-- REFRESH (R238, R248). -/
def execRefresh (e : EngIx) (src : CtxSrc) (s : State) : Answer := .next (s.ctxIssue e 0x14 src)

/-- Whether a piece translated through a removed entry is still under way. -/
def Flight.through (f : Flight) (id p : Nat) : Bool :=
  (f.unacked.any fun u => match u.2 with
    | some (i, k) => i == id && decide (p ≤ k)
    | none => false)
  || (match f.xlat with
    | some (_, k) => bits f.args 27 16 == id && decide (p ≤ k)
    | none => false)

/-- CTXOP_DRAIN_DONE (R249): the last piece translated through a removed entry has completed. -/
def execCtxopDrainDone (e : EngIx) (s : State) : Answer :=
  match (s.eng e).drain with
  | none => .next s
  | some d =>
    if (s.eng e).flights.any fun f => f.through (d.handle % 4096) d.fromPage then .next s
    else
      let s1 := s.onEng e fun g => { g with drain := none }
      .next ((s1.ctxEnd e d.flight ⟨Pt.OK, d.handle, d.length, none⟩).ptNext e)

/-! ### The walker (R246, R247) -/

/-- The context offset of a flight's next piece, and its length. -/
def Flight.paged (f : Flight) : Nat × Nat :=
  let (a, b, n) := f.next
  (if f.subop = 1 then a else b, n)

/-- A flight whose translation fails. -/
def State.walkFail (s : State) (e : Nat) (f : Flight) (st dcode : Nat) : State :=
  s.setFlight e { f with code := St.PAGED, pst := st, dcode := dcode, waiting := false }

/-- Translate through an entry of the list. -/
def State.walkEntry (s : State) (e : Nat) (f : Flight) (bytes : List Byte) : State :=
  let o := f.paged.1
  let page := o / 65536
  let x := leAt bytes (4 * (page % 16)) 4
  if x = 0xFFFFFFFF then s.walkFail e f Pt.PAGE_HOLE 0
  else if !s.viewHolds (x * 65536) 65536 then s.walkFail e f Pt.PAGE_RANGE 0
  else s.setFlight e { f with xlat := some (x * 65536 + o % 65536, page), waiting := false }

/-- The checks of a walk before the list: the handle and the offset. -/
def State.walkCheck (s : State) (e : Nat) (f : Flight) : Nat :=
  let h := bits f.args 31 16
  let chk := s.handleCheck e h
  if chk ≠ Pt.OK then chk
  else if (s.ctx e (h % 4096)).length ≤ f.paged.1 / 65536 then Pt.OFFSET_RANGE else Pt.OK

/-- WALK (R246, R247): the next piece of a GATHER or SCATTER is translated, fails, or waits on a list line; at most 16 misses are
outstanding. -/
def execWalk (e : EngIx) (q : QueueIx) (ix : Fin 65536) (s : State) : Answer :=
  match s.flight e q ix with
  | none => .next s
  | some f =>
    if f.op ≠ 3 ∨ !subopMoves f.subop ∨ !f.open' ∨ f.xlat ≠ none ∨ f.waiting then .next s
    else
      let chk := s.walkCheck e f
      if chk ≠ Pt.OK then .next (s.walkFail e f chk 0)
      else
        let id := bits f.args 27 16
        let line := f.paged.1 / 65536 / 16
        match (s.eng e).lines.find? fun l => l.ctx == id && l.line == line with
        | some l =>
          let s1 := s.onEng e fun g => { g with lines := (g.lines.filter (· != l)) ++ [l] }
          .next ((s1.addFld (Reg.PT_WALK_HIT e) Fld.PT_WALK_HIT.HITS 1).walkEntry e f l.bytes)
        | none =>
          let wait := s.setFlight e { f with waiting := true }
          if (s.eng e).misses.contains (id, line) then .next wait
          else if 16 ≤ (s.eng e).misses.length then .next s
          else
            let s1 := wait.onEng e fun g => { g with misses := g.misses ++ [(id, line)] }
            .next (s1.addFld (Reg.PT_WALK_MISS e) Fld.PT_WALK_MISS.MISSES 1)

/-- WALK_MISS_FILL (R247): a missing list line arrives, and the pieces that wait on it translate. -/
def execWalkMissFill (e : EngIx) (id : Fin 4096) (line : Fin 4096) (s : State) : Answer :=
  let k := (id.val, line.val)
  if !(s.eng e).misses.contains k then .next s
  else
    let s1 := s.onEng e fun g => { g with misses := g.misses.filter (· != k) }
    let waiters := (s1.eng e).flights.filter fun f =>
      f.waiting && bits f.args 27 16 == id.val && f.paged.1 / 65536 / 16 == line.val
    let c := s1.ctx e id
    let (s2, st, bs) := if c.bound then s1.memRead (c.list + 64 * line) 64 (some e.val) else (s1, St.OK, [])
    let s3 := if c.bound && st == St.OK then s2.onEng e fun g =>
        let ls := g.lines ++ [⟨id, line, bs⟩]
        { g with lines := ls.drop (ls.length - 1024) } else s2
    .next (waiters.foldl (fun s f =>
      let chk := s.walkCheck e f
      if chk ≠ Pt.OK then s.walkFail e f chk 0
      else if st ≠ St.OK then s.walkFail e f Pt.LIST_READ st
      else s.walkEntry e f bs) s3)

/-- PAGED_GATHER (R238, R242, R246): the translated piece is read through the context and written to its destination. -/
def execPagedGather (e : EngIx) (q : QueueIx) (ix : Fin 65536) (s : State) : Answer :=
  match s.flight e q ix with
  | none => .next s
  | some f =>
    match f.xlat with
    | none => .next s
    | some (a, page) =>
      if f.op ≠ 3 ∨ f.subop ≠ 1 ∨ !f.open' then .next s
      else
        let (_, b, n) := f.next
        let (s1, st, bs) := s.memRead a n (some e.val)
        .next (s1.pieceWrite e f st bs f.dstSpace b n (some (bits f.args 27 16, page)))

/-- PAGED_SCATTER (R238, R242, R246): the translated piece is read from its source and written through the context. -/
def execPagedScatter (e : EngIx) (q : QueueIx) (ix : Fin 65536) (code : Fin 16) (data : List Byte) (s : State) : Answer :=
  match s.flight e q ix with
  | none => .next s
  | some f =>
    match f.xlat with
    | none => .next s
    | some (a, page) =>
      if f.op ≠ 3 ∨ f.subop ≠ 2 ∨ !f.open' then .next s
      else
        let (x, _, n) := f.next
        match s.srcRead e f.srcSpace x n f.peer ⟨code, data⟩ with
        | none => .next s
        | some (s1, st, bs) => .next (s1.pieceWrite e f st bs 0 a n (some (bits f.args 27 16, page)))

/-! ### Snapshot and takeover (R250, R251) -/

/-- The 32 bytes of a record (R236). -/
def Ctx.bytes (c : Ctx) (id : Nat) : List Byte :=
  leBytes 8 c.list ++ leBytes 4 c.length ++ leBytes 4 c.cap ++ leBytes 4 c.tag ++ leBytes 2 (c.handle id)
    ++ leBytes 1 (b2n c.bound) ++ leBytes 9 0

/-- Where the image stands in the engine scratchpad; values above 0x3F_F800 act as 0x3F_F800. -/
def State.snapAt (s : State) (e : Nat) : Nat := min (s.rdN (Reg.PT_SNAP_ADDR e)) 0x3FF800 * 64

/-- The image is written at the start of a varnish phase; not into banks that may not be accessed. -/
def State.ptSnap (s : State) (e : Nat) : State :=
  let a := s.snapAt e
  if !s.flag (Reg.PT_CTRL e) Fld.PT_CTRL.SNAP_EN ∨ !s.spRangeOpen (.hub e) a 131072 then s
  else s.spWriteWords (.hub e) a ((List.range 4096).flatMap fun id => (s.ctx e id).bytes id)

/-- A record as it is loaded: whether it is bad, and the record. -/
def ctxLoad (x : List Byte) (id : Nat) : Bool × Ctx :=
  let gen := leAt x 20 2 / 4096
  let bound := byteAt x 22
  let bad := !zeroAt x 23 9 || decide (2 ^ 48 ≤ leAt x 0 8) || decide (1 < bound) || decide (leAt x 12 4 < leAt x 8 4)
    || decide (65536 < leAt x 12 4) || leAt x 20 2 % 4096 != id
  if bad || bound == 0 then (bad, { gen := gen })
  else (false, ⟨true, gen, leAt x 0 8, leAt x 8 4, leAt x 12 4, leAt x 16 4⟩)

/-- On activation the standby loads its whole context table from its image, and empties its walker cache (R251). An image that the
scratchpad cannot give leaves the table as it is, with RESTORE_BAD set (log 32). -/
def State.ptRestore (s : State) (e : Nat) : State :=
  let a := s.snapAt e
  if !s.flag (Reg.PT_CTRL e) Fld.PT_CTRL.RESTORE_EN then s
  else
    let st := Reg.PT_STATUS e
    if !s.spRangeOpen (.hub e) a 131072 then s.setFlag st Fld.PT_STATUS.RESTORE_BAD true
    else
      let (s1, bs, bad) := s.spReadBytes (.hub e) a 131072
      match bad with
      | some _ => (s1.fault Src.HUB_SPM_UE e 0).setFlag st Fld.PT_STATUS.RESTORE_BAD true
      | none =>
        let s2 := s1.onEng e fun g => { g with lines := [] }
        (List.range 4096).foldl (fun s id =>
          let (b, c) := ctxLoad (slice bs (32 * id) 32) id
          let s1 := s.setCtx e id c
          if b then s1.setFlag st Fld.PT_STATUS.RESTORE_BAD true else s1) s2

end Sys2Proof.Machine
end

