-- ==== Sys2Proof/Machine/Cadence.lean ====
section
/-! DEFINITION. The reference, the engine clocks, the master count and its beats, the nominal grid and the period plans
(12_clocks_cadence R299 to R324). -/
namespace Sys2Proof.Machine

/-! ### The reference (R299, R300) -/

/-- Where an engine takes its reference: none is the Easel drive, `some x` engine x. -/
def refFrom (e : Nat) (alt : Bool) : Option Nat :=
  let col := e % 8
  if e = 3 ∨ e = 4 then (if alt then some (7 - e) else none)
  else if e < 8 then some (if alt then e + 8 else if col ≤ 2 then e + 1 else e - 1)
  else some (if alt then (if col ≤ 3 then e + 1 else e - 1) else e - 8)

/-- CAD_ENG_CLK.REF of an engine: 0 primary, 1 alternate, 2 none. -/
def State.refSel (s : State) (e : Nat) : Nat := s.fld (Reg.CAD_ENG_CLK e) Fld.CAD_ENG_CLK.REF

/-- Engines between the Easel drive and engine `e` on the references in use; an engine without a reference counts as its own
drive. -/
def State.refHops (s : State) : Nat → Nat → Nat
  | 0, _ => 0
  | n + 1, e =>
    match s.refSel e with
    | 2 => 0
    | r => match refFrom e (r == 1) with
      | none => 0
      | some x => 1 + s.refHops n x

/-- Whether an engine may take a source that shows edges: not one 47 hops away or more, nor one fed by the engine itself. -/
def State.refUsable (s : State) (e : Nat) (alt edges : Bool) : Bool :=
  edges && (match refFrom e alt with
    | none => true
    | some x => decide (s.refHops 48 x + 1 < 47) && !(decide (s.refSel x ≤ 1) && refFrom x (s.refSel x == 1) == some e))

/-- Put REF, and HOPS as it then stands. -/
def State.setRef (s : State) (e v : Nat) : State :=
  let s1 := s.setFld (Reg.CAD_ENG_CLK e) Fld.CAD_ENG_CLK.REF v
  s1.setFld (Reg.CAD_ENG_CLK e) Fld.CAD_ENG_CLK.HOPS (s1.refHops 48 e)

/-- A cadence source of an engine is raised: its bit, the panel's bit, and the fault. -/
def State.cadFault (s : State) (e : Nat) (own all : Fld) (src : Nat) : State :=
  ((s.setFlag (Reg.CAD_ENG_FAULT e) own true).setFlag Reg.CAD_FAULT all true).fault src e 0

/-- REF_SOURCE_SWITCH (R300): the selected source shows no edges for 50 ns; `primary` and `alternate` say which sources do. -/
def execRefSourceSwitch (e : EngIx) (primary alternate : Bool) (s : State) : Answer :=
  let r := s.refSel e
  if 2 ≤ r ∨ (if r = 0 then primary else alternate) then .next s
  else
    let alt := r == 0
    if s.refUsable e alt (if alt then alternate else primary) then .next (s.setRef e (b2n alt))
    else .next ((s.setFld (Reg.CAD_ENG_CLK e) Fld.CAD_ENG_CLK.REF 2).cadFault e Fld.CAD_ENG_FAULT.REF_LOST
      Fld.CAD_FAULT.REF_LOST Src.REF_LOST)

/-- REF_SOURCE_RETURN (R300): an engine that is off its primary source returns to it once it is usable; one in holdover takes its
alternate else (log 34). -/
def execRefSourceReturn (e : EngIx) (primary alternate : Bool) (s : State) : Answer :=
  let r := s.refSel e
  if r ≠ 0 ∧ s.refUsable e false primary then .next (s.setRef e 0)
  else if r = 2 ∧ s.refUsable e true alternate then .next (s.setRef e 1)
  else .next s

/-! ### The engine clock (R301, R303; 16_power R426) -/

/-- The failed regulator stages of the die that governs an engine: its dies in use and its hub (16 R426). -/
def State.worstStages (s : State) (e : Nat) : Nat :=
  (List.range 6).foldl (fun w m =>
    if m = 5 ∨ (s.dieAt e m).isSome then max w (SMap.getD s.stages (e * 6 + m) 0) else w) 0

/-- The clock that lost stages leave, in MHz (16 R426). -/
def stageCap (n : Nat) : Nat :=
  match n with
  | 4 => 912
  | 5 => 884
  | 6 => 855
  | _ => 940

/-- The clock that a throttle level leaves (16 R430). -/
def levelCap (n : Nat) : Nat :=
  match n with
  | 0 => 940
  | 1 => 912
  | 2 => 884
  | 3 => 855
  | _ => 827

/-- The clock limit of an engine: the lower of its stages' and its throttle level's (R301, 16 R426, R430; 19 R494). -/
def State.clockCap (s : State) (e : Nat) : Nat :=
  min (stageCap (s.worstStages e)) (levelCap (max (s.eng e).sup.throttle (s.eng e).therm.level))

/-- The engine clock: its cap or what droop leaves it, never below 827 MHz. -/
def State.clockMhz (s : State) (e : Nat) : Nat := max 827 (min (s.clockCap e) (s.eng e).clk.droop)

/-- Show the clock in FREQ and in the droop record (R324; log 35). -/
def State.clockShow (s : State) (e : Nat) : State :=
  if !(s.eng e).clk.locked then s
  else
    let f := s.clockMhz e
    let old := s.fld (Reg.CAD_ENG_CLK e) Fld.CAD_ENG_CLK.FREQ
    let a := Reg.CAD_ENG_DROOP e
    let s1 := s.setFld (Reg.CAD_ENG_CLK e) Fld.CAD_ENG_CLK.FREQ f
    let s2 := if old = 940 ∧ f < 940 then s1.satFld a Fld.CAD_ENG_DROOP.DROOPS 1 else s1
    if f < s2.fld a Fld.CAD_ENG_DROOP.MIN_FREQ then s2.setFld a Fld.CAD_ENG_DROOP.MIN_FREQ f else s2

/-- OSC_STRETCH (R301): droop lets the oscillator run at `mhz`, and 940 or more is a recovered supply. -/
def execOscStretch (e : EngIx) (mhz : Fin 1024) (s : State) : Answer :=
  .next ((s.onEng e fun g => { g with clk := { g.clk with droop := mhz.val } }).clockShow e)

/-- The warnings of an engine within the last 1 ms. -/
def State.warnSum (s : State) (e : Nat) : Nat :=
  (((s.eng e).clk.warns.filter fun w => s.now < w.1 + 1000000).map (·.2)).sum

/-- Count the replicas that failed to settle in one cycle, and raise MARGIN_WARN when those of 1 ms reach the limit (R303). -/
def State.marginWarn (s : State) (e m path n : Nat) : State :=
  let a := Reg.CAD_ENG_MARGIN e
  let lim := max 1 (s.fld Reg.CAD_MARGIN_CFG Fld.CAD_MARGIN_CFG.WARN_LIMIT)
  let old := s.warnSum e
  let s1 := s.onEng e fun g => { g with clk := { g.clk with
    warns := (g.clk.warns.filter fun w => s.now < w.1 + 1000000) ++ [(s.now, n)] } }
  let s2 := ((s1.satFld a Fld.CAD_ENG_MARGIN.WARN n).setFld a Fld.CAD_ENG_MARGIN.POSITION m).setFld a
    Fld.CAD_ENG_MARGIN.REPLICA path
  if old < lim ∧ lim ≤ old + n then
    s2.cadFault e Fld.CAD_ENG_FAULT.MARGIN_WARN Fld.CAD_FAULT.MARGIN_WARN Src.MARGIN_WARN
  else s2

/-- MARGIN_WARN (R303): `n` replicas fail to settle in one cycle, the last of them path `path` of die `m`. -/
def execMarginWarn (e : EngIx) (m : Fin 6) (path : Fin 16) (n : Fin 128) (s : State) : Answer :=
  if !(s.eng e).clk.locked ∨ n.val = 0 then .next s else .next (s.marginWarn e m path n)

/-- MARGIN_LOST (R303): the same in a cycle in which the oscillator is at 827 MHz. -/
def execMarginLost (e : EngIx) (m : Fin 6) (path : Fin 16) (n : Fin 128) (s : State) : Answer :=
  if !(s.eng e).clk.locked ∨ n.val = 0 ∨ s.clockMhz e ≠ 827 then .next s
  else .next ((s.marginWarn e m path n).cadFault e Fld.CAD_ENG_FAULT.MARGIN_LOST Fld.CAD_FAULT.MARGIN_LOST Src.MARGIN_LOST)

/-! ### The passage of time (R304 to R306, R312) -/

/-- A part of `x` of at most `r`, with its sign. -/
def limited (x : Int) (r : Nat) : Int := max (-(r : Int)) (min (r : Int) x)

/-- The master count one tick of the reference later: it holds, or moves on by a tick with its trim and slew. -/
def State.tickMaster (s : State) : State :=
  let b := s.beat
  if 0 < b.hold then { s with beat := { b with hold := b.hold - 1 } }
  else
    let c := limited b.slew b.rate
    { s with master := s.master + ((2 ^ 24 : Int) + b.trim + c).toNat, beat := { b with slew := b.slew - c } }

/-- An engine's count one tick later: it holds until the master has reached it, or moves on, slewed by at most 1,000 ppm. -/
def Engine.tick (g : Engine) (master : Nat) : Engine :=
  if !g.clk.locked then g
  else if g.clk.hold then
    if g.count < master then { g with count := master, clk := { g.clk with hold := false } } else g
  else
    let c := limited g.clk.slew 16777
    { g with count := g.count + ((2 ^ 24 : Int) + c).toNat, clk := { g.clk with slew := g.clk.slew - c } }

/-- One tick: the master count and the engine counts advance. An engine whose clock is not locked stays as it is, so the store keeps its
canonical form. -/
def State.tickCounts (s : State) : State :=
  let s1 := { s with now := s.now + 1 }.tickMaster
  { s1 with engines := s1.engines.map fun p => (p.1, p.2.tick s1.master) }

/-- The correction of an engine's count at a sync edge (R306). The edge reaches every engine after its measured delay, so its
count less that delay stands beside the multiple as it stands beside the master count (log 36). -/
def State.syncEngine (s : State) (e : Nat) : State :=
  let g := s.eng e
  if !g.clk.locked then s
  else
    let s1 := s.onEng e fun g => { g with clk := { g.clk with edgeAt := s.now, misses := 0 } }
    let d : Int := (s.master : Int) - g.count
    let t := 2 ^ 24
    if d.natAbs ≤ 10 * t then s1.onEng e fun g => { g with clk := { g.clk with slew := d, hold := false } }
    else
      let s2 := s1.onEng e fun g => if 0 < d then { g with count := s.master, clk := { g.clk with slew := 0, hold := false } }
        else { g with clk := { g.clk with slew := 0, hold := true } }
      if 100 * t < d.natAbs then
        s2.cadFault e Fld.CAD_ENG_FAULT.TIME_UNLOCK Fld.CAD_FAULT.TIME_UNLOCK Src.TIME_UNLOCK
      else s2

/-- The TIME packet that each powered guest receives after a sync edge (15 R409). -/
def State.timePackets (s : State) : State :=
  ((List.range 4).filter fun g => s.flag (Reg.SK_GUEST_STAT g) Fld.SK_GUEST_STAT.POWERED).foldl
    (fun s g => s.emit (.guest g [0] (leBytes 8 s.ticks))) s

/-- SYNC_EDGE (R306, R309): the master has passed a multiple of 10,000 ticks; the edge reaches every engine but those of
`lost`. A value set by CAD_CTRL.SET then takes effect, if it exceeds the count (log 37). -/
def execSyncEdge (lost : Fin 0x1000000000000) (s : State) : Answer :=
  let k := s.master / (10000 * 2 ^ 24)
  if k ≤ s.edgeMark then .next s
  else
    let s1 := { s with edgeMark := k }
    let s2 := (((List.range 48).filter fun e => !bit lost.val e).foldl State.syncEngine s1).timePackets
    match s2.setPend with
    | none => .next s2
    | some v =>
      let s3 := { s2 with setPend := none }
      if s3.ticks < v ∧ s3.fld Reg.CAD_BEAT_CFG Fld.CAD_BEAT_CFG.SOURCE = 0 then
        .next { s3 with master := v * 2 ^ 24, edgeMark := v / 10000 }
      else .next (s3.setFlag Reg.CAD_FAULT Fld.CAD_FAULT.CFG_REJ true)

/-- SYNC_MISS (R306): an engine has seen no edge for 15 us; the fourth miss in a row raises TIME_UNLOCK (log 38). -/
def execSyncMiss (e : EngIx) (s : State) : Answer :=
  let g := s.eng e
  if !g.clk.locked ∨ s.now < g.clk.edgeAt + 15000 then .next s
  else
    let s1 := s.onEng e fun g => { g with clk := { g.clk with edgeAt := s.now, misses := g.clk.misses + 1 } }
    let s2 := s1.satFld (Reg.CAD_ENG_FAULT e) Fld.CAD_ENG_FAULT.SYNC_MISS 1
    .next (if g.clk.misses + 1 = 4 then
      s2.cadFault e Fld.CAD_ENG_FAULT.TIME_UNLOCK Fld.CAD_FAULT.TIME_UNLOCK Src.TIME_UNLOCK else s2)

/-! ### The master: CAD_CTRL.SET and the beat settings (R309 to R311) -/

/-- A CAD write is discarded. -/
def State.cadRej (s : State) : State := s.setFlag Reg.CAD_FAULT Fld.CAD_FAULT.CFG_REJ true

/-- The beat source. -/
def State.beatSrc (s : State) : Nat := s.fld Reg.CAD_BEAT_CFG Fld.CAD_BEAT_CFG.SOURCE

/-- The beat period that acts (R311). -/
def State.beatPeriod (s : State) : Nat :=
  let p := s.fld Reg.CAD_BEAT_PERIOD Fld.CAD_BEAT_PERIOD.PERIOD
  if s.beatSrc = 3 then max p 1000000 else p

/-- Put the state of the master, and show it: a stuck input shows 5 (R324). -/
def State.setBeat (s : State) (b : Beat) : State :=
  { s with beat := b }.setFld Reg.CAD_BEAT_STAT Fld.CAD_BEAT_STAT.STATE (if b.stuck then 5 else b.mode)

/-- A write of CAD_CTRL (R309). -/
def State.opCadCtrl (s : State) (v : Nat) : State :=
  if !bit v 0 then s
  else if s.beatSrc ≠ 0 then s.cadRej
  else { s with setPend := some (s.rdN (Reg.CAD_SET 0) + s.rdN (Reg.CAD_SET 1) * 2 ^ 32) }

/-- CAD_SET (R309): a write of CAD_CTRL. -/
def execCadSet (r : Req) (v : Word) (s : State) : Answer :=
  .next (s.gated r Reg.CAD_CTRL v.toNat fun s => s.opCadCtrl v.toNat)

/-- A write of CAD_BEAT_CFG (R310, R314). -/
def State.opBeatCfg (s : State) (v : Nat) : State :=
  let a := Reg.CAD_BEAT_CFG
  let src := bits v 2 0
  if 4 ≤ src then s.cadRej
  else
    let old := s.rdN a
    let s1 := s.plainWrite a v
    let b := s1.beat
    let fresh := decide (src ≠ bits old 2 0) || (src == 2 && decide (bits v 6 4 ≠ bits old 6 4))
      || (src == 3 && decide (bits v 8 8 ≠ bits old 8 8)) || b.stuck
    if src = 0 then s1.setBeat { b with mode := 0, stuck := false }
    else if fresh then s1.setBeat { b with mode := 1, stuck := false }
    else s1

/-- BEAT_CFG_WRITE (R310). -/
def execBeatCfgWrite (r : Req) (v : Word) (s : State) : Answer :=
  .next (s.gated r Reg.CAD_BEAT_CFG v.toNat fun s => s.opBeatCfg v.toNat)

/-- A write of CAD_BEAT_PERIOD (R311): the expected beats are then the multiples of the new period. -/
def State.opBeatPeriod (s : State) (v : Nat) : State :=
  let p := bits v 29 0
  if p < 1000 ∨ 1000000000 < p then s.cadRej
  else
    let s1 := s.plainWrite Reg.CAD_BEAT_PERIOD v
    { s1 with beat := { s1.beat with next := s1.ticks / s1.beatPeriod + 1 } }

/-! ### Beats (R311 to R315) -/

/-- Half the width of the window of the next expected beat. -/
def State.beatWindow (s : State) : Nat := max (s.beat.m * s.beatPeriod / 2000) 8

/-- The expected time of the next beat. -/
def State.beatDue (s : State) : Nat := s.beat.next * s.beatPeriod

/-- The record of an accepted beat. -/
def State.beatRecord (s : State) : State :=
  ((((s.wr (Reg.CAD_BEAT_LAST 0) (s.ticks % 2 ^ 32)).wr (Reg.CAD_BEAT_LAST 1) (s.ticks / 2 ^ 32)).satFld Reg.CAD_BEAT_CNT
    Fld.CAD_BEAT_CNT.ACCEPTED 1).setFld Reg.CAD_BEAT_STAT Fld.CAD_BEAT_STAT.MISSED 0)

/-- A beat accepted in ACQUIRE or LOST: the master steps forward to the target, or slews down to it (R312). -/
def State.beatAcquire (s : State) (time : Nat) : State :=
  let p := s.beatPeriod
  let target := if s.beatSrc = 1 then (s.ticks + (p - 1)) / p * p else time
  let s1 := s.beatRecord
  let b := { s1.beat with mode := 2, next := (target + p / 2) / p + 1, m := 1, hold := 0 }
  if s1.master < target * 2 ^ 24 then { s1 with master := target * 2 ^ 24 }.setBeat { b with slew := 0 }
  else s1.setBeat { b with slew := ((target * 2 ^ 24 : Nat) : Int) - s1.master, rate := 16777 }

/-- A beat accepted in LOCKED or HOLDOVER (R312): `d` is its time less its expected time. A beat without a time value that comes
late finds the master ahead; a time value that is late finds it behind (log 39). -/
def State.beatCorrect (s : State) (d : Int) : State :=
  let p := s.beatPeriod
  let c := if s.beatSrc = 1 then -d else d
  let near := limited c (p / 2000)
  let rest := c - near
  let s1 := (s.beatRecord).wr Reg.CAD_BEAT_ERR (ofSigned 32 d)
  let b := s1.beat
  let b1 := { b with
    mode := 2, next := b.next + 1, m := 1, slew := near * 2 ^ 24, rate := 8388
    hold := (-rest).toNat, trim := limited (b.trim + c * 2 ^ 24 / ((b.m * p : Nat) : Int) / 4) 3355 }
  { s1 with master := s1.master + (rest * 2 ^ 24).toNat }.setBeat b1

/-- A beat of time `time` reaches the master. -/
def State.beatIn (s : State) (time : Nat) : State :=
  let mode := s.beat.mode
  if mode = 1 ∨ mode = 4 then s.beatAcquire time
  else
    let d : Int := (time : Int) - s.beatDue
    if d.natAbs ≤ s.beatWindow then s.beatCorrect d else s.satFld Reg.CAD_BEAT_CNT Fld.CAD_BEAT_CNT.WINDOW 1

/-- A beat is missing (R311, R313): the first brings HOLDOVER, the eighth in a row LOST. -/
def State.beatMiss (s : State) : State :=
  let b := s.beat
  let s1 := s.satFld Reg.CAD_BEAT_STAT Fld.CAD_BEAT_STAT.MISSED 1
  let b1 := { b with next := b.next + 1, m := b.m + 1 }
  if 8 ≤ s1.fld Reg.CAD_BEAT_STAT Fld.CAD_BEAT_STAT.MISSED then
    ((s1.setBeat { b1 with mode := 4 }).setFlag Reg.CAD_FAULT Fld.CAD_FAULT.BEAT_LOST true).fault Src.BEAT_LOST panelScope 0
  else s1.setBeat { b1 with mode := 3 }

/-- BEAT_ACCEPT (R311, R312, R315): a beat arrives, an edge of BEAT_IN (`wide`: still active after 20 ns) or a link message that carries
`time`; the filters decide. -/
def execBeatAccept (wide : Bool) (time : Word64) (s : State) : Answer :=
  match s.beatSrc with
  | 1 =>
    if s.beat.stuck then .next s
    else if !wide then .next (s.satFld Reg.CAD_BEAT_CNT Fld.CAD_BEAT_CNT.NARROW 1)
    else .next (s.beatIn s.ticks)
  | 2 => .next (s.beatIn time.toNat)
  | _ => .next s

/-- BEAT_MISSING (R311, R313): a window has closed with no beat accepted. -/
def execBeatMissing (s : State) : Answer :=
  let mode := s.beat.mode
  if (mode = 2 ∨ mode = 3) ∧ s.beatSrc ≠ 0 ∧ s.beatDue + s.beatWindow < s.ticks then .next s.beatMiss else .next s

/-- BEAT_STUCK (R314): BEAT_IN has stayed active for more than half a period. -/
def execBeatStuck (s : State) : Answer :=
  if s.beatSrc ≠ 1 ∨ s.beat.stuck then .next s
  else .next (((s.setBeat { s.beat with stuck := true }).setFlag Reg.CAD_FAULT Fld.CAD_FAULT.BEAT_STUCK true).fault
    Src.BEAT_STUCK panelScope 0)

/-- PTM_DIALOGUE (R310, R315): the dialogue of a beat period; a reply carries PTM master time, and none within 10 us is a missing
beat. -/
def execPtmDialogue (reply : Option Word64) (s : State) : Answer :=
  if s.beatSrc ≠ 3 then .next s
  else match reply with
    | some t => .next (s.beatIn ((t.toNat + s.rdN (Reg.CAD_PTM_OFFSET 0) + s.rdN (Reg.CAD_PTM_OFFSET 1) * 2 ^ 32) % 2 ^ 64))
    | none => if s.beat.mode = 2 ∨ s.beat.mode = 3 then .next s.beatMiss else .next s

/-! ### The nominal grid (R316) -/

/-- Whether an engine keeps its partition's grid from changing. -/
def State.gridHeld (s : State) (e : Nat) : Bool :=
  s.cvState e == Cv.LOADING || (s.cvState e != Cv.EMPTY && (s.plan e).isSome)

/-- A write of CAD_PART_ORIGIN (words 0 and 1) or CAD_PART_PERIOD (2). -/
def State.opPartGrid (s : State) (r : Req) (p i v : Nat) : State :=
  let part := s.ground.parts.find? fun x => x.id == p
  let held := match part with
    | some x => x.list.any s.gridHeld
    | none => false
  let owned := match part with
    | some x => x.ownedBy r
    | none => r == .easel
  if held || (i == 2 && decide (v ≠ 0 ∧ v < 1000)) || !owned then s.cadRej
  else s.wr (if i = 2 then Reg.CAD_PART_PERIOD p else Reg.CAD_PART_ORIGIN p i) v

/-- PART_GRID_WRITE (R316). -/
def execPartGridWrite (r : Req) (p : Fin 16) (i : Fin 3) (v : Word) (s : State) : Answer :=
  let a := if i.val = 2 then Reg.CAD_PART_PERIOD p else Reg.CAD_PART_ORIGIN p i
  .next (s.gated r a v.toNat fun s => s.opPartGrid r p i v.toNat)

/-! ### Phases and periods (R317 to R323) -/

/-- Whether a period of the plan is in progress. -/
def State.inPeriod (s : State) (e : Nat) : Bool :=
  s.flag (Reg.CAD_ENG_PHASE e) Fld.CAD_ENG_PHASE.PLAN && !(s.eng e).canvas.waitPeriod

/-- What a phase does at its start (R317). -/
def State.phaseWork (s : State) (e kind : Nat) : State :=
  match kind with
  | 0 => s.beginSeq e
  | 2 => if s.flag (Reg.VS_CTRL e) Fld.VS_CTRL.AUTO then s.vsSnap e false else s
  | 3 => s.onEng e fun g => { g with scrubbed := 0 }
  | 4 => s.ptSnap e
  | _ => s

/-- Phase `k` starts (R321): its lateness is cut from an elastic phase out of the budget. -/
def State.phaseStart (s : State) (e : Nat) (x : List Byte) (k : Nat) : State :=
  let g := (s.eng e).sched
  let now := s.stamp e
  let late := now - (s.nominal e g.n + planStart x k)
  let kind := planKind x k
  let cut := if elastic kind then min late (min g.budget (planned x k)) else 0
  let work := kind == 0 || (kind == 4 && (s.flag (Reg.ENG_STBY_ARM e) Fld.ENG_STBY_ARM.ARMED || s.pairCovers e))
  let s1 := s.onEng e fun y => { y with sched := { g with
    phase := k, start := now, target := now + planned x k - cut, budget := g.budget - cut, workDone := !work
    lost := g.lost && decide (late ≠ 0) } }
  ((s1.setFld (Reg.CAD_ENG_PHASE e) Fld.CAD_ENG_PHASE.PHASE k).wr (Reg.CAD_ENG_BUDGET e) (g.budget - cut)).phaseWork e kind

/-- Nominal period `n` starts; in STOPPING the canvas is DONE instead (R320, R321). -/
def State.periodStart (s : State) (e : Nat) (x : List Byte) (n : Nat) : State :=
  if s.cvState e = Cv.STOPPING then s.seqStop e
  else
    let s1 := s.onEng e fun g => { g with
      canvas := { g.canvas with waitPeriod := false }, sched := { g.sched with n := n, budget := planBudget x } }
    (s1.wr (Reg.CAD_ENG_PERIOD e) n).phaseStart e x 0

/-- The phase in progress ends (R321, R323). -/
def State.phaseEnd (s : State) (e : Nat) (x : List Byte) : State :=
  let g := (s.eng e).sched
  if g.realign then
    let m := firstNominal (s.gridOrigin e) (s.gridPeriod e) (s.stamp e)
    (s.satFld (Reg.CAD_ENG_PHASE e) Fld.CAD_ENG_PHASE.SKIPPED (m - (g.n + 1))).awaitPeriod e m
  else if g.phase + 1 < planCount x then s.phaseStart e x (g.phase + 1)
  else s.periodStart e x (g.n + 1)

/-- PHASE_BOUNDARY (R319 to R321, R323): the awaited nominal start has come, or the phase has reached its target with its work
done. -/
def execPhaseBoundary (e : EngIx) (s : State) : Answer :=
  match s.plan e with
  | none => .next s
  | some x =>
    let g := (s.eng e).sched
    let c := s.cvState e
    if c ≠ Cv.RUNNING ∧ c ≠ Cv.STOPPING then .next s
    else if (s.eng e).canvas.waitPeriod then
      if g.startAt ≤ s.stamp e then .next (s.periodStart e x g.n) else .next s
    else if s.inPeriod e ∧ g.target ≤ s.stamp e ∧ g.workDone then .next (s.phaseEnd e x)
    else .next s

/-- The lag of an engine (R322). -/
def State.lag (s : State) (e : Nat) : Nat :=
  match s.plan e with
  | none => 0
  | some x =>
    if !s.inPeriod e then 0
    else
      let g := (s.eng e).sched
      let nom := s.nominal e g.n + planStart x g.phase
      max (g.start - nom) (s.stamp e - (nom + planned x g.phase))

/-- SCHED_LOST (R322): the lag exceeds four periods; raised once per episode. -/
def execSchedLost (e : EngIx) (s : State) : Answer :=
  if (s.eng e).sched.lost ∨ s.lag e ≤ 4 * s.gridPeriod e then .next s
  else .next ((s.onEng e fun g => { g with sched := { g.sched with lost := true } }).cadFault e
    Fld.CAD_ENG_FAULT.SCHED_LOST Fld.CAD_FAULT.SCHED_LOST Src.SCHED_LOST)

/-- A write of CAD_ENG_CTRL (R323). -/
def State.opRealign (s : State) (e v : Nat) : State :=
  if bit v 0 && s.inPeriod e then s.onEng e fun g => { g with sched := { g.sched with realign := true } } else s

/-- REALIGN (R323). -/
def execRealign (r : Req) (e : EngIx) (v : Word) (s : State) : Answer :=
  .next (s.gated r (Reg.CAD_ENG_CTRL e) v.toNat fun s => s.opRealign e v.toNat)

/-! ### Writes that clear (R324) -/

/-- A write of CAD_ENG_DROOP. -/
def State.opDroopClear (s : State) (e : Nat) : State := s.wr (Reg.CAD_ENG_DROOP e) 940

/-- CAD_ENG_DROOP_CLEAR (R324). -/
def execCadEngDroopClear (r : Req) (e : EngIx) (v : Word) (s : State) : Answer :=
  .next (s.gated r (Reg.CAD_ENG_DROOP e) v.toNat fun s => s.opDroopClear e)

/-- A write of CAD_ENG_MARGIN. -/
def State.opMarginClear (s : State) (e : Nat) : State :=
  s.setFld (Reg.CAD_ENG_MARGIN e) Fld.CAD_ENG_MARGIN.WARN 0

/-- CAD_ENG_MARGIN_CLEAR (R324). -/
def execCadEngMarginClear (r : Req) (e : EngIx) (v : Word) (s : State) : Answer :=
  .next (s.gated r (Reg.CAD_ENG_MARGIN e) v.toNat fun s => s.opMarginClear e)

/-- CAD_BEAT_CNT_CLEAR (R324). -/
def execCadBeatCntClear (r : Req) (v : Word) (s : State) : Answer :=
  .next (s.gated r Reg.CAD_BEAT_CNT v.toNat fun s => s.wr Reg.CAD_BEAT_CNT 0)

end Sys2Proof.Machine
end

