-- ==== Sys2Proof/Machine/Standby.lean ====
section
/-! DEFINITION. Standby engines: arming, varnish passes and commits, activation and restore (06_canvases_glazes R166 to
R172). -/
namespace Sys2Proof.Machine

/-! ### The STANDBY section (R166, R167) -/

/-- The STANDBY body of an engine's canvas. -/
def State.stbyBody (s : State) (e : Nat) : List Byte := ((s.eng e).canvas.body 0xC 0xFF 0xFF).getD []

/-- STATIC_LEN and VARNISH_LEN. -/
def staticLenOf (x : List Byte) : Nat := leAt x 0 8
def varnishLenOf (x : List Byte) : Nat := leAt x 8 4

/-- The restore list: DEST and LEN. -/
def restoreList (x : List Byte) : List (Nat × Nat) :=
  (records x 16 16 (leAt x 12 2)).map fun r => (leAt r 0 8, leAt r 8 4)

/-- Whether a standby covers an engine. -/
def State.covers (s : State) (b e : Nat) : Bool := bit (s.rdN (Reg.ENG_STBY_COVER b (e / 32))) (e % 32)

/-- The slot of a covered engine: the covered engines below it. -/
def State.slotOf (s : State) (b e : Nat) : Nat := ((List.range e).filter fun i => s.covers b i).length

/-- Where slot `k` starts in the near part of a standby. -/
def State.slotAt (s : State) (b k : Nat) : Nat :=
  let x := s.stbyBody b
  s.fld (Reg.ENG_STBY_AREA b) Fld.ENG_STBY_AREA.AREA_BLK * 4096 + k * (staticLenOf x + 2 * varnishLenOf x)

/-- Where a varnish buffer of slot `k` starts. -/
def State.bufferAt (s : State) (b k buf : Nat) : Nat :=
  let x := s.stbyBody b
  s.slotAt b k + staticLenOf x + buf * varnishLenOf x

/-! ### Arming (R168, R169) -/

/-- The code of the first condition of R169 that fails, or 0. -/
def State.armCode (s : State) (e b : Nat) : Nat :=
  let k := s.slotOf b e
  let x := s.stbyBody b
  let g := (s.eng e).canvas
  firstFail [
    (1, decide (b < 48) && s.engineUp b && s.cvState b == Cv.STANDBY),
    (2, g.digest != [] && g.digest == (s.eng b).canvas.digest && s.rdN (Reg.ENG_CANVAS_ID e 0) == s.rdN (Reg.ENG_CANVAS_ID b 0)
      && s.rdN (Reg.ENG_CANVAS_ID e 1) == s.rdN (Reg.ENG_CANVAS_ID b 1)),
    (3, s.covers b e),
    (4, decide (k < 8)),
    (5, decide (s.slotAt b (k + 1) ≤ s.limit * 0x4000000) && decide (0 < varnishLenOf x)),
    (6, (s.partOf e).isSome && s.partOf e == s.partOf b)]

/-- A write of ENG_STBY_ARM (R168, R169). -/
def State.opStbyArm (s : State) (e v : Nat) : State :=
  let s1 := s.plainWrite (Reg.ENG_STBY_ARM e) v
  let s2 := if bit v 1 then s1.disarm e 7 else s1
  if bit v 0 then s2.onEng e fun g => { g with armAsk := true } else s2

/-- STBY_ARM (R168): a write of ENG_STBY_ARM with ARM asks the standby's hub. -/
def execStbyArm (r : Req) (e : EngIx) (v : Word) (s : State) : Answer :=
  .next (s.gated r (Reg.ENG_STBY_ARM e) v.toNat fun s => s.opStbyArm e v.toNat)

/-- STBY_ARM_REPLY (R169; 18 R476): the answer is shown, and the collector keeps a copy of a successful arming. -/
def execStbyArmReply (e : EngIx) (s : State) : Answer :=
  if !(s.eng e).armAsk then .next s
  else
    let a := Reg.ENG_STBY_ARM e
    let b := s.fld a Fld.ENG_STBY_ARM.STANDBY_ENG
    let code := s.armCode e b
    if code ≠ 0 then .next (s.disarm e code)
    else
      let s1 := if SMap.find? s.armCopies e = some b then s.onEng e fun g => { g with armAsk := false } else s.disarm e 0
      let s2 := ((s1.setFlag a Fld.ENG_STBY_ARM.ARMED true).setFld a Fld.ENG_STBY_ARM.ARM_CODE 0).setFld a
        Fld.ENG_STBY_ARM.SLOT (s.slotOf b e)
      .next { s2 with armCopies := SMap.put s2.armCopies e b }

/-- STBY_DISARM (R173): a write of ENG_STBY_ARM with DISARM. -/
def execStbyDisarm (r : Req) (e : EngIx) (v : Word) (s : State) : Answer :=
  .next (s.gated r (Reg.ENG_STBY_ARM e) v.toNat fun s => s.opStbyArm e v.toNat)

/-- A write of ENG_STBY_COVER: clearing the bit of an armed engine disarms it (R173). -/
def State.opStbyCover (s : State) (b n v : Nat) : State :=
  let s1 := s.plainWrite (Reg.ENG_STBY_COVER b n) v
  (s1.armCopies.filter fun p => p.2 == b && p.1 / 32 == n && !s1.covers b p.1).foldl (fun s p => s.disarm p.1 7) s1

/-- STBY_COVER_WRITE (R173). -/
def execStbyCoverWrite (r : Req) (e : EngIx) (n : Fin 2) (v : Word) (s : State) : Answer :=
  .next (s.gated r (Reg.ENG_STBY_COVER e n) v.toNat fun s => s.opStbyCover e n v.toNat)

/-! ### The varnish (R170) -/

/-- Copy one range of the restore list from engine `e` to the near part of a standby, block by block, up to the first access
that fails. -/
def State.varnishOut (s : State) (e b dst : Nat) : List (Nat × Nat) → State × Nat
  | [] => (s, St.OK)
  | (a, n) :: l =>
    let (s1, st, bs) := s.ownRead e a n
    if st ≠ St.OK then (s1, st)
    else
      let (s2, st2) := s1.memWrite (nearBase b + dst) bs none
      if st2 ≠ St.OK then (s2, st2) else s2.varnishOut e b (dst + n) l

/-- Pieces of at most 64 bytes of a restore list: every piece lies within one block on both sides. -/
def varnishPieces (x : List Byte) : List (Nat × Nat) :=
  (restoreList x).flatMap fun p => (List.range (p.2 / 64)).map fun i => (p.1 + 64 * i, 64)

/-- Whether an engine stands in a VARNISH phase whose work is not done. -/
def State.inVarnish (s : State) (e : Nat) : Bool :=
  match s.plan e with
  | none => false
  | some x => s.inPeriod e && planKind x (s.eng e).sched.phase == 4 && !(s.eng e).sched.workDone
      && (s.cvState e == Cv.RUNNING || s.cvState e == Cv.STOPPING)

/-- The local pass of a VARNISH phase: it writes the buffer that is not current, and its commit makes that buffer current; a pass that
fails leaves the earlier one current. -/
def State.varnishPass (s : State) (e : Nat) : State :=
  match SMap.find? s.armCopies e with
  | none => s
  | some b =>
    let k := s.fld (Reg.ENG_STBY_ARM e) Fld.ENG_STBY_ARM.SLOT
    let buf := match SMap.find? (s.eng b).commits e with
      | some c => 1 - c.buffer
      | none => 0
    let (s1, st) := s.varnishOut e b (s.bufferAt b k buf) (varnishPieces (s.stbyBody e))
    if st ≠ St.OK ∨ s1.cvState b ≠ Cv.STANDBY then s1
    else s1.onEng b fun g => { g with commits := SMap.put g.commits e ⟨buf, s.nominal e (s.eng e).sched.n⟩ }

/-! ### The pair's varnish (14 R393, R394) -/

/-- Send a packet of a kind to the partner on the first pair port that is live. -/
def State.pairSend (s : State) (x : LinkPkt) : State := s.linkSend (if s.linkLive 6 then 6 else 7) x

/-- The bytes of an engine's varnish, up to the first range that fails. -/
def State.varnishBytes (s : State) (e : Nat) : List (Nat × Nat) → State × Nat × List Byte
  | [] => (s, St.OK, [])
  | (a, n) :: l =>
    let (s1, st, bs) := s.ownRead e a n
    if st ≠ St.OK then (s1, st, [])
    else
      let (s2, st2, rest) := s1.varnishBytes e l
      (s2, st2, bs ++ rest)

/-- Send a varnish pass, block by block: ADDR names the engine and the block (log 49). -/
def State.mirrorPass (s : State) (e : Nat) : State :=
  let (s1, st, bs) := s.varnishBytes e (varnishPieces (s.stbyBody e))
  if st ≠ St.OK then s1
  else
    let blocks := chunks 4096 (bs.length / 4096) bs
    let s2 := ((List.range blocks.length).zip blocks).foldl
      (fun s p => s.pairSend { kind := 0x30, addr := e * 2 ^ 36 + p.1 * 4096, data := p.2 }) s1
    { s2 with pair := { s2.pair with sent := s2.pair.sent ++ [e] } }

/-- The engines of the protected partition that run. -/
def State.pairEngines (s : State) : List Nat :=
  (List.range 48).filter fun e => s.pairCovers e && (s.cvState e == Cv.RUNNING || s.cvState e == Cv.STOPPING)

/-- Send one marked block to the partner's stage as entry `j`. -/
def State.mirrorBlock (s : State) (j b : Nat) : State :=
  let (s1, st, bs) := s.memRead (b * 4096) 4096 none
  if st ≠ St.OK then s1 else s1.pairSend { kind := 0x30, addr := b * 4096, aux := 1 + 2 * j, data := bs }

/-- When every pass of the period is sent: the marked blocks and the commit go out, or the period's blocks exceed the stage and no commit
is sent (R394). The first commit after the regions have been copied makes the pair PROTECTED (R395). -/
def State.pairCommit (s : State) (e : Nat) : State :=
  if !(s.pairEngines.all fun x => s.pair.sent.contains x) then s
  else
    let n := s.pair.marks.length
    let sent := s.pair.sent.length
    let s1 := { s with pair := { s.pair with sent := [] } }
    let st := Reg.LNK_PAIR_STAT
    if s1.pair.partner.stage.val < n then
      ((s1.setFld st Fld.LNK_PAIR_STAT.STATE 4).setFlag Reg.LNK_FAULT Fld.LNK_FAULT.PAIR_OVERFLOW true).fault Src.PAIR_OVERFLOW panelScope 0
    else
      let s2 := ((List.range n).zip s1.pair.marks).foldl (fun s p => s.mirrorBlock p.1 p.2) s1
      let s2' : State := { s2 with pair := { s2.pair with marks := [] } }
      let s3 := s2'.pairSend { kind := 0x31, addr := (s2.eng e).sched.n % 2 ^ 32, aux := n * 2 ^ 8 + sent }
      if s3.pair.seed = [] then s3.setFld st Fld.LNK_PAIR_STAT.STATE 3 else s3

/-- The pair's part of an engine's VARNISH phase. -/
def State.pairPass (s : State) (e : Nat) : State :=
  if s.pairCovers e && (s.linkLive 6 || s.linkLive 7) then (s.mirrorPass e).pairCommit e else s

/-- VARNISH_COMMIT (R170; 12 R321; 14 R393, R394): the pass of a VARNISH phase is written, and its commit message arrives whole; the
pass to the partner goes with it. -/
def execVarnishCommit (e : EngIx) (s : State) : Answer :=
  if !s.inVarnish e then .next s
  else .next (((s.varnishPass e).pairPass e).onEng e fun g => { g with sched := { g.sched with workDone := true } })

/-! ### Activation (R171, R172) -/

/-- The notice that a standby acts on: the first whose engine is armed to it. Partner engine e of a pair counts as 48 + e (14 R396). -/
def State.noticeOf (s : State) (b : Nat) : Option Nat :=
  (s.eng b).notices.find? fun e => decide (48 ≤ e) || SMap.find? s.armCopies e == some b

/-- The slot of a covered engine; a stand-in uses slot 0. -/
def State.slotFor (s : State) (e : Nat) : Nat := if 48 ≤ e then 0 else s.fld (Reg.ENG_STBY_ARM e) Fld.ENG_STBY_ARM.SLOT

/-- Steps 1 and 2 of R171 for a committed slot. -/
def State.activate (s : State) (b e : Nat) : State :=
  let k := s.slotFor e
  let s1 := (s.setCvState b Cv.ACTIVATING).disarmAll b (some e)
  let s2 := s1.onEng b fun g => { g with
    adopted := some e, slotBase := s.slotAt b k, staticLen := staticLenOf (s.stbyBody b), notices := [] }
  (s2.cellsFresh b).captureEvent 0x0C (e % 48) (1 + 256 * b)

/-- STANDBY_ACTIVATE (R171, R172): the containment notice of an armed covered engine acts at its standby. -/
def execStandbyActivate (e : EngIx) (s : State) : Answer :=
  let b := e.val
  if s.cvState b ≠ Cv.STANDBY ∨ (s.eng b).contained then .next s
  else match s.noticeOf b with
    | none => .next s
    | some x =>
      match SMap.find? (s.eng b).commits x with
      | none => .next ((s.onEng b fun g => { g with notices := g.notices.erase x }).setFld (Reg.ENG_STBY_COVER b 1)
          Fld.ENG_STBY_COVER.NO_VARNISH 1)
      | some _ => .next (s.activate b x)

/-- Copy the current buffer along the restore list: `src` is a near offset of the standby itself; a piece that cannot be read is
left out, with its fault raised (log 40). -/
def State.varnishIn (s : State) (b src : Nat) : List (Nat × Nat) → State
  | [] => s
  | (a, n) :: l =>
    let (s1, st, bs) : State × Nat × List Byte := match s.nearPlace b src with
      | some (t, j, o) => s.hbmRead t j o n (some b)
      | none => (s, St.ADDR_UNMAPPED, [])
    let s2 := if st = St.OK then (s1.ownWrite b a bs none).1 else s1
    s2.varnishIn b (src + n) l

/-- STANDBY_RESTORE_DONE (R171; 09 R251): the varnish is copied, the context table loaded, the adoption handed to the router, and the
sequence awaits the partition's next period start. -/
def execStandbyRestoreDone (e : EngIx) (s : State) : Answer :=
  let b := e.val
  match (s.eng b).adopted with
  | none => .next s
  | some x =>
    if s.cvState b ≠ Cv.ACTIVATING then .next s
    else
      let body := s.stbyBody b
      let buf := match SMap.find? (s.eng b).commits x with
        | some c => c.buffer
        | none => 0
      let s1 := (s.varnishIn b ((s.eng b).slotBase + staticLenOf body + buf * varnishLenOf body) (varnishPieces body)).ptRestore b
      let s2 := { s1 with adoptQ := s1.adoptQ ++ [(x, b)], armCopies := SMap.erase s1.armCopies x }
      .next ((s2.onEng b fun g => { g with commits := [] }).startSeq b)

end Sys2Proof.Machine
end

