-- ==== Sys2Proof/Machine/Network.lean ====
section
/-! DEFINITION. The panel networks: packets through routers and the ring, links and lane groups, down positions and adoption, the
resource watchdog, injection throttling (11_panel_networks R273 to R294), and what an engine does at an abort line
(18_faults R475). -/
namespace Sys2Proof.Machine

/-! ### Fault records of a router (R298) -/

/-- Set a bit of NET_FAULT; NET_FAULT_AT takes the first fault since NET_FAULT was zero. -/
def State.netFault (s : State) (e : Nat) (f : Fld) (kind net port pos : Nat) : State :=
  let s1 := if s.rdN (Reg.NET_FAULT e) = 0 then
    s.wr (Reg.NET_FAULT_AT e) (kind * 2 ^ 16 + net * 2 ^ 12 + port * 2 ^ 8 + pos) else s
  s1.setFlag (Reg.NET_FAULT e) f true

/-! ### Routes (R282 to R284) -/

/-- The position-table word of router `e` for position `p`. -/
def State.routeWord (s : State) (e p : Nat) : Nat := leAt s.ground.routes (0x490 + e * 256 + 4 * p) 4

/-- The primary and the alternate output for a network. -/
def outputs (w net : Nat) : Nat × Nat := (bits w (6 * net + 2) (6 * net), bits w (6 * net + 5) (6 * net + 3))

/-- Whether the link of output `o` (0 to 3) is up for a network: the torus links for requests and replies, the mesh links
for control. -/
def State.linkUp (s : State) (e net o : Nat) : Bool :=
  let st := s.fld (Reg.NET_LINK e (if net = 2 then 4 + o else o)) Fld.NET_LINK.STATE
  st == 2 || st == 3

/-- The neighbour of an engine on output N, E, S or W of the folded torus. -/
def neighbour (e o : Nat) : Nat :=
  let c := e % 8
  let r := e / 8
  match o with
  | 0 => (r + 5) % 6 * 8 + c
  | 1 => r * 8 + (c + 1) % 8
  | 2 => (r + 1) % 6 * 8 + c
  | _ => r * 8 + (c + 7) % 8

/-- Whether the move crosses the wrap link of its ring (R278). -/
def wraps (e o : Nat) : Bool :=
  match o with
  | 0 => decide (e / 8 = 0)
  | 1 => decide (e % 8 = 7)
  | 2 => decide (e / 8 = 5)
  | _ => decide (e % 8 = 0)

/-- The ring's stops in clockwise order, as positions (R551); EZ-A and EZ-B share position 58. -/
def ringStops : List Nat :=
  [56, 0, 1, 48, 2, 3, 60, 58, 4, 5, 6, 49, 7, 15, 50, 23, 61, 31, 39, 51, 47, 57, 46, 52, 45, 44, 62, 43, 42, 41, 53, 40, 32,
    54, 24, 63, 16, 8, 55]

/-- The stop of a position. -/
def stopOf (p : Nat) : Option Nat := ringStops.idxOf? p

/-- Whether clockwise is the shorter way from one stop to another (log 41). -/
def clockwise (a b : Nat) : Bool := decide ((b + 39 - a) % 39 ≤ 19)

/-- The entry edge engine and direction of edge position `p` for engine `e` (R282, R284); direction true is clockwise. -/
def State.entryStop (s : State) (p e : Nat) : Nat × Bool :=
  let b := byteAt s.ground.routes (0x3490 + (p - 48) * 48 + e)
  (b % 64, !bit b 6)

/-! ### Packets -/

/-- Remove packet `i`. -/
def State.dropPacket (s : State) (i : Nat) : State := { s with packets := s.packets.eraseIdx i }

/-- Put packet `i`. -/
def State.setPacket (s : State) (i : Nat) (p : Packet) : State := { s with packets := s.packets.set i p }

/-- A packet reaches its destination: a reply completes at an engine's hub. -/
def State.deliver (s : State) (i : Nat) (p : Packet) : State :=
  let s1 := s.dropPacket i
  if p.net = 1 ∧ p.dst < 48 then s1.emit (.hubDone p.dst p.status []) else s1

/-- A packet that cannot go on is answered to its source, if it is a request, and is gone (R286). -/
def State.answerPacket (s : State) (i : Nat) (p : Packet) : State :=
  let st := if p.spread.isSome then St.SPREAD_LOST else St.TARGET_RESET
  if p.net = 0 then s.setPacket i { p with
      net := 1, src := p.dst, dst := p.src, bytes := 0, spread := none, status := st
      vc1 := false, rows := false, alt := false }
  else s.dropPacket i

/-- Whether the destination of a packet is down for router `e`: a spread request is delivered while its stack serves
(R283, R286). -/
def State.packetDown (s : State) (e : Nat) (p : Packet) : Bool :=
  let lost := (s.eng e).lost.contains p.dst
  match p.spread with
  | some t => lost || !s.serves t
  | none => lost || s.posDown p.dst

/-- Neither output of router `e` is up for a packet: ROUTE_LOST, and the position counts as down there (R283). -/
def State.routeLost (s : State) (e i : Nat) (p : Packet) : State :=
  let s1 := (s.netFault e Fld.NET_FAULT.ROUTE_LOST 4 p.net 0 p.dst).fault Src.NET_ROUTE_LOST e 0
  (s1.onEng e fun g => { g with lost := g.lost ++ [p.dst] }).answerPacket i p

/-- The router counter of an output (10 R271). -/
def rstCounter (net o : Nat) : Nat := if net = 2 then 11 else 4 * net + o

/-- Count one cycle in which a flit has no credit. -/
def State.rstCount (s : State) (e n : Nat) : State :=
  if s.frozen e then s else s.addFld (Reg.VS_RST e n) Fld.VS_RST.COUNT 1

/-- A packet leaves router `e` on link `o`. -/
def State.hopOn (s : State) (e i : Nat) (p : Packet) (o : Nat) (alt : Bool) : State :=
  let row := o == 0 || o == 2
  let vc := if row && !p.rows then wraps e o else p.vc1 || wraps e o
  s.setPacket i { p with at' := neighbour e o, vc1 := p.net != 2 && vc, rows := p.rows || row, alt := p.alt || alt }

/-- TORUS_HOP (R281 to R283, R286): the router of packet `i` forwards, delivers or answers it. -/
def execTorusHop (i : Fin 65536) (credit : Bool) (s : State) : Answer :=
  match s.packets[i.val]? with
  | none => .next s
  | some p =>
    let e := p.at'
    if p.ring.isSome then .next s
    else if s.packetDown e p then .next (s.answerPacket i p)
    else
      let (pri, alt) := outputs (s.routeWord e p.dst) p.net
      if pri = 5 then .next (s.deliver i p)
      else if pri = 4 then
        match stopOf e, stopOf p.dst with
        | some a, some b => .next (if credit then s.setPacket i { p with ring := some (a, clockwise a b) } else s.rstCount e 10)
        | _, _ => .next (s.routeLost e i p)
      else
        let useAlt := (p.alt && decide (alt < 4)) || !s.linkUp e p.net pri
        let o := if useAlt then alt else pri
        if 4 ≤ o ∨ !s.linkUp e p.net o then .next (s.routeLost e i p)
        else if !credit then .next (s.rstCount e (rstCounter p.net o))
        else .next (s.hopOn e i p o useAlt)

/-- RING_FORWARD (R274, R282, R293): packet `i` moves on by one segment, or leaves the ring at its stop, unless that engine's stop is
out of service. -/
def execRingForward (i : Fin 65536) (credit : Bool) (s : State) : Answer :=
  match s.packets[i.val]? with
  | none => .next s
  | some p => match p.ring with
    | none => .next s
    | some (a, cw) =>
      let exit' := if 48 ≤ p.dst then p.dst else (s.entryStop p.src p.dst).1
      if ringStops.getD a 0 = exit' then
        if 48 ≤ exit' then .next (s.deliver i p)
        else if s.posDown exit' then .next (s.answerPacket i p)
        else if !credit then .next (s.rstCount exit' 10)
        else .next (s.setPacket i { p with ring := none, at' := exit', vc1 := false, rows := false, alt := false })
      else if !credit then .next s
      else .next (s.setPacket i { p with ring := some ((if cw then a + 1 else a + 38) % 39, cw) })

/-! ### Injection (R291) -/

/-- The bucket of an engine now: it fills by RATE per engine cycle, up to its size. -/
def State.bucketNow (s : State) (e : Nat) : Nat :=
  let a := Reg.NET_INJ e
  let size := max 4 (s.fld a Fld.NET_INJ.BURST) * 1024
  let rate := min 1024 (s.fld a Fld.NET_INJ.RATE)
  let (lvl, at') := (s.eng e).bucket
  min size (lvl + (s.now - at') * s.clockMhz e / 1000 * rate)

/-- INJECT_ADMIT (R291): a packet of the engine is injected; a request waits for the bucket to hold its charge, the payload of a write or of
a read's reply. -/
def execInjectAdmit (e : EngIx) (net : NetIx) (dst : Fin 64) (spread : Option (Fin 96)) (bytes reply : Fin 4097) (s : State) :
    Answer :=
  if !s.engineUp e then .next s
  else
    let charge := min 4096 (max bytes.val reply.val)
    let p : Packet := { net := net.val, src := e.val, dst := dst.val, bytes := bytes.val, spread := spread.map (·.val), at' := e.val }
    let free := decide (net.val ≠ 0) || s.fld (Reg.NET_INJ e) Fld.NET_INJ.RATE == 0
    let have' := s.bucketNow e
    if free then .next { s with packets := s.packets ++ [p] }
    else if have' < charge then .next (s.rstCount e 8)
    else
      let s1 := s.onEng e fun g => { g with bucket := (have' - charge, s.now) }
      .next { s1 with packets := s1.packets ++ [p] }

/-! ### Links (R276, R277) -/

/-- FLIT_REPLAY (R276): a CRC error of link `n` makes the sender replay. -/
def execFlitReplay (e : EngIx) (n : Fin 8) (s : State) : Answer :=
  let a := Reg.NET_LINK e n
  let st := s.fld a Fld.NET_LINK.STATE
  if st ≠ 2 ∧ st ≠ 3 then .next s else .next (s.satFld a Fld.NET_LINK.CRC_REPLAY 1)

/-- A link goes down. -/
def State.linkDown (s : State) (e n : Nat) : State :=
  let s1 := s.setFld (Reg.NET_LINK e n) Fld.NET_LINK.STATE 4
  (s1.netFault e Fld.NET_FAULT.LINK_DOWN 2 (if 4 ≤ n then 2 else 0) (n % 4) 0).fault Src.NET_LINK_DOWN e n

/-- LANE_GROUP_FAIL (R277): a lane group of torus link `n` fails and the spare or a lower rate takes over, or the link goes down; a
mesh link has no groups and goes down. -/
def execLaneGroupFail (e : EngIx) (n : Fin 8) (reply : Bool) (group : Fin 9) (s : State) : Answer :=
  let a := Reg.NET_LINK e n
  let st := s.fld a Fld.NET_LINK.STATE
  if st ≠ 2 ∧ st ≠ 3 then .next s
  else if 4 ≤ n.val then .next (s.linkDown e n)
  else
    let s1 := ((s.netFault e Fld.NET_FAULT.LANE_FAIL 3 (b2n reply) n 0).fault Src.NET_LANE_FAIL e n).queueDefect
      ⟨5, e, n, b2n reply + 2 * group.val, 2⟩
    if !s1.flag a Fld.NET_LINK.SPARE_USED then .next (s1.setFlag a Fld.NET_LINK.SPARE_USED true)
    else
      let g := s1.fld a Fld.NET_LINK.GROUPS - 1
      let s2 := (s1.setFld a Fld.NET_LINK.GROUPS g).setFld a Fld.NET_LINK.STATE 3
      .next (if g < 4 then s2.linkDown e n else s2)

/-! ### Positions (R286, R287) -/

/-- The feed ports discard the waiting reads of an engine that goes down (13 R353). -/
def State.feedForget (s : State) (e : Nat) : State :=
  let kept := s.feeds.map fun p => (p.1, { p.2 with waits := p.2.waits.filter (·.engine != e) })
  { s with feeds := kept.filter fun p => !(p.2 == { }) }

/-- POSITION_DOWN (R286, R296): an announced position is down for every router, and a member leaves its barrier channel. -/
def execPositionDown (p : Fin 64) (s : State) : Answer :=
  if !s.annDown.contains p.val then .next s
  else
    let s1 := { s with annDown := s.annDown.erase p.val, edgeDown := if s.edgeDown.contains p.val then s.edgeDown
      else s.edgeDown ++ [p.val] }
    .next (if p.val < 48 then ((s1.feedForget p.val).collsLose [p.val]).barLeave p.val else s1)

/-- POSITION_UP (R286, R296): it returns to normal routing, and MEMBER takes effect for it. -/
def execPositionUp (p : Fin 64) (s : State) : Answer :=
  if !s.annUp.contains p.val ∨ s.annDown.contains p.val then .next s
  else
    let s1 := { s with annUp := s.annUp.erase p.val, edgeDown := s.edgeDown.erase p.val }
    .next (if p.val < 48 then s1.memberSyncOf p.val else s1)

/-- Rewrite every FEID map entry of position `e` to position `b`, PRIMARY marks included (R287). -/
def rewriteFeid (m : SMap Nat) (e b : Nat) : SMap Nat :=
  m.foldl (fun acc p =>
    let x := SMap.getD m p.1 0
    if x % 64 = e then SMap.set 0 acc p.1 (x - e + b) else acc) m

/-- The link ports that lead along the chain: live and not in pair mode (14 R389). -/
def State.chainPorts (s : State) : List Nat := (List.range 8).filter fun p => s.linkLive p && !s.linkPaired p

/-- A stand-in takes the FEIDs of partner engine `e`, and the link dies flood ADOPT (14 R396). -/
def State.adoptPartner (s : State) (e b : Nat) : State :=
  let mine := s.pair.partner.feids.filter fun p => p.2.val == e
  let s1 := { s with pair := { s.pair with feids := mine.foldl (fun m (p : Fin 256 × EngIx) => SMap.put m p.1.val b) s.pair.feids } }
  let body := leBytes 2 (s.fld Reg.LNK_PAIR_STAT Fld.LNK_PAIR_STAT.PARTNER) ++ leBytes 2 s.panelNo
  s1.chainPorts.foldl (fun s p => s.linkSend p { kind := 0x23, data := body }) s1

/-- ADOPTION_BROADCAST (R287; 14 R396): the oldest adoption that a hub has broadcast is in every map. -/
def execAdoptionBroadcast (s : State) : Answer :=
  match s.adoptQ with
  | [] => .next s
  | (e, b) :: l =>
    if 48 ≤ e then .next ({ s with adoptQ := l }.adoptPartner (e - 48) b)
    else .next { s with adoptQ := l, edgeFeid := rewriteFeid s.edgeFeid e b }

/-! ### The resource watchdog and the tree (R290, R294) -/

/-- RESOURCE_WDOG_BITE (R290): a requester at `port` has held a grant on `net` without moving for the limit; packet `i`, if it names one
of that router, is cut, and answered with TARGET_RESET. -/
def execResourceWdogBite (e : EngIx) (net : Fin 5) (port : Fin 8) (i : Option (Fin 65536)) (s : State) : Answer :=
  if !s.engineUp e ∨ !s.flag (Reg.NET_WDOG e) Fld.NET_WDOG.ENABLE then .next s
  else
    let s1 := (s.netFault e Fld.NET_FAULT.WDOG_BITE 1 net port 0).fault Src.NET_WDOG e 0
    match i with
    | none => .next s1
    | some j => match s1.packets[j.val]? with
      | none => .next s1
      | some p =>
        if p.at' ≠ e.val then .next s1
        else if p.net = 0 then .next (s1.answerPacket j { p with spread := none })
        else if p.net = 1 then .next (s1.deliver j { p with status := St.TARGET_RESET })
        else .next (s1.dropPacket j)

/-- SYNC_MISMATCH (R294): the rails of the tree disagree at an engine for more than 40 ns. -/
def execSyncMismatch (e : EngIx) (s : State) : Answer :=
  if !s.engineUp e then .next s
  else .next ((s.netFault e Fld.NET_FAULT.SYNC_MISMATCH 5 0 0 0).fault Src.NET_SYNC_MISMATCH e 0)

/-! ### The abort lines at an engine (R297; 18 R475) -/

/-- Every fabric entry of an engine is discarded, but those of a die whose FAB_FAULT is set (18 R475 step 2; 05 R135). -/
def State.fabDiscard (s : State) (e : Nat) : State :=
  let s1 := (List.range 4).foldl (fun s d =>
    if s.rdN (Reg.FAB_FAULT e (s.posOf e d)) ≠ 0 then s
    else s.setFab e d { held := (s.fab e d).held, bitQuiet := (s.fab e d).bitQuiet, bitAge := (s.fab e d).bitAge }) s
  s1.onEng e fun g => { g with hubIn := [] }

/-- Every channel stream of an engine stops; those of the run that was cut begin their next run (log 42). -/
def State.streamsCut (s : State) (e : Nat) : State :=
  if !(s.eng e).canvas.running then s
  else ((s.streamRecs e).filter fun p => bit p.2.glazes (s.glaze e)).foldl
    (fun s p => s.setStream e p.1 { runs := (s.streamSt e p.1).runs + 1 }) s

/-- An abort at an engine that runs (18 R475): the work of the period is dropped, and step 0 starts at the first nominal start
strictly later; without a period plan the canvas is DONE. -/
def State.abortRun (s : State) (e : Nat) : State :=
  let s1 := ((s.streamsCut e).fabDiscard e).cellsFresh e
  match s1.plan e with
  | none => s1.seqStop e
  | some _ =>
    let g := (s1.eng e).sched
    let m := firstNominal (s1.gridOrigin e) (s1.gridPeriod e) (s1.stamp e + 1)
    let s2 := (s1.cellsToStart e).onEng e fun x => { x with canvas := { x.canvas with switchStuck := false } }
    if (s1.eng e).canvas.waitPeriod then s2.awaitPeriod e (max m g.n)
    else (s2.satFld (Reg.CAD_ENG_PHASE e) Fld.CAD_ENG_PHASE.SKIPPED (m - (g.n + 1))).awaitPeriod e m

/-- ABORT_LINE (R297; 18 R475): an asserted line is counted, and acts on an engine that runs. -/
def execAbortLine (e : EngIx) (s : State) : Answer :=
  let g := s.eng e
  if !g.abortPart ∧ !g.abortPanel then .next s
  else
    let s1 := s.onEng e fun g => { g with abortPart := false, abortPanel := false }
    if !s1.engineUp e then .next s1
    else
      let a := Reg.NET_ABORT_STAT e
      let s2 := s1.satFld a Fld.NET_ABORT_STAT.COUNT (b2n g.abortPart + b2n g.abortPanel)
      let s3 := if g.abortPart then s2.setFlag a Fld.NET_ABORT_STAT.PART_SEEN true else s2
      let s4 := if g.abortPanel then s3.setFlag a Fld.NET_ABORT_STAT.PANEL_SEEN true else s3
      let c := s4.cvState e
      .next (if c = Cv.RUNNING ∨ c = Cv.STOPPING then s4.abortRun e else s4)

end Sys2Proof.Machine
end

