-- ==== Sys2Proof/Machine/GroundCheck.lean ====
section
/-! DEFINITION. The checks of a ground image (06_canvases_glazes R139, R146 to R148, R162; 11 R284, R285; 16 R438; 08 R208; 07 R197) and the
image in force that its sections make. -/
namespace Sys2Proof.Machine

/-! ### ROUTE_TABLES (11 R284, R285) -/

/-- The edge engines: those with a ring stop (00 R17). -/
def edgeEngine (e : Nat) : Bool := decide (e < 48) && ringStops.contains e

/-- The table word of router `e` for position `p`. -/
def tableWord (x : List Byte) (e p : Nat) : Nat := leAt x (0x490 + e * 256 + 4 * p) 4

/-- The output field `i` (0 to 5) of a table word. -/
def outField (w i : Nat) : Nat := bits w (3 * i + 2) (3 * i)

/-- The FEID map entries. -/
def mapWords (x : List Byte) : List Nat := (List.range 256).map fun i => leAt x (0x10 + 4 * i) 4

/-- No reserved field is set, and no output code is 6. -/
def routesReservedOk (x : List Byte) : Bool :=
  zeroAt x 3 13 && ((mapWords x).all fun w => decide (w < 256))
    && ((records x 0x410 8 16).all fun r => decide (byteAt r 5 < 2) && zeroAt r 6 2)
    && ((List.range 48).all fun e => (List.range 64).all fun p =>
        let w := tableWord x e p
        decide (w < 2 ^ 18) && (List.range 6).all fun i => outField w i != 6)
    && ((slice x 0x3490 768).all fun b => decide (b.toNat < 128)) && zeroAt x (0x3490 + 11 * 48) 48

/-- Exactly one PRIMARY entry stands at each engine's position, and none at position 59. -/
def primariesOk (x : List Byte) : Bool :=
  let ps := ((mapWords x).filter fun w => bit w 6).map fun w => bits w 5 0
  ((List.range 48).all fun e => ps.count e == 1) && !ps.contains 59

/-- Every entry stop is at an edge engine. -/
def entriesOk (x : List Byte) : Bool := (slice x 0x3490 768).all fun b => edgeEngine (b.toNat % 64)

/-- Following the primary outputs of network `net` from router `e` reaches position `p` within the fuel; on the bulk networks no column
move follows a row move. -/
def reaches (x : List Byte) (net p : Nat) : Nat → Nat → Bool → Bool
  | 0, _, _ => false
  | fuel + 1, e, rows =>
    let o := outField (tableWord x e p) (2 * net)
    if o = 5 then e == p
    else if o = 4 then decide (48 ≤ p) && edgeEngine e
    else if 4 ≤ o then false
    else
      let row := o == 0 || o == 2
      (net == 2 || row || !rows) && reaches x net p fuel (neighbour e o) (rows || row)

/-- Every primary route ends at its position without passing a router twice. -/
def routesReachOk (x : List Byte) : Bool :=
  [0, 1, 2].all fun net => (List.range 48).all fun e => ((List.range 64).filter (· != 59)).all fun p => reaches x net p 48 e false

/-- Each output stands where it may: alternates are 7 or opposite, the mesh has no wrap links, 5 and 4 in their places. -/
def outputsOk (x : List Byte) : Bool :=
  (List.range 48).all fun e => (List.range 64).all fun p =>
    let w := tableWord x e p
    ([0, 1, 2].all fun net =>
      let a := outField w (2 * net)
      let b := outField w (2 * net + 1)
      b == 7 || (decide (a < 4) && b == (a + 2) % 4))
    && ([4, 5].all fun i => !(decide (outField w i < 4) && wraps e (outField w i)))
    && (List.range 6).all fun i => (outField w i != 5 || e == p) && (outField w i != 4 || (edgeEngine e && decide (48 ≤ p)))

/-- ROUTE_TABLES keeps R285. -/
def routeTablesOk (x : List Byte) : Bool :=
  x.length == 14224 && routesReservedOk x && primariesOk x && entriesOk x && routesReachOk x && outputsOk x

/-! ### POWER (16 R438) -/

/-- The VLOGIC step and the reservation that a POWER body gives an engine. -/
def powerStep (x : List Byte) (e : Nat) : Nat := byteAt x (16 + e)
def powerRes (x : List Byte) (e : Nat) : Nat := if leAt x (64 + 2 * e) 2 = 0 then 891 else leAt x (64 + 2 * e) 2

/-- POWER keeps R438. -/
def powerOk (x : List Byte) : Bool :=
  let direct := byteAt x 0 == 1
  let b := leAt x 4 4
  x.length == 160 && decide (byteAt x 0 ≤ 1) && zeroAt x 1 3 && zeroAt x 8 8
    && (if direct then decide (1000 ≤ b ∧ b ≤ 46000) else b == 0)
    && ((List.range 48).all fun e => decide (powerStep x e ≤ 20) && decide (leAt x (64 + 2 * e) 2 = 0 ∨ (400 ≤ powerRes x e ∧ powerRes x e ≤ 2000)))
    && decide (1348 + 4 * 326 + ((List.range 48).map (powerRes x)).sum ≤ (if direct then b else 46000))

/-! ### The other sections -/

/-- No reserved byte of PARTITIONS, NEAR_SPLIT, BANK_OFF or CANVAS_KEYS is set (R162). -/
def groundReservedOk (b : List Byte) : Bool :=
  (directory b).all fun d =>
    let x := d.bytes b
    match d.ty with
    | 0x101 => zeroAt x 4 12 && (records x 16 16 (leAt x 0 4)).all fun r => byteAt r 3 == 0 && decide (leAt r 4 8 < 2 ^ 48) && zeroAt r 12 4
    | 0x103 => zeroAt x 2 14
    | 0x105 => (records x 0 4 48).all fun r => byteAt r 3 == 0
    | 0x106 => zeroAt x 2 14 && (records x 16 80 (byteAt x 1)).all fun r => byteAt r 1 == 0 && zeroAt r 72 8
    | _ => true

/-- The algorithm identifier of XMSS-SHAKE256_20_256 in a serialised key (the registry of RFC 8391; log 60). -/
def xmssOid : List Byte := [0x00#8, 0x00#8, 0x00#8, 0x12#8]

/-- The bodies have their lengths and fields their ranges (R146, R148, R197, R208; log 61). -/
def groundShapesOk (b : List Byte) : Bool :=
  ifSect (sect b 0x101 0xFF 0xFF) (fun x => x.length == 16 + 16 * leAt x 0 4
      && (partRecs x).all fun p => decide (p.port ≤ 1 ∧ p.fn ≤ 15))
    && ifSect (sect b 0x103 0xFF 0xFF) (fun x => x.length == 16)
    && ifSect (sect b 0x104 0xFF 0xFF) powerOk
    && ifSect (sect b 0x105 0xFF 0xFF) (fun x => x.length == 192)
    && ifSect (sect b 0x106 0xFF 0xFF) (fun x =>
      let ks := keyRecs x
      decide (byteAt x 0 ≤ 1 ∧ byteAt x 1 ≤ 4) && x.length == 16 + 80 * byteAt x 1
        && ks.all fun k => decide (k.slot ≤ 3) && (ks.map (·.slot)).count k.slot == 1 && k.key.take 4 == xmssOid)

/-- The required sections are present. -/
def groundPresent (b : List Byte) : Bool := [0x101, 0x102, 0x103, 0x104].all fun t => (sect b t 0xFF 0xFF).isSome

/-- The code of a ground image (R162): `key` is the key that its KEY_SLOT names, if one is held (20 R508). -/
def groundCode (b : List Byte) (key : Option (List Byte)) : Nat :=
  firstFail [
    (Code.BAD_HEADER, decide (64 ≤ b.length) && headerOk 2 b && hGlazes b == 0),
    (Code.BAD_LAYOUT, layoutOk b && hTotal b == b.length && paddingOk b && groundReservedOk b && (!hSigned b || zeroAt b (hBody b + 33) 3)),
    (Code.DIGEST, digestOk b),
    (Code.SIG_MISSING, hSigned b),
    (Code.KEY_DENIED, key.isSome),
    (Code.SIG_INVALID, Config.xmssVerify (key.getD []) (digestOf b) (sigBytes b)),
    (Code.SECTION_MISSING, groundPresent b),
    (Code.UNKNOWN_SECTION, sectionsKnown 2 b),
    (Code.ROUTE_REJECT, ifSect (sect b 0x102 0xFF 0xFF) routeTablesOk),
    (Code.LAYOUT_REJECT, groundShapesOk b),
    (Code.PART_LIMIT, ifSect (sect b 0x101 0xFF 0xFF) partLimitOk),
    (Code.PART_OVERLAP, ifSect (sect b 0x101 0xFF 0xFF) partOverlapOk)]

/-- The image that a container makes. -/
def groundOf (b : List Byte) : Ground :=
  let body := fun t => (sect b t 0xFF 0xFF).getD []
  let k := body 0x106
  { valid := true, imageId := hImage b, digest := digestOf b, parts := partRecs (body 0x101), policy := byteAt k 0, keys := keyRecs k,
    routes := body 0x102, near := body 0x103, power := body 0x104, bankOff := body 0x105 }

end Sys2Proof.Machine
end

