-- ==== Sys2Proof/Machine/Streams.lean ====
section
/-! DEFINITION. The channel streams of an engine's canvas (08_engine_hub R226 to R228). -/
namespace Sys2Proof.Machine

/-- The attachment cell of a stream's channel (05 R126). -/
def StreamRec.cell (t : StreamRec) : Nat := t.chan * 32 + (if t.hb then 31 else 0)

/-- The hub end of a stream's channel on a network. -/
def StreamRec.key (t : StreamRec) (net : Nat) : Nat := hubKey t.die (if t.hb then 3 else 2) t.chan net

/-- The address of a stream's next entry: the run base, then rows STRIDE apart (R227), modulo 2^64. -/
def StreamRec.addr (t : StreamRec) (x : StreamSt) : Nat :=
  let run : Int := (t.base : Int) + t.advance * ((x.runs % t.wrap : Nat) : Int)
  let perRow := t.rowLen / 64
  ofSigned 64 (run + ((x.moved / perRow * t.stride + x.moved % perRow * 64 : Nat) : Int))

/-- The stream of number `i`, if it runs in the glaze in force with entries left in this run (R226, R228). -/
def State.streamOn (s : State) (e i : Nat) (role : Nat) : Option (StreamRec × StreamSt) :=
  if !s.cellsRun e then none
  else match (s.streamRecs e)[i]? with
    | none => none
    | some (_, t) =>
      let x := s.streamSt e i
      if t.role = role ∧ bit t.glazes (s.glaze e) ∧ !x.stopped ∧ (role = 3 ∨ x.moved < t.total) then some (t, x) else none

/-- Whether the die end of a stream's channel has a credit for one vector entry: its port input is routed and has room. -/
def State.streamRoom (s : State) (e : Nat) (t : StreamRec) : Bool :=
  fedBy ((s.prog e t.die t.cell).route 0) 0 11 != [] && decide ((s.buf e t.die t.cell 0 10).length < 2)

/-- Send a stream's entry on its channel. -/
def State.streamSend (s : State) (e i : Nat) (t : StreamRec) (x : StreamSt) (bs : List Byte) : State :=
  (s.setBuf e t.die t.cell 0 10 (s.buf e t.die t.cell 0 10 ++ [⟨leNat bs, false⟩])).setStream e i
    { x with moved := x.moved + 1, held := none }

/-- A stream whose access fails stops (R228; log 30). -/
def State.streamStop (s : State) (e i : Nat) : State :=
  s.setStream e i { s.streamSt e i with stopped := true, held := none }

/-- STREAM_READ_ENTRY (R227): a READ stream sends its next entry against a credit. An entry of a feed port is sent once the
port has delivered it; `code` and `data` answer a read of a guest window. -/
def execStreamReadEntry (e : EngIx) (i : Fin 512) (code : Fin 16) (data : List Byte) (s : State) : Answer :=
  match s.streamOn e i 1 with
  | none => .next s
  | some (t, x) =>
    if !s.streamRoom e t then .next s
    else match x.held with
      | some bs => .next (s.streamSend e i t x bs)
      | none =>
        match s.srcRead e t.space (t.addr x) 64 0 ⟨code, data⟩ with
        | none => .next s
        | some (s1, st, bs) => .next (if st = St.OK then s1.streamSend e i t x bs else s1.streamStop e i)

/-- STREAM_WRITE_ENTRY (R227): a WRITE stream writes the vector entry at its channel, and counts it. An entry whose parity is bad
at the hub is not written, and the stream stops (18 R480). -/
def execStreamWriteEntry (e : EngIx) (i : Fin 512) (s : State) : Answer :=
  match s.streamOn e i 2 with
  | none => .next s
  | some (t, x) =>
    match SMap.getD (s.eng e).hubIn (t.key 0) [] with
    | [] => .next s
    | y :: rest =>
      let s1 := s.onEng e fun g => { g with hubIn := SMap.set [] g.hubIn (t.key 0) rest }
      if y.parBad then .next ((s1.fault Src.HUB_BUF_PAR e 0).streamStop e i)
      else
        let ctr := if t.countEn then some t.counter else none
        let (s2, st, words) := s1.dstWrite e t.space (t.addr x) 0 (leBytes 64 y.data) ctr
        if st ≠ St.OK then .next (s2.streamStop e i)
        else
          let s3 := s2.setStream e i { x with moved := x.moved + 1 }
          .next (if t.countEn then s3.addFld (Reg.ENG_ACNT e t.counter) Fld.ENG_ACNT.COUNT words else s3)

/-- STREAM_DOORBELL (R227): a DOORBELL stream takes a scalar entry: bits 5:0 name a queue, bits 31:16 are its new TAIL. -/
def execStreamDoorbell (e : EngIx) (i : Fin 512) (s : State) : Answer :=
  match s.streamOn e i 3 with
  | none => .next s
  | some (t, _) =>
    match SMap.getD (s.eng e).hubIn (t.key 1) [] with
    | [] => .next s
    | y :: rest =>
      let s1 := s.onEng e fun g => { g with hubIn := SMap.set [] g.hubIn (t.key 1) rest }
      .next (if y.parBad then (s1.fault Src.HUB_BUF_PAR e 0).streamStop e i
        else s1.dmaSetTail e (y.data % 64) (bits y.data 31 16))

end Sys2Proof.Machine
end

