-- ==== Sys2Proof/Machine/HostPort.lean ====
section
/-! DEFINITION. The host ports: the link, configuration space, the aperture, engine events, command contexts and port resets
(13_host_ports R325 to R348, R358 to R362). -/
namespace Sys2Proof.Machine

/-- A host port beside its registers. -/
def State.port (s : State) (p : Nat) : HostPort := SMap.getD s.ports p { }

/-- Change a host port. -/
def State.onPort (s : State) (p : Nat) (f : HostPort → HostPort) : State :=
  { s with ports := SMap.set { } s.ports p (f (s.port p)) }

/-! ### The link and configuration space (R325 to R327) -/

/-- Completion status of the base specification: Successful Completion, Unsupported Request, Configuration Request Retry Status,
Completer Abort. -/
def Cpl.SC : Nat := 0
def Cpl.UR : Nat := 1
def Cpl.CRS : Nat := 2
def Cpl.CA : Nat := 4

/-- Put HP_PORT_STAT.STATE. -/
def State.setPortState (s : State) (p v : Nat) : State := s.setFld (Reg.HP_PORT_STAT p) Fld.HP_PORT_STAT.STATE v

/-- HP_PORT_STAT.STATE. -/
def State.portState (s : State) (p : Nat) : Nat := s.fld (Reg.HP_PORT_STAT p) Fld.HP_PORT_STAT.STATE

/-- Whether a port's die is up with PERST# released (R327). -/
def State.portDie (s : State) (p : Nat) : Bool := !s.posDown (56 + p) && !(s.port p).perst

/-- HOST_LINK_UP (R327; 21 R547): the port, with its cable present, has trained and is enumerable. -/
def execHostLinkUp (p : HostIx) (width : Fin 17) (rate : Fin 6) (reversed : Bool) (s : State) : Answer :=
  if !s.portDie p ∨ !bit (s.fld Reg.PNL_PHYS Fld.PNL_PHYS.CPRSNT) p ∨ 2 ≤ s.portState p ∨ width.val = 0 ∨ rate.val = 0 then .next s
  else .next (s.wr (Reg.HP_PORT_STAT p) (b2n reversed * 2 ^ 19 + rate.val * 2 ^ 16 + width.val * 2 ^ 8 + 2))

/-- The fixed dwords of configuration space (R326). -/
def cfgFixed (fn dw : Nat) : Option Nat :=
  match dw with
  | 0 => some ((if fn = 0 then 0x4830 else 0x4831) * 65536 + 0x1F7B)
  | 2 => some (0x120000 * 256 + 0xA2)
  | 11 => some (0x0048 * 65536 + 0x1F7B)
  | _ => none

/-- The key of a dword of configuration space. -/
def cfgKey (p fn dw : Nat) : Nat := (p * 16 + fn) * 1024 + dw

/-- CONFIG_REQUEST (R326, R327): a request is answered, with retry status until the port is ready. The base specification's own
registers are kept as written (log 44). -/
def execConfigRequest (p : HostIx) (fn : FnIx) (dw : Fin 1024) (write : Option Word) (s : State) : Answer :=
  if !s.portDie p then .next s
  else if !s.portUp p then .next (s.emit (.complete p Cpl.CRS []))
  else
    let k := cfgKey p fn dw
    match write with
    | some v =>
      let s1 := if (cfgFixed fn dw).isSome then s else { s with cfgSpace := SMap.set 0#32 s.cfgSpace k v }
      .next (s1.emit (.complete p Cpl.SC []))
    | none =>
      let v := (cfgFixed fn dw).getD (SMap.getD s.cfgSpace k 0#32).toNat
      .next (s.emit (.complete p Cpl.SC (leBytes 4 v)))

/-! ### The aperture (R332 to R336) -/

/-- The completion of a host request by its outcome in the panel (R335). -/
def hostStatus (st : Nat) : Nat :=
  if st = St.OK then Cpl.SC
  else if st = St.ADDR_UNMAPPED ∨ st = St.ALIGN ∨ st = St.REFUSED ∨ st = St.ACCESS then Cpl.UR
  else Cpl.CA

/-- The window register that a function's aperture offset uses. -/
def windowReg (p fn off : Nat) : Nat := if fn = 0 then Reg.HP_WIN p (off / 2 ^ 32) else Reg.HP_VFWIN p fn

/-- The panel address of an aperture offset; none where the window does not map it (R332). -/
def State.windowMap (s : State) (p fn off : Nat) : Option Nat :=
  let r := windowReg p fn off
  let a := s.fld r Fld.HP_WIN.BASE * 2 ^ 30 + off % 2 ^ 32
  if s.flag r Fld.HP_WIN.ENABLE && decide (a < 2 ^ 48) then some a else none

/-- Whether a function may reach a panel address (R333); a guest window needs a partition of the function that the site admits
(15 R414; log 45). -/
def State.hostReach (s : State) (r : Req) (a n : Nat) : Nat :=
  match s.target a with
  | .near e _ => if s.owns r e then St.OK else St.ACCESS
  | .spad e _ => if s.owns r e then St.OK else St.ACCESS
  | .feed _ _ => St.ACCESS
  | .guest g off =>
    let part := (s.ground.parts.find? fun x => x.ownedBy r && bit (s.rdN (Reg.SK_GUEST_ACCESS g)) x.id).map (·.id)
    s.guestReach g off n part
  | .spread _ _ _ => St.OK
  | .unmapped => St.ADDR_UNMAPPED

/-- A write of a host by panel address. -/
def State.apertureWrite (s : State) (p fn a : Nat) (r : Req) (bs : List Byte) (counter : Nat) : State :=
  let c := s.hostReach r a bs.length
  let (s1, st) : State × Nat :=
    if c ≠ St.OK then (s, c)
    else match s.target a with
      | .guest g off => (s.guestAsk g (.hostWrite p fn a) [2, off] bs, St.OK)
      | _ => s.memWrite a bs (some counter)
  if st = St.OK then s1 else s1.werr p fn 0 st a

/-- A read of a host by panel address; one of a guest window waits for the guest. -/
def State.apertureRead (s : State) (p fn a n : Nat) (r : Req) : State :=
  let c := s.hostReach r a n
  if c ≠ St.OK then s.emit (.complete p (hostStatus c) [])
  else match s.target a with
    | .guest g off =>
      s.guestAsk g (.hostRead p fn) [1, off, n] []
    | _ =>
      let (s1, st, bs) := s.memRead a n none
      s1.emit (.complete p (hostStatus st) bs)

/-- APERTURE_ACCESS (R332 to R336): a host request of `n` bytes at an aperture offset: a read, or a posted write. A posted write through a
closed window is recorded as unmapped at address 0 (log 46). A request never crosses a 4 KiB boundary. -/
def execApertureAccess (p : HostIx) (fn : FnIx) (off : Fin 0x1000000000) (n : Fin 4097) (write : Option (List Byte)) (s : State) :
    Answer :=
  let len := match write with
    | some bs => bs.length
    | none => n.val
  if !s.portUp p ∨ len = 0 ∨ 4096 < off.val % 4096 + len ∨ (fn.val ≠ 0 ∧ 2 ^ 32 ≤ off.val) then .next s
  else match s.windowMap p fn off, write with
    | none, some _ => .next (s.werr p fn 0 St.ADDR_UNMAPPED 0)
    | none, none => .next (s.emit (.complete p Cpl.UR []))
    | some a, some bs => .next (s.apertureWrite p fn a (.host p fn) bs (s.fld (windowReg p fn off) Fld.HP_WIN.COUNTER))
    | some a, none => .next (s.apertureRead p fn a n (.host p fn))

/-- HOST_REQ_TIMEOUT (R335): the oldest host request without an outcome for 1 ms completes with Completer Abort. -/
def execHostReqTimeout (p : HostIx) (s : State) : Answer :=
  match s.guestWaits.find? fun w => w.ofPort p with
  | none => .next s
  | some w =>
    if s.now < w.since + 1000000 then .next s
    else .next ({ s with guestWaits := s.guestWaits.erase w }.emit (.complete p Cpl.CA []))

/-- HOST_MEM_REQUEST (R337): the next piece of a COPY that reads or writes host memory; an error or a timeout ends it with
HOST_ERR. -/
def execHostMemRequest (e : EngIx) (q : QueueIx) (ix : Fin 65536) (code : Fin 16) (data : List Byte) (s : State) : Answer :=
  match s.flight e q ix with
  | none => .next s
  | some f =>
    if f.op ≠ 1 ∨ !f.open' ∨ (f.srcSpace ≠ 2 ∧ f.dstSpace ≠ 2) then .next s
    else
      let (a, b, n) := f.next
      match s.srcRead e f.srcSpace a n f.peer ⟨code, data⟩ with
      | none => .next s
      | some (s1, st, bs) => .next (s1.pieceWrite e f st bs f.dstSpace b n none)

/-! ### Engine events (R340 to R342) -/

/-- Records of a function's event ring. -/
def State.evtSize (s : State) (p fn : Nat) : Nat := 2 ^ (min 8 (s.fld (Reg.HP_EVT_CFG p fn) Fld.HP_EVT_CFG.SIZE) + 4)

/-- A 64-bit ring address kept in two registers. -/
def State.ringBase (s : State) (lo hi : Nat) : Nat := s.rdN lo / 4096 * 4096 + s.rdN hi * 2 ^ 32

/-- Write an event to a function's ring, or drop it (R340, R342). -/
def State.eventOut (s : State) (p fn : Nat) (x : Event) : State :=
  let t := Reg.HP_EVT_TAIL p fn
  let tail := s.fld t Fld.HP_EVT_TAIL.TAIL
  let n := s.evtSize p fn
  let head := s.fld (Reg.HP_EVT_HEAD p fn) Fld.HP_EVT_HEAD.HEAD
  if !s.flag (Reg.HP_EVT_CFG p fn) Fld.HP_EVT_CFG.ENABLE ∨ n ≤ ahead tail head ∨ !s.portUp p then
    s.satFld t Fld.HP_EVT_TAIL.DROPPED 1
  else
    let phase := 1 - tail / n % 2
    let rec' := leBytes 1 x.kind ++ leBytes 1 x.engine ++ leBytes 1 x.aux ++ leBytes 1 phase ++ leBytes 4 x.info
      ++ leBytes 8 x.time
    let s1 := s.hostWrite p fn (s.ringBase (Reg.HP_EVT_BASE p fn 0) (Reg.HP_EVT_BASE p fn 1) + 16 * (tail % n)) rec'
    (s1.addFld t Fld.HP_EVT_TAIL.TAIL 1).signal p fn (s.fld (Reg.HP_EVT_CFG p fn) Fld.HP_EVT_CFG.VECTOR)

/-- EVENT_RECORD (R340 to R342): the oldest event of an engine goes to the ring of the function that its partition record names. -/
def execEventRecord (e : EngIx) (s : State) : Answer :=
  match s.events.find? fun x => x.engine == e.val with
  | none => .next s
  | some x =>
    let s1 := { s with events := s.events.erase x }
    .next (match s1.partOf e with
      | some q => s1.eventOut q.port q.fn x
      | none => s1)

/-! ### Command contexts (R343 to R348) -/

/-- The codes of HP_QCTX.STATE. -/
def Qc.FREE : Nat := 0
def Qc.RUNNING : Nat := 1
def Qc.ROOM : Nat := 2
def Qc.HALTED : Nat := 3
def Qc.DRAINING : Nat := 4

/-- A context beside its registers. -/
def State.qc (s : State) (p k : Nat) : QCtx := SMap.getD s.qctx (p * 64 + k) { }

/-- Change a context. -/
def State.onQc (s : State) (p k : Nat) (f : QCtx → QCtx) : State :=
  { s with qctx := SMap.set { } s.qctx (p * 64 + k) (f (s.qc p k)) }

/-- Fields of HP_QCTX. -/
def State.qcState (s : State) (p k : Nat) : Nat := s.fld (Reg.HP_QCTX p k) Fld.HP_QCTX.STATE
def State.qcHead (s : State) (p k : Nat) : Nat := s.fld (Reg.HP_QCTX p k) Fld.HP_QCTX.HEAD
def State.qcOwner (s : State) (p k : Nat) : Nat := s.fld (Reg.HP_QCTX p k) Fld.HP_QCTX.OWNER
def State.setQcState (s : State) (p k v : Nat) : State := s.setFld (Reg.HP_QCTX p k) Fld.HP_QCTX.STATE v

/-- Free a context. -/
def State.qcFree (s : State) (p k : Nat) : State :=
  (((s.rstReg (Reg.HP_QCTX p k)).rstReg (Reg.CMD_TAIL p k)).rstReg (Reg.CPL_HEAD p k)).onQc p k fun _ => { }

/-- Put HP_QC_RESULT of a function set. -/
def State.qcResult (s : State) (p fn busy status k : Nat) : State :=
  s.wr (Reg.HP_QC_RESULT p fn) (busy * 2 ^ 31 + status * 2 ^ 16 + k)

/-- CREATE (R343, R344): reserved values and a vector beyond the function's table are QC_ARGS; no free context is QCTX_FULL
(log 47: QC_ARGS first). -/
def State.qcCreate (s : State) (p fn : Nat) : State :=
  let w := s.rdN (Reg.HP_QC_ARG p fn 4)
  let vec := bits w 18 8
  if 8 < bits w 3 0 ∨ 8 < bits w 7 4 ∨ (if fn = 0 then 2048 else 64) ≤ vec then s.qcResult p fn 0 2 0
  else match (List.range 64).find? fun k => s.qcState p k == Qc.FREE with
    | none => s.qcResult p fn 0 1 0
    | some k =>
      let s1 := (s.qcFree p k).onQc p k fun _ => {
        cmdBase := s.ringBase (Reg.HP_QC_ARG p fn 0) (Reg.HP_QC_ARG p fn 1)
        cplBase := s.ringBase (Reg.HP_QC_ARG p fn 2) (Reg.HP_QC_ARG p fn 3)
        vector := vec, irq := bit w 19, cmdSize := 2 ^ (bits w 3 0 + 4), cplSize := 2 ^ (bits w 7 4 + 4) }
      (s1.wr (Reg.HP_QCTX p k) (fn * 16 + Qc.RUNNING)).qcResult p fn 0 0 k

/-- Whether the command at HEAD of a context is in progress. -/
def State.qcBusy (s : State) (p k : Nat) : Bool := s.qcState p k == Qc.ROOM

/-- DESTROY (R344): with no command in progress the context is freed at once, else it drains. -/
def State.qcDestroy (s : State) (p fn k : Nat) : State :=
  if s.qcBusy p k then (s.setQcState p k Qc.DRAINING).qcResult p fn 1 0 k
  else (s.qcFree p k).qcResult p fn 0 0 k

/-- RESUME at the failed command, or SKIP to the next (R344). -/
def State.qcRestart (s : State) (p fn k skip : Nat) : State :=
  let s1 := (s.addFld (Reg.HP_QCTX p k) Fld.HP_QCTX.HEAD skip).setFld (Reg.HP_QCTX p k) Fld.HP_QCTX.CODE 0
  ((s1.setQcState p k Qc.RUNNING).onQc p k fun x => { x with fetched := [] }).qcResult p fn 0 0 k

/-- A write of HP_QC_CMD of function set `fn` (R344). -/
def State.opQcCmd (s : State) (p fn v : Nat) : State :=
  if s.flag (Reg.HP_QC_RESULT p fn) Fld.HP_QC_RESULT.BUSY then s
  else
    let k := bits v 21 16
    let op := bits v 7 0
    let mine := s.qcState p k != Qc.FREE && s.qcOwner p k == fn
    if bits v 31 22 ≠ 0 ∨ bits v 15 8 ≠ 0 ∨ op = 0 ∨ 4 < op then s.qcResult p fn 0 2 k
    else if op = 1 then s.qcCreate p fn
    else if !mine ∨ (op ≠ 2 ∧ s.qcState p k ≠ Qc.HALTED) then s.qcResult p fn 0 3 k
    else match op with
      | 2 => s.qcDestroy p fn k
      | 3 => s.qcRestart p fn k 0
      | _ => s.qcRestart p fn k 1

/-- A requester's write of HP_QC_CMD with an operation. -/
def State.qcCmd (s : State) (r : Req) (p fn v : Nat) : State :=
  s.gated r (Reg.HP_QC_CMD p fn) v fun s => s.opQcCmd p fn v

/-- QC_CREATE (R343, R344). -/
def execQcCreate (r : Req) (p : HostIx) (fn : FnIx) (v : Word) (s : State) : Answer :=
  .next (s.qcCmd r p fn (putBits v.toNat 7 0 1))

/-- QC_DESTROY (R344). -/
def execQcDestroy (r : Req) (p : HostIx) (fn : FnIx) (v : Word) (s : State) : Answer :=
  .next (s.qcCmd r p fn (putBits v.toNat 7 0 2))

/-- QC_RESUME (R344). -/
def execQcResume (r : Req) (p : HostIx) (fn : FnIx) (v : Word) (s : State) : Answer :=
  .next (s.qcCmd r p fn (putBits v.toNat 7 0 3))

/-- QC_SKIP (R344). -/
def execQcSkip (r : Req) (p : HostIx) (fn : FnIx) (v : Word) (s : State) : Answer :=
  .next (s.qcCmd r p fn (putBits v.toNat 7 0 4))

/-- The byte offset of a context's doorbell page within the BAR of function `fn`, with the space that HP_WERR names (R329, R330). -/
def doorPage (fn k : Nat) : Nat × Nat := if fn = 0 then (2, k * 0x1000) else (1, 0x20000 + k * 0x400)

/-- A write of word `i` of a doorbell page: CMD_TAIL or CPL_HEAD. A page of a context that the function does not own discards it
(R330, R334). -/
def State.doorWrite (s : State) (p fn k i v : Nat) : State :=
  if s.qcState p k = Qc.FREE ∨ s.qcOwner p k ≠ fn then
    let (space, o) := doorPage fn k
    s.werr p fn space St.ACCESS (o + 4 * i)
  else match i with
    | 0 => s.setFld (Reg.CMD_TAIL p k) Fld.CMD_TAIL.TAIL v
    | 1 => s.setFld (Reg.CPL_HEAD p k) Fld.CPL_HEAD.HEAD v
    | _ => s

/-- CMD_TAIL_WRITE (R346, R348, R362). -/
def execCmdTailWrite (p : HostIx) (fn : FnIx) (k : Fin 64) (v : Word) (s : State) : Answer :=
  if !s.portUp p then .next s else .next (s.doorWrite p fn k 0 (v.toNat % 65536))

/-! ### Executing commands (R345 to R348) -/

/-- The end of a context's command with a status: the record where one is due, the vector, and the next command or the halt. While the
port drains no record is written (R359). -/
def State.qcEnd (s : State) (p k status : Nat) (cmd : List Byte) : State :=
  let x := s.qc p k
  let fn := s.qcOwner p k
  let head := s.qcHead p k
  let live := s.portUp p
  let due := live && (bit (byteAt cmd 1) 0 || decide (status ≠ 0))
  let phase := 1 - x.count / x.cplSize % 2
  let rec' := leBytes 2 head ++ leBytes 1 status ++ leBytes 1 phase ++ slice cmd 4 4 ++ leBytes 8 s.ticks
  let s1 := if due then
      (s.hostWrite p fn (x.cplBase + 16 * (x.count % x.cplSize)) rec').onQc p k fun x => { x with count := x.count + 1 }
    else s
  let s2 := if due && bit (byteAt cmd 1) 1 && x.irq then s1.signal p fn x.vector else s1
  if s2.qcState p k = Qc.DRAINING then (s2.qcFree p k).qcResult p fn 0 0 k
  else if status = 0 then
    ((s2.setFld (Reg.HP_QCTX p k) Fld.HP_QCTX.HEAD (head + 1)).setQcState p k Qc.RUNNING).onQc p k
      fun x => { x with fetched := x.fetched.drop 1 }
  else
    ((s2.setFld (Reg.HP_QCTX p k) Fld.HP_QCTX.CODE status).setQcState p k Qc.HALTED).onQc p k fun x => { x with fetched := [] }

/-- A command whose fetch failed is met: it ends with FETCH_ERR (R347). -/
def State.qcSettle (s : State) (p k : Nat) : State :=
  match (s.qc p k).fetched with
  | none :: _ => s.qcEnd p k 6 []
  | _ => s

/-- CMD_FETCH (R345, R346): the answer to the fetch of the next command arrives: up to 8 are fetched ahead. -/
def execCmdFetch (p : HostIx) (k : Fin 64) (ok : Bool) (data : List Byte) (s : State) : Answer :=
  let st := s.qcState p k
  let x := s.qc p k
  let n := x.fetched.length
  let i := (s.qcHead p k + n) % 65536
  if (st ≠ Qc.RUNNING ∧ st ≠ Qc.ROOM) ∨ 8 ≤ n ∨ i = s.fld (Reg.CMD_TAIL p k) Fld.CMD_TAIL.TAIL ∨ x.fetched.contains none
      ∨ !s.portUp p then .next s
  else
    let s1 := s.emit (.hostRead p (s.qcOwner p k) (x.cmdBase + 128 * (i % x.cmdSize)) 128)
    let s2 := s1.onQc p k fun x => { x with fetched := x.fetched ++ [if ok then some (slice data 0 128) else none] }
    .next (s2.qcSettle p k)

/-- Whether a command is well formed (R347 BAD_CMD). -/
def cmdOk (c : List Byte) : Bool :=
  let op := byteAt c 0
  decide (1 ≤ op ∧ op ≤ 3) && decide (byteAt c 1 < 4) && decide (byteAt c 2 < 48) && zeroAt c 0x10 48
    && (op != 1 || decide (byteAt c 3 < 64)) && (op == 1 || zeroAt c 0x40 64)
    && (op != 2 || (leAt c 8 4 % 4 == 0 && decide (leAt c 8 4 < 0x400000)))

/-- The engine-side checks of a SUBMIT or WRITE (R347). -/
def State.cmdCheck (s : State) (p fn : Nat) (c : List Byte) : Nat :=
  let e := byteAt c 2
  let owned := match s.partOf e with
    | some x => x.port == p && (fn == 0 || x.fn == fn)
    | none => false
  firstFail [(1, cmdOk c), (2, owned), (3, !s.posDown e),
    (4, byteAt c 0 != 1 || s.flag (Reg.ENG_DMAQ_CFG e (byteAt c 3)) Fld.ENG_DMAQ_CFG.ENABLE)]

/-- The command that a context may execute now with operation `op`: its ring is served, and a record that is due has room (R346). -/
def State.cmdReady (s : State) (p k op : Nat) : Option (List Byte) :=
  let st := s.qcState p k
  let x := s.qc p k
  if st ≠ Qc.RUNNING ∧ st ≠ Qc.ROOM ∧ st ≠ Qc.DRAINING then none
  else match x.fetched with
    | some c :: _ =>
      let known := decide (1 ≤ byteAt c 0 ∧ byteAt c 0 ≤ 3)
      let full := bit (byteAt c 1) 0 && decide (x.cplSize ≤ ahead x.count (s.fld (Reg.CPL_HEAD p k) Fld.CPL_HEAD.HEAD))
      if (if known then byteAt c 0 else 3) = op ∧ (!full ∨ !s.portUp p) then some c else none
    | _ => none

/-- Whether a DMA queue has room for one more descriptor (R346). -/
def State.dmaRoom (s : State) (e q : Nat) : Bool := decide (ahead (s.dmaTail e q) (s.dmaDone e q) < s.dmaSize e q)

/-- CMD_SUBMIT (R346, R347): the descriptor goes to the ring slot at TAIL, and TAIL advances; without room the context waits. -/
def execCmdSubmit (p : HostIx) (k : Fin 64) (s : State) : Answer :=
  match s.cmdReady p k 1 with
  | none => .next s
  | some c =>
    let e := byteAt c 2
    let q := byteAt c 3
    let code := s.cmdCheck p (s.qcOwner p k) c
    if code ≠ 0 then .next ((s.qcEnd p k code c).qcSettle p k)
    else if !s.dmaRoom e q then
      .next (if s.qcState p k = Qc.RUNNING then (s.setQcState p k Qc.ROOM).onQc p k fun x => { x with waitAt := s.now } else s)
    else
      let t := s.dmaTail e q
      let s1 := (s.remoteWrite (.hub e) ((s.dmaq e q).base + 64 * (t % s.dmaSize e q)) (slice c 0x40 64) none).1
      .next (((s1.dmaSetTail e q ((t + 1) % 65536)).qcEnd p k 0 c).qcSettle p k)

/-- CMD_NOP (R345): the command completes; one with a reserved OP ends with BAD_CMD here. -/
def execCmdNop (p : HostIx) (k : Fin 64) (s : State) : Answer :=
  match s.cmdReady p k 3 with
  | none => .next s
  | some c => .next ((s.qcEnd p k (if cmdOk c then 0 else 1) c).qcSettle p k)

/-- QUEUE_STUCK (R347): a SUBMIT has found no room for 10 ms. -/
def execQueueStuck (p : HostIx) (k : Fin 64) (s : State) : Answer :=
  match s.cmdReady p k 1 with
  | none => .next s
  | some c =>
    if s.qcState p k = Qc.RUNNING ∨ s.dmaRoom (byteAt c 2) (byteAt c 3) ∨ s.now < (s.qc p k).waitAt + 10000000 then .next s
    else .next (s.qcEnd p k 5 c)

end Sys2Proof.Machine
end

