-- ==== Sys2Proof/Machine/Feed.lean ====
section
/-! DEFINITION. Feed queues (13_host_ports R349 to R357), and port and function resets (R358 to R360). -/
namespace Sys2Proof.Machine

/-- A feed queue beside its registers. -/
def State.feedOf (s : State) (p f : Nat) : FeedQ := SMap.getD s.feeds (p * 16 + f) { }

/-- Put a feed queue. -/
def State.setFeed (s : State) (p f : Nat) (x : FeedQ) : State := { s with feeds := SMap.set { } s.feeds (p * 16 + f) x }

/-- Slots in use: stored words and the open word (R352). -/
def FeedQ.used (x : FeedQ) : Nat := (x.pkts.map (·.words.length)).sum + b2n (x.part != [])

/-- Put a feed queue and show WORDS, PACKETS and FULL (R352). -/
def State.feedPut (s : State) (p f : Nat) (x : FeedQ) : State :=
  let a := Reg.FQ_STAT p f
  ((((s.setFeed p f x).setFld a Fld.FQ_STAT.WORDS x.used).setFld a Fld.FQ_STAT.PACKETS (x.pkts.filter (·.closed)).length)).setFlag a
    Fld.FQ_STAT.FULL (decide (1024 ≤ x.used))

/-- FQ_CFG fields. -/
def State.feedOn (s : State) (p f : Nat) : Bool := s.flag (Reg.FQ_CFG p f) Fld.FQ_CFG.ENABLE
def State.feedReader (s : State) (p f : Nat) : Nat := s.fld (Reg.FQ_CFG p f) Fld.FQ_CFG.ENGINE
def State.feedWriter (s : State) (p f : Nat) : Nat := s.fld (Reg.FQ_CFG p f) Fld.FQ_CFG.FUNCTION
def State.feedFramed (s : State) (p f : Nat) : Bool := s.flag (Reg.FQ_CFG p f) Fld.FQ_CFG.FRAMED
def State.feedC2 (s : State) (p f : Nat) : Bool := s.flag (Reg.FQ_CFG p f) Fld.FQ_CFG.ORDER

/-! ### Writing (R350 to R352) -/

/-- The space and byte offset of a feed window's byte for HP_WERR (R329, R330, R361). -/
def feedPage (fn f o : Nat) : Nat × Nat := if fn = 0 then (2, 0x100000 + f * 0x1000 + o) else (1, 0x10000 + f * 0x1000 + o)

/-- The open packet of a queue, or a new one. -/
def FeedQ.openPkt (x : FeedQ) : List FeedPkt × FeedPkt :=
  match x.pkts.getLast? with
  | some q => if q.closed then (x.pkts, { seq := x.seq }) else (x.pkts.dropLast, q)
  | none => ([], { seq := x.seq })

/-- Append bytes to the open packet: complete words are stored. -/
def FeedQ.append (x : FeedQ) (bs : List Byte) : FeedQ :=
  let all := x.part ++ bs
  let n := all.length / 64
  let (l, q) := x.openPkt
  { x with pkts := l ++ [{ q with bytes := q.bytes + bs.length, words := q.words ++ chunks 64 n (all.take (64 * n)) }]
           part := all.drop (64 * n) }

/-- The notice of a packet (R356). -/
def State.feedNotice (s : State) (p f seq : Nat) : State :=
  match s.fld (Reg.FQ_CFG p f) Fld.FQ_CFG.NOTICE with
  | 1 => s.raiseEvent (s.feedReader p f) 5 f seq
  | 2 => s.signal p (s.feedWriter p f) (s.fld (Reg.FQ_CFG p f) Fld.FQ_CFG.VECTOR)
  | _ => s

/-- Close the open packet (R351, R352): a partial word is padded. A packet whose words have all gone, and that has no header to deliver, ends
with its notice here. One with no byte and no damage is none (log 48). -/
def State.feedClose (s : State) (p f prio : Nat) (damaged : Bool) : State :=
  let x := s.feedOf p f
  let (l, q) := x.openPkt
  let dam := damaged || s.flag (Reg.FQ_STAT p f) Fld.FQ_STAT.DAMAGED
  let s1 := s.setFlag (Reg.FQ_STAT p f) Fld.FQ_STAT.DAMAGED false
  if q.bytes = 0 ∧ !dam then s1
  else
    let words := if x.part = [] then q.words else q.words ++ [slice x.part 0 64]
    let valid := if q.bytes = 0 then 0 else (q.bytes + 63) % 64 + 1
    let q1 := { q with closed := true, damaged := dam, prio := prio, words := words, lastValid := valid }
    let gone := words == [] && !s.feedFramed p f
    let x1 := { x with pkts := if gone then l else l ++ [q1], part := [], seq := (x.seq + 1) % 2 ^ 32,
                       cur := if gone && x.cur == some q.seq then none else x.cur }
    let s2 := s1.feedPut p f x1
    if gone then s2.feedNotice p f q.seq else s2

/-- Whether function `fn` may write a queue's window (R349). -/
def State.feedWritable (s : State) (p fn f : Nat) : Bool := s.feedOn p f && s.feedWriter p f == fn

/-- FEED_DATA (R350, R352): bytes written to a feed window; `enabled`: with every byte enabled. -/
def execFeedData (p : HostIx) (fn : FnIx) (f : Fin 16) (off : Fin 2048) (data : List Byte) (enabled : Bool) (s : State) : Answer :=
  let n := data.length
  let (space, o) := feedPage fn f off
  if !s.portUp p then .next s
  else if !s.feedWritable p fn f then .next (s.werr p fn space St.ACCESS o)
  else if !enabled ∨ off.val % 4 ≠ 0 ∨ n % 4 ≠ 0 ∨ n < 4 ∨ 512 < n ∨ 2048 < off.val + n then .next (s.werr p fn space St.ALIGN o)
  else
    let a := Reg.FQ_STAT p f
    let x := s.feedOf p f
    if s.flag a Fld.FQ_STAT.DAMAGED then .next s
    else
      let y := x.append data
      if 1024 < y.used then .next ((s.setFlag a Fld.FQ_STAT.OVERRUN true).setFlag a Fld.FQ_STAT.DAMAGED true)
      else .next (s.feedPut p f y)

/-- FEED_END (R351, R352). -/
def execFeedEnd (p : HostIx) (fn : FnIx) (f : Fin 16) (v : Word) (s : State) : Answer :=
  let (space, o) := feedPage fn f 0x800
  if !s.portUp p then .next s
  else if !s.feedWritable p fn f then .next (s.werr p fn space St.ACCESS o)
  else .next (s.feedClose p f (v.toNat % 4) false)

/-! ### Reading (R353 to R357) -/

/-- The address that a reader's next read names, with the entries it needs. -/
def State.feedWant (s : State) (e : Nat) : FeedReader → Option (Nat × Nat)
  | .stream i =>
    match s.streamOn e i 1 with
    | some (t, x) => if t.space = 0 ∧ x.held = none then some (t.addr x, 64) else none
    | none => none
  | .copy q ix =>
    match s.flight e q ix with
    | some f => if f.op = 1 ∧ f.srcSpace = 0 ∧ f.open' then some (f.next.1, f.next.2.2) else none
    | none => none

/-- The stream number, and the queue and index, of a reader. -/
def feedWho : FeedReader → Option Nat × Nat × Nat
  | .stream i => (some i.val, 0, 0)
  | .copy q ix => (none, q.val, ix.val)

/-- A read of a feed port completes with a code other than OK. -/
def State.feedFail (s : State) (w : FeedWait) (code : Nat) : State :=
  match w.stream with
  | some i => s.streamStop w.engine i
  | none => match s.flight w.engine w.q w.ix with
    | some f => s.setFlight w.engine { f with code := code, waiting := false }
    | none => s

/-- A read of a feed port completes with its bytes. -/
def State.feedDone (s : State) (w : FeedWait) (bs : List Byte) : State :=
  match w.stream with
  | some i => s.setStream w.engine i { s.streamSt w.engine i with held := some bs }
  | none => match s.flight w.engine w.q w.ix with
    | some f =>
      let (_, b, n) := f.next
      s.pieceWrite w.engine f St.OK bs f.dstSpace b n none
    | none => s

/-- FEED_PORT_READ (R353): an engine's read of a feed port is refused, or waits at the port; up to 16 wait. -/
def execFeedPortRead (e : EngIx) (from' : FeedReader) (s : State) : Answer :=
  match s.feedWant e from' with
  | none => .next s
  | some (a, n) => match s.target a with
    | .feed p f =>
      let (st, q, ix) := feedWho from'
      let w : FeedWait := ⟨e, st, q, ix, n / 64, []⟩
      let x := s.feedOf p f
      if x.waits.any fun y => y.engine == e.val && y.stream == st && y.q == q && y.ix == ix then .next s
      else if !s.feedOn p f ∨ s.feedReader p f ≠ e.val then .next (s.feedFail w St.ACCESS)
      else if a % 64 ≠ 0 ∨ n % 64 ≠ 0 ∨ n = 0 ∨ 4096 < n then .next (s.feedFail w St.ALIGN)
      else if 16 ≤ x.waits.length then .next s
      else .next (s.setFeed p f { x with waits := x.waits ++ [w] })
    | _ => .next s

/-- The header entry of a packet (R354). -/
def FeedPkt.header (q : FeedPkt) : List Byte :=
  leBytes 4 q.bytes ++ leBytes 1 q.prio ++ leBytes 1 (b2n q.damaged) ++ leBytes 1 q.lastValid ++ leBytes 1 0 ++ leBytes 4 q.seq
    ++ leBytes 52 0

/-- The better of two closed packets in C2 order: the higher PRIO, and within one PRIO the earlier (R355). -/
def c2Better (a : Option FeedPkt) (q : FeedPkt) : Option FeedPkt :=
  match a with
  | none => some q
  | some b => if b.prio < q.prio then some q else some b

/-- The packet whose entry comes next (R355). -/
def FeedQ.pick (x : FeedQ) (framed c2 : Bool) : Option FeedPkt :=
  match x.cur with
  | some n => (x.pkts.find? fun q => q.seq == n).bind fun q => if framed && !q.headed || q.words != [] then some q else none
  | none =>
    if c2 then (x.pkts.filter (·.closed)).foldl c2Better none
    else if framed then x.pkts.find? (·.closed)
    else x.pkts.find? fun q => q.words != []

/-- Take the next entry: the entry, the queue after, and the number of a packet that ends with it. -/
def FeedQ.take (x : FeedQ) (framed c2 : Bool) : Option (List Byte × FeedQ × Option Nat) :=
  match x.pick framed c2 with
  | none => none
  | some q =>
    let head := framed && !q.headed
    let entry := if head then q.header else q.words.headD []
    let q1 := if head then { q with headed := true } else { q with words := q.words.drop 1 }
    let ends := q1.closed && q1.words == []
    let pkts := if ends then x.pkts.filter (·.seq != q.seq) else x.pkts.map fun y => if y.seq == q.seq then q1 else y
    some (entry, { x with pkts := pkts, cur := if ends then none else some q.seq }, if ends then some q.seq else none)

/-- FEED_DELIVER (R353 to R357): the first waiting read takes the next entry, and completes once it holds all it needs. `corrected` and `bad` say what
SECDED finds in the stored word. -/
def execFeedDeliver (p : HostIx) (f : Fin 16) (corrected bad : Bool) (s : State) : Answer :=
  let x := s.feedOf p f
  match x.waits with
  | [] => .next s
  | w :: l =>
    let drop := s.setFeed p f { x with waits := l }
    if !s.feedOn p f then .next (drop.feedFail w St.ACCESS)
    else if s.flag (Reg.FQ_STAT p f) Fld.FQ_STAT.UE then .next (drop.feedFail w St.CHECK_FAIL)
    else match x.take (s.feedFramed p f) (s.feedC2 p f) with
      | none => .next s
      | some (entry, y, ended) =>
        if bad then
          let s1 := (drop.satFld (Reg.FQ_ERR p f) Fld.FQ_ERR.UE 1).setFlag (Reg.FQ_STAT p f) Fld.FQ_STAT.UE true
          .next ((s1.faultFor Src.FQ_UE panelScope 0 false (some w.engine)).feedFail w St.CHECK_FAIL)
        else
          let s0 := if corrected then s.satFld (Reg.FQ_ERR p f) Fld.FQ_ERR.CE 1 else s
          let got := w.got ++ entry
          let full := decide (w.need * 64 ≤ got.length)
          let s1 := s0.feedPut p f { y with waits := if full then l else { w with got := got } :: l }
          let s2 := match ended with
            | some n => s1.feedNotice p f n
            | none => s1
          .next (if full then s2.feedDone w got else s2)

/-! ### FQ_CTRL and FQ_CFG (R349, R357) -/

/-- FLUSH (R357): waiting reads keep waiting. -/
def State.feedFlush (s : State) (p f : Nat) : State :=
  let a := Reg.FQ_STAT p f
  (((s.feedPut p f { waits := (s.feedOf p f).waits }).setFlag a Fld.FQ_STAT.OVERRUN false).setFlag a Fld.FQ_STAT.DAMAGED false).setFlag a
    Fld.FQ_STAT.UE false

/-- A write of FQ_CTRL. -/
def State.opFqCtrl (s : State) (p f v : Nat) : State := if bit v 0 then s.feedFlush p f else s

/-- FLUSH (R357). -/
def execFlush (r : Req) (p : HostIx) (f : Fin 16) (v : Word) (s : State) : Answer :=
  .next (s.gated r (Reg.FQ_CTRL p f) v.toNat fun s => s.opFqCtrl p f v.toNat)

/-- Whether the function of a port that FQ_CFG names owns the engine it names (R349). -/
def State.feedBindOk (s : State) (p v : Nat) : Bool :=
  match s.partOf (bits v 5 0) with
  | some x => x.port == p && (bits v 11 8 == 0 || x.fn == bits v 11 8)
  | none => false

/-- A write of FQ_CFG (R349): an enabled queue can only be disabled. -/
def State.opFqCfg (s : State) (p f v : Nat) : State :=
  let a := Reg.FQ_CFG p f
  let s1 := s.plainWrite a v
  let rej := s.setFlag (Reg.FQ_STAT p f) Fld.FQ_STAT.CFG_REJ true
  if s.feedOn p f then
    if bits (s1.rdN a) 30 0 = bits (s.rdN a) 30 0 then s1 else rej
  else if s1.feedOn p f && !s.feedBindOk p v then rej else s1

/-- FQ_CFG_WRITE (R349). -/
def execFqCfgWrite (r : Req) (p : HostIx) (f : Fin 16) (v : Word) (s : State) : Answer :=
  .next (s.gated r (Reg.FQ_CFG p f) v.toNat fun s => s.opFqCfg p f v.toNat)

/-- FQ_ERR_CLEAR (R362): a write of any value clears both counts. -/
def execFqErrClear (r : Req) (p : HostIx) (f : Fin 16) (v : Word) (s : State) : Answer :=
  .next (s.gated r (Reg.FQ_ERR p f) v.toNat fun s => s.wr (Reg.FQ_ERR p f) 0)

/-! ### Port and function resets (R358 to R360) -/

/-- A port reset starts (R359): no TLP passes, a context keeps only a command in progress that needs no host access, and the open packet
of each feed queue is closed as damaged. -/
def State.portReset (s : State) (p : Nat) : State :=
  if s.portState p = 0 ∨ s.portState p = 3 then s
  else
    let s0 : State := { s with guestWaits := s.guestWaits.filter fun w => !w.ofPort p }
    let s1 := (s0.setPortState p 3).onPort p fun x => { x with resetAt := s.now }
    let s2 := { s1 with msixPend := s1.msixPend.filter fun k => k / 32768 != p }
    let s3 := (List.range 64).foldl (fun s k =>
      if s.qcState p k = Qc.FREE then s
      else s.onQc p k fun x => { x with fetched := match x.fetched with
        | some c :: _ => if byteAt c 0 = 1 ∨ byteAt c 0 = 2 then [some c] else []
        | _ => [] }) s2
    (List.range 16).foldl (fun s f => if (s.feedOf p f).openPkt.2.bytes = 0 then s else s.feedClose p f 0 true) s3

/-- A context is freed by a reset. -/
def State.qcDrop (s : State) (p k : Nat) : State := if s.qcState p k = Qc.FREE then s else s.qcFree p k

/-- A feed queue is flushed and disabled, its waiting reads complete with ACCESS, and FQ_CFG takes its reset value (R359). -/
def State.feedDrop (s : State) (p f : Nat) : State :=
  let w := (s.feedOf p f).waits
  let s1 := (s.feedFlush p f).rstReg (Reg.FQ_CFG p f)
  w.foldl (fun s x => s.feedFail x St.ACCESS) (s1.setFeed p f { })

/-- The function set, MSI-X table and configuration space of a function take their reset values. -/
def State.fnDrop (s : State) (p fn : Nat) : State :=
  let s1 := s.rstRange (Reg.HP_QC_ARG p fn 0) 0x40
  { s1 with
    msix := SMap.eraseRange s1.msix (4 * msixKey p fn 0) 8192
    msixPend := s1.msixPend.filter fun k => k / 2048 != p * 16 + fn
    cfgSpace := SMap.eraseRange s1.cfgSpace (cfgKey p fn 0) 1024 }

/-- The end of a port reset's drain (R359). -/
def State.portDrainEnd (s : State) (p : Nat) : State :=
  let s1 := (List.range 64).foldl (fun s k => s.qcDrop p k) s
  let s2 := (List.range 16).foldl (fun s f => s.feedDrop p f) s1
  let s3 := (List.range 16).foldl (fun s fn => s.fnDrop p fn) s2
  let s4 := (s3.rstRange (Reg.HP_WIN p 0) 0x40).rstRange (Reg.HP_VFWIN p 1) 0x3C
  s4.rstReg (Reg.HP_PORT_STAT p)

/-- PERST_ASSERT (R358, R359): a pulse shorter than 1 us is counted; an assertion starts a port reset; a release re-arms a stuck input. -/
def execPerstAssert (p : HostIx) (asserted narrow : Bool) (s : State) : Answer :=
  let a := Reg.HP_PORT_ERR p
  if narrow then .next (s.satFld a Fld.HP_PORT_ERR.PERST_NARROW 1)
  else if !asserted then .next (s.onPort p fun x => { x with perst := false, perstAt := 0 })
  else if (s.port p).perstAt ≠ 0 then .next s
  else .next ((s.onPort p fun x => { x with perst := true, perstAt := s.now + 1 }).portReset p)

/-- PERST_STUCK (R358): PERST# has been asserted for 10 s: from then on it is treated as released. -/
def execPerstStuck (p : HostIx) (s : State) : Answer :=
  let x := s.port p
  if !x.perst ∨ s.now ≤ x.perstAt + 10000000000 then .next s
  else .next (((s.onPort p fun x => { x with perst := false }).setFlag (Reg.HP_PORT_ERR p) Fld.HP_PORT_ERR.PERST_STUCK true).fault
    Src.PERST_STUCK panelScope p)

/-- A surprise down of a port that runs (R359). -/
def State.surpriseDown (s : State) (p : Nat) : State :=
  if s.portState p = 0 ∨ s.portState p = 3 ∨ (s.port p).perst then s
  else
    let a := Reg.HP_PORT_ERR p
    (((s.portReset p).setFlag a Fld.HP_PORT_ERR.SURPRISE true).satFld a Fld.HP_PORT_ERR.SD_COUNT 1).fault Src.HP_SURPRISE panelScope p

/-- PORT_RESET (R359): a surprise down, or a hot reset or Link Disable. -/
def execPortReset (p : HostIx) (surprise : Bool) (s : State) : Answer :=
  .next (if surprise then s.surpriseDown p else s.portReset p)

/-- PORT_RESET_DRAIN_END (R359): 100 us after its start. -/
def execPortResetDrainEnd (p : HostIx) (s : State) : Answer :=
  if s.portState p ≠ 3 ∨ s.now < (s.port p).resetAt + 100000 then .next s else .next (s.portDrainEnd p)

/-- What a reset of one function does (R360). -/
def State.fnReset (s : State) (p fn : Nat) : State :=
  let s1 := (List.range 64).foldl (fun s k => if s.qcOwner p k = fn then s.qcDrop p k else s) s
  let s2 := (List.range 16).foldl (fun s f => if s.feedOn p f && s.feedWriter p f == fn then s.feedDrop p f else s) s1
  s2.fnDrop p fn

/-- FUNCTION_LEVEL_RESET (R360): a reset of the physical function also covers the windows and every virtual function. -/
def execFunctionLevelReset (p : HostIx) (fn : FnIx) (s : State) : Answer :=
  if !s.portUp p then .next s
  else if fn.val ≠ 0 then .next (s.fnReset p fn)
  else
    let s1 := (List.range 16).foldl (fun s f => s.fnReset p f) s
    .next ((s1.rstRange (Reg.HP_WIN p 0) 0x40).rstRange (Reg.HP_VFWIN p 1) 0x3C)

end Sys2Proof.Machine
end

