-- ==== Sys2Proof/Machine/Links.lean ====
section
/-! DEFINITION. The link ports: training, framing, replay, lane failures, holds, forwarding and beats (14_links_pairs_chains R363 to
R384), verdicts and expulsion as the link dies see them (R389, R390), and adoption notices of other panels (R396). -/
namespace Sys2Proof.Machine

/-! ### Lane groups (R366) -/

/-- The lane groups that hold no failed lane. -/
def goodGroups (failed : Nat) : Nat := ((List.range 4).filter fun k => bits failed (4 * k + 3) (4 * k) == 0).length

/-- The lanes that a port runs on. -/
def lanesOf (failed : Nat) : Nat :=
  let n := goodGroups failed
  if n = 4 then 16 else if 2 ≤ n then 8 else if n = 1 then 4 else 0

/-- Put the active lanes. -/
def State.setLanes (s : State) (p n : Nat) : State := s.setFld (Reg.LNK_PORT_STAT p) Fld.LNK_PORT_STAT.LANES n

/-- Whether the die of a link port is up. -/
def State.linkDie (s : State) (p : Nat) : Bool := !s.posDown (48 + p)

/-! ### Held packets (R371, R383) -/

/-- Whether a packet is one that is routed or flooded between panels, and may go another way. -/
def LinkPkt.routed (x : LinkPkt) : Bool := bulkKind x.kind || [0x11, 0x21, 0x23].contains x.kind

/-- Send what a port holds on its alternate, where one applies; what is left stays in the order it stood. -/
def State.linkReroute (s : State) (p : Nat) : State :=
  let l := s.link p
  let all := (l.sent.map fun x => (x, s.now)) ++ l.wait
  let s0 := s.onLink p fun l => { l with sent := [], wait := [] }
  all.foldl (fun (s : State) (x : LinkPkt × Nat) =>
    match (if x.1.routed then s.linkAlt p x.1 else none) with
    | some a => s.linkPut a { x.1 with rerouted := true }
    | none => s.onLink p fun l => { l with wait := l.wait ++ [x] }) s0

/-- Send what waits, once a port is up. -/
def State.linkFlush (s : State) (p : Nat) : State :=
  let w := (s.link p).wait
  w.foldl (fun (s : State) (x : LinkPkt × Nat) => s.linkPut p x.1) (s.onLink p fun l => { l with wait := [] })

/-- Remove every packet that a port holds (R371, R382). -/
def State.linkDropAll (s : State) (p : Nat) : State :=
  let w := (s.link p).wait
  w.foldl (fun (s : State) (x : LinkPkt × Nat) => s.linkDrop p x.1 2) (s.onLink p fun l => { l with wait := [] })

/-- The collectives that use a port abort with cause 2 (R387). -/
def State.collsPort (s : State) (p : Nat) : State :=
  (List.range 64).foldl (fun s c =>
    let st := s.fld (Reg.LNK_COLL_STAT c) Fld.LNK_COLL_STAT.STATE
    let a := Reg.LNK_COLL_CFG c 0
    if (st == 1 || st == 2) && (s.fld a Fld.LNK_COLL_CFG.PARENT == p || bit (s.fld a Fld.LNK_COLL_CFG.CHILDREN) p) then s.collDue c 2
    else s) s

/-- LNK_FAULT.PORT: a port went down or failed a lane (R373, R398). -/
def State.linkFault (s : State) (p : Nat) : State :=
  (s.setFlag Reg.LNK_FAULT Fld.LNK_FAULT.PORT true).fault Src.LNK_PORT panelScope p

/-- A port goes to state `st`, DOWN or one that carries nothing either: held traffic goes to the alternate or is removed (R371, R382,
R383). -/
def State.linkGone (s : State) (p st : Nat) : State :=
  let s1 := ((s.setLinkState p st).setLanes p 0).linkFault p
  ((s1.linkReroute p).linkDropAll p).collsPort p

/-- A port holds its traffic from now on. -/
def State.linkHold (s : State) (p : Nat) : State := (s.setLinkState p 4).onLink p fun l => { l with heldAt := s.now }

/-! ### Training (R372 to R374) -/

/-- LINK_PRESENCE (R372 step 1; 21 R542): a debounced change of cable or module presence; a module put in the place of one that drew too much
has its cage power. -/
def execLinkPresence (p : LinkIx) (present : Bool) (s : State) : Answer :=
  if !s.linkDie p ∨ (s.link p).present = present then .next s
  else
    let s1 := s.onLink p fun l => { l with present := present }
    if present then
      let s2 := (s1.setLinkState p 1).onLink p fun l => { l with heldAt := s.now, overpower := false }
      .next (if (s.link p).overpower then s2.emit (.pin (.cagePower p) true) else s2)
    else
      let st := s.linkState p
      .next (if st = 2 ∨ st = 3 ∨ st = 4 then s1.linkGone p 0 else ((s1.setLinkState p 0).setLanes p 0).linkDropAll p)

/-- The MISMATCH code of a capability exchange, or 0 (R374). -/
def State.linkMismatch (s : State) (p version panel port : Nat) : Nat :=
  firstFail [(1, panel != s.panelNo), (2, version == 1), (3, !s.linkPaired p || (port == 6 || port == 7))]

/-- A port that has trained comes up: after step 3 alone its packets are replayed, after steps 1 or 2 or a reset of the peer they are
sent anew (log 50). -/
def State.linkUpNow (s : State) (p : Nat) (resume : Bool) (lanes : Nat) : State :=
  let old := (s.link p).sent
  let s1 := ((s.setLinkState p (if lanes = 16 then 2 else 3)).setLanes p lanes).onLink p fun l => { l with noticed := false, heldAt := 0 }
  let s2 := if resume then
      old.foldl (fun (s : State) x => s.emit (.link p (linkKind x) x.words x.data)) s1
    else old.foldl (fun (s : State) x => s.linkPut p x) (s1.onLink p fun l => { l with txSeq := 0, rxSeq := 0, sent := [] })
  s2.linkFlush p

/-- LINK_TRAIN (R366, R372 to R374): a port trains. `failed`: the lanes that either end finds failed. -/
def execLinkTrain (p : LinkIx) (locked : Bool) (failed : Fin 65536) (version : Fin 256) (panel : Fin 65536) (port : LinkIx)
    (delay : Fin 65536) (s : State) : Answer :=
  let st := s.linkState p
  let l := s.link p
  if !s.linkDie p ∨ !l.present ∨ (st ≠ 1 ∧ st ≠ 4 ∧ st ≠ 5) then .next s
  else if !locked then .next (s.setLinkState p 1)
  else
    let mask := if st = 4 then Nat.lor l.failed failed else failed.val
    let lanes := lanesOf mask
    let bad := s.linkMismatch p version panel port
    let s1 := (s.wr (Reg.LNK_PORT_PEER p) (panel * 65536 + port * 256 + bad)).onLink p fun l => { l with failed := mask }
    if bad ≠ 0 then .next ((s1.setLinkState p 6).linkDropAll p)
    else if s1.expelled panel ∨ s1.expelled s1.panelNo then .next ((s1.setLinkState p 7).linkDropAll p)
    else if lanes = 0 then .next (s1.setLinkState p 5)
    else .next ((s1.setFld (Reg.LNK_PORT_DELAY p) Fld.LNK_PORT_DELAY.DELAY delay).linkUpNow p (st == 4 && !l.noticed) lanes)

/-- LINK_RETRAIN (R371, R372): a port that loses lock holds its traffic until it has trained from step 3. -/
def execLinkRetrain (p : LinkIx) (s : State) : Answer :=
  if s.linkLive p then .next (s.linkHold p) else .next s

/-- A write of LNK_PORT_CTRL: RETRAIN trains again from step 1 (R398). -/
def State.opLnkPortCtrl (s : State) (p v : Nat) : State :=
  let s1 := s.plainWrite (Reg.LNK_PORT_CTRL p) v
  if bit v 0 && (s1.link p).present then
    ((s1.setLinkState p 1).setLanes p 0).onLink p fun l => { l with heldAt := s.now }
  else s1

/-- RETRAIN (R372, R374, R398). -/
def execRetrain (r : Req) (p : LinkIx) (v : Word) (s : State) : Answer :=
  .next (s.gated r (Reg.LNK_PORT_CTRL p) v.toNat fun s => s.opLnkPortCtrl p v.toNat)

/-! ### Reception (R364, R367 to R370) -/

/-- Drop from the retry buffer what the peer's ACK_SEQ covers. -/
def LinkPort.ack (l : LinkPort) (seq : Nat) : LinkPort :=
  match l.sent with
  | [] => l
  | x :: _ =>
    let n := ahead (seq + 1) x.pseq
    if n ≤ l.sent.length then { l with sent := l.sent.drop n } else l

/-- The fields of a packet as it stands on the link. -/
def pktOf (b : List Byte) : LinkPkt := {
    kind := byteAt b 0
    vc := bits (byteAt b 1) 1 0
    rerouted := bit (byteAt b 1) 2
    pseq := leAt b 2 2
    hops := leAt b 4 2 % 4096
    dst := leAt b 8 3
    status := byteAt b 11
    src := leAt b 12 3
    addr := leAt b 16 6
    tag := leAt b 22 2
    aux := leAt b 24 8
    data := (b.drop 32).take (leAt b 6 2) }

/-- Whether a packet's CRC-32C matches: bytes 1 to 5 count as zero (R367). -/
def pktCrcOk (b : List Byte) : Bool :=
  let n := leAt b 6 2
  b.length == 36 + n && leAt b (32 + n) 4 == crc32c ((b.take 1 ++ List.replicate 5 0#8 ++ b.drop 6).take (32 + n))

/-- Whether a packet breaks nothing of R368. -/
def pktOk (b : List Byte) : Bool :=
  kindKnown (byteAt b 0) && decide (byteAt b 1 < 8) && decide (leAt b 4 2 < 4096) && byteAt b 15 == 0 && decide (leAt b 6 2 ≤ 4096)

/-- What a good packet does on arrival: a PAIR_BEAT is heard; LINK_MGMT, BEAT, MIRROR and PAIR_COMMIT act in commands of their own; the
others wait for theirs (log 49). -/
def State.linkTake (s : State) (p : Nat) (x : LinkPkt) : State :=
  match x.kind with
  | 0x20 | 0x3F | 0x30 | 0x31 => s
  | 0x32 =>
    let s1 : State := { s with pair := { s.pair with heard := s.now } }
    if !s.linkPaired p then s else if bit x.aux 0 then { s1 with linkIn := s1.linkIn ++ [(p, x)] } else s1
  | _ => { s with linkIn := s.linkIn ++ [(p, x)] }

/-- LINK_PACKET_RX (R367, R368, R370): a packet arrives with the peer's ACK_SEQ; `bad`: it overlaps an uncorrectable codeword. -/
def execLinkPacketRx (p : LinkIx) (ack : Fin 65536) (bad : Bool) (data : List Byte) (s : State) : Answer :=
  if !s.linkLive p then .next s
  else
    let s1 := s.onLink p fun l => l.ack ack
    let seq := (s1.link p).rxSeq
    if byteAt data 0 = 0 ∧ !bad then .next s1
    else if bad ∨ !pktCrcOk data ∨ leAt data 2 2 ≠ seq then .next (s1.emit (.link p .nak [(seq + 65535) % 65536] []))
    else
      let s2 := (s1.onLink p fun l => { l with rxSeq := (seq + 1) % 65536 }).emit (.link p .flowAck [seq] [])
      .next (if pktOk data then s2.linkTake p (pktOf data) else s2.satFld (Reg.LNK_PORT_CNT p 1) Fld.LNK_PORT_CNT.BAD 1)

/-- LINK_NAK_REPLAY (R370): a NAK makes the sender replay from the packet after the last one received in order. -/
def execLinkNakReplay (p : LinkIx) (ack : Fin 65536) (s : State) : Answer :=
  if !s.linkLive p then .next s
  else
    let s1 := s.onLink p fun l => l.ack ack
    let s2 := (s1.link p).sent.foldl (fun (s : State) x => s.emit (.link p (linkKind x) x.words x.data)) s1
    .next (s2.satFld (Reg.LNK_PORT_CNT p 0) Fld.LNK_PORT_CNT.REPLAY 1)

/-! ### Lane failures and holds (R366, R371, R373) -/

/-- LINK_LANE_FAIL (R366, R373): a lane fails; LINK_MGMT carries the failed lanes to the peer, and the port holds until both ends have
changed, or goes down. -/
def execLinkLaneFail (p : LinkIx) (lane : Fin 16) (s : State) : Answer :=
  let st := s.linkState p
  if (st ≠ 2 ∧ st ≠ 3 ∧ st ≠ 4) ∨ bit (s.link p).failed lane then .next s
  else
    let mask := (s.link p).failed + 2 ^ lane.val
    let s1 := ((s.onLink p fun l => { l with failed := mask }).satFld (Reg.LNK_PORT_CNT p 0) Fld.LNK_PORT_CNT.LANE_FAIL 1).queueDefect
      ⟨0x0A, 0xE0 + p, 0, lane, 2⟩
    if lanesOf mask = 0 then .next (s1.linkGone p 5)
    else
      let s2 := (s1.linkFault p).emit (.link p .mgmt [mask] [])
      .next (if st = 4 then s2 else s2.linkHold p)

/-- LINK_WIDTH_CHANGE (R366): both ends change to the lane groups that neither end finds failed. -/
def execLinkWidthChange (p : LinkIx) (failed : Fin 65536) (s : State) : Answer :=
  let st := s.linkState p
  let l := s.link p
  if (st ≠ 2 ∧ st ≠ 3 ∧ st ≠ 4) ∨ l.noticed then .next s
  else
    let mask := Nat.lor l.failed failed
    let s1 := s.onLink p fun l => { l with failed := mask }
    if lanesOf mask = 0 then .next (s1.linkGone p 5) else .next (s1.linkUpNow p true (lanesOf mask))

/-- LINK_HOLD_TIMEOUT (R371): packets that have waited 50 µs are removed, and a port held for 50 µs goes down. -/
def execLinkHoldTimeout (p : LinkIx) (s : State) : Answer :=
  let st := s.linkState p
  let l := s.link p
  if st ≠ 1 ∧ st ≠ 4 then .next s
  else
    let old := l.wait.filter fun x => decide (x.2 + 50000 ≤ s.now)
    let s1 := s.onLink p fun l => { l with wait := l.wait.filter fun x => !decide (x.2 + 50000 ≤ s.now) }
    let s2 := old.foldl (fun (s : State) (x : LinkPkt × Nat) => s.linkDrop p x.1 2) s1
    .next (if st = 4 ∧ l.heldAt + 50000 ≤ s.now then s2.linkGone p 5 else s2)

/-- Take the first packet of a port that satisfies a condition. -/
def State.linkPop (s : State) (p : Nat) (f : LinkPkt → Bool) : Option (LinkPkt × State) :=
  match s.linkIn.find? fun y => y.1 == p && f y.2 with
  | none => none
  | some y => some (y.2, { s with linkIn := s.linkIn.erase y })

/-- RESET_NOTICE (R371, R383): the peer's link dies are about to reset: the port is held, and its traffic takes the alternate. -/
def execResetNotice (p : LinkIx) (s : State) : Answer :=
  match s.linkPop p fun x => x.kind == 0x22 with
  | none => .next s
  | some (_, s1) =>
    if !s1.linkLive p then .next s1
    else .next (((s1.linkHold p).onLink p fun l => { l with noticed := true }).linkReroute p)

/-! ### Forwarding (R377 to R379) -/

/-- How a request from a link is met before its access: a near view or scratchpad needs the engine's partition in LNK_ACCESS, and one
access stays in one 4 KiB block. -/
def State.linkReach (s : State) (a n : Nat) : Nat :=
  let part := fun e : Nat => match s.partOf e with
    | some x => if bit (s.fld Reg.LNK_ACCESS Fld.LNK_ACCESS.PARTS) x.id then St.OK else St.ACCESS
    | none => St.ACCESS
  if n = 0 ∨ 4096 < n ∨ 4096 < a % 4096 + n then St.ALIGN
  else match s.target a with
    | .near e _ => part e
    | .spad e _ => part e
    | .guest _ _ => St.ADDR_UNMAPPED
    | _ => St.OK

/-- Serve a request from a link at address `a`. A write to a scratchpad names counter TAG's low byte where AUX bit 0 is set (log 51). -/
def State.linkServe (s : State) (x : LinkPkt) (a : Nat) : State :=
  let n := if x.kind = 1 then x.aux % 8192 else x.data.length
  let c := s.linkReach a n
  if c ≠ St.OK then s.linkAnswer x c []
  else if x.kind = 1 then
    let (s1, st, bs) := s.memRead a n none
    s1.linkAnswer x st bs
  else
    let (s1, st) := s.memWrite a x.data (if bit x.aux 0 then some (bits x.aux 15 8) else none)
    s1.linkAnswer x st []

/-- Serve a request that is addressed to an engine of the partner which engine `b` stands in for (R396). -/
def State.linkServeFor (s : State) (b : Nat) (x : LinkPkt) : State :=
  let a := shiftTo b x.addr
  if x.kind = 1 then s.linkServe x (s.pairRead b a)
  else
    let (s1, a') := s.pairWrite b a
    s1.linkServe x a'

/-- LINK_FORWARD (R377 to R379; R380): the oldest READ, WRITE or reply that arrived on port `p` is routed by the first rule that
applies. -/
def execLinkForward (p : LinkIx) (s : State) : Answer :=
  match s.linkPop p fun x => decide (1 ≤ x.kind ∧ x.kind ≤ 4) with
  | none => .next s
  | some (x, s1) =>
    let answer := fun st => if x.request then s1.linkAnswer x st [] else s1
    if s1.expelled (x.src / 256) then .next (answer St.LINK_ABORT)
    else match s1.feidRoute x.dst with
      | .barred => .next (answer St.LINK_ABORT)
      | .orphan => .next (answer St.TARGET_RESET)
      | .nowhere => .next (answer St.ADDR_UNMAPPED)
      | .away q => .next (s1.linkSend q x)
      | .standIn b => .next (if x.request then s1.linkServeFor b x else s1.emit (.hubDone b x.status x.data))
      | .here pos =>
        if x.request then .next (s1.linkServe x x.addr)
        else if pos < 48 then .next (s1.emit (.hubDone pos x.status x.data))
        else if 60 ≤ pos ∧ pos < 64 then .next (s1.emit (.guest (pos - 60) [x.kind, 0, x.status, x.tag] x.data))
        else .next s1

/-- Whether a descriptor waits for another panel. -/
def State.flightFar (s : State) (f : Flight) : Bool :=
  (f.srcSpace == 3 || f.dstSpace == 3) && (match s.feidRoute f.peer with
    | .away _ => true
    | _ => false)

/-- LINK_REQ_TIMEOUT (R379): a remote request of a descriptor has had no reply for LNK_TIMEOUT: it completes with LINK_ABORT. -/
def execLinkReqTimeout (e : EngIx) (q : QueueIx) (ix : Fin 65536) (s : State) : Answer :=
  match s.flight e q ix with
  | none => .next s
  | some f =>
    let limit := 1000 * max 10 (s.fld Reg.LNK_TIMEOUT Fld.LNK_TIMEOUT.US)
    if !s.flightFar f ∨ (f.unacked = [] ∧ !f.open') ∨ s.now < f.asked.headD f.since + limit then .next s
    else .next (s.setFlight e { f with unacked := [], asked := [], code := if f.code = 0 then St.LINK_ABORT else f.code })

/-! ### Beats (R384) -/

/-- BEAT_TX (R384): a port sends a BEAT once the master count has passed a multiple of the beat period. -/
def execBeatTx (p : LinkIx) (s : State) : Answer :=
  let per := s.rdN Reg.CAD_BEAT_PERIOD
  let k := s.ticks / per
  if !s.linkLive p ∨ s.linkPaired p ∨ !s.flag (Reg.LNK_PORT_CTRL p) Fld.LNK_PORT_CTRL.BEAT_TX ∨ per = 0 ∨ k ≤ (s.link p).beatMark then .next s
  else .next ((s.onLink p fun l => { l with beatMark := k }).linkSend p { kind := 0x20, data := leBytes 8 s.ticks })

/-! ### Verdicts, expulsion and adoption notices (R389, R390, R396) -/

/-- Send a packet on every chain port but one. -/
def State.flood (s : State) (but : Nat) (x : LinkPkt) : State :=
  (s.chainPorts.filter (· != but)).foldl (fun s q => s.linkSend q x) s

/-- VERDICT_RX (R389): a verdict that is not among the last 64 seen is forwarded on the chain ports and passed to Easel. -/
def execVerdictRx (p : LinkIx) (s : State) : Answer :=
  match s.linkPop p fun x => x.kind == 0x21 with
  | none => .next s
  | some (x, s1) =>
    let key := x.data.take 8
    if s1.verdictSeen.contains key then .next s1
    else
      let seen := s1.verdictSeen ++ [key]
      let s2 : State := { s1 with
        verdictSeen := seen.drop (seen.length - 64), verdictIn := s1.verdictIn ++ [x.data] }
      .next (s2.flood p x)

/-- A port is held down because its peer, or this panel, is expelled (R390). -/
def State.linkExpel (s : State) (p : Nat) : State :=
  let st := s.linkState p
  if st = 2 ∨ st = 3 ∨ st = 4 then s.linkGone p 7 else if st = 1 ∨ st = 5 then (s.setLinkState p 7).linkDropAll p else s

/-- What the ports do when a panel has been expelled: those whose peer it is are held down, and every chain port where it is this
panel (R390). -/
def State.expelPorts (s : State) (panel : Nat) : State :=
  let own := panel == s.panelNo
  let s1 := ((List.range 8).filter fun p => if own then !s.linkPaired p
    else s.fld (Reg.LNK_PORT_PEER p) Fld.LNK_PORT_PEER.PANEL == panel).foldl (fun s p => s.linkExpel p) s
  if own then (s1.setFlag Reg.LNK_FAULT Fld.LNK_FAULT.EXPELLED true).fault Src.EXPELLED panelScope 0 else s1

/-- A write of LNK_EXPEL: clearing VALID readmits the panel, and its ports train again. -/
def State.opLnkExpel (s : State) (i v : Nat) : State :=
  let s1 := s.plainWrite (Reg.LNK_EXPEL i) v
  (List.range 8).foldl (fun s p =>
    if s.linkState p == 7 && !s.expelled (s.fld (Reg.LNK_PORT_PEER p) Fld.LNK_PORT_PEER.PANEL) && !s.expelled s.panelNo then
      (s.setLinkState p 1).onLink p fun l => { l with heldAt := s.now }
    else s) s1

/-- EXPEL_CLEAR (R390, R398). -/
def execExpelClear (r : Req) (i : Fin 16) (v : Word) (s : State) : Answer :=
  .next (s.gated r (Reg.LNK_EXPEL i) v.toNat fun s => s.opLnkExpel i v.toNat)

/-- ADOPT (R396): a received ADOPT is written to a free LNK_REDIR entry and flooded on, or counted and ignored when all are in
use. -/
def execAdopt (p : LinkIx) (s : State) : Answer :=
  match s.linkPop p fun x => x.kind == 0x23 with
  | none => .next s
  | some (x, s1) =>
    let w := leAt x.data 0 2 * 65536 + leAt x.data 2 2
    if (List.range 16).any fun i => s1.rdN (Reg.LNK_REDIR i) == w then .next s1
    else match (List.range 16).find? fun i => s1.rdN (Reg.LNK_REDIR i) == 0 with
      | none => .next { s1 with adoptLost := s1.adoptLost + 1 }
      | some i => .next ((s1.wr (Reg.LNK_REDIR i) w).flood p x)

/-- LNK_PORT_CNT_CLEAR (R398). -/
def execLnkPortCntClear (r : Req) (p : LinkIx) (n : Fin 2) (v : Word) (s : State) : Answer :=
  .next (s.gated r (Reg.LNK_PORT_CNT p n) v.toNat fun s => s.rstReg (Reg.LNK_PORT_CNT p n))

/-- LNK_REDIR_CLEAR (R398): the redirection ends. -/
def execLnkRedirClear (r : Req) (i : Fin 16) (v : Word) (s : State) : Answer :=
  .next (s.gated r (Reg.LNK_REDIR i) v.toNat fun s => s.rstReg (Reg.LNK_REDIR i))

end Sys2Proof.Machine
end

