-- ==== Sys2Proof/Machine/Collective.lean ====
section
/-! DEFINITION. Collectives: the combining of split-form words in the link dies, results, aborts and the records (14_links_pairs_chains
R385 to R388). -/
namespace Sys2Proof.Machine

/-! ### Records -/

/-- Collective `c` beside its registers. -/
def State.coll (s : State) (c : Nat) : Coll := SMap.getD s.colls c { }

/-- Change a collective. -/
def State.onColl (s : State) (c : Nat) (f : Coll → Coll) : State := { s with colls := SMap.set { } s.colls c (f (s.coll c)) }

/-- Fields of LNK_COLL_CFG and LNK_COLL_STAT. -/
def State.collState (s : State) (c : Nat) : Nat := s.fld (Reg.LNK_COLL_STAT c) Fld.LNK_COLL_STAT.STATE
def State.collDie (s : State) (c : Nat) : Nat := s.fld (Reg.LNK_COLL_CFG c 0) Fld.LNK_COLL_CFG.DIE
def State.collParent (s : State) (c : Nat) : Nat := s.fld (Reg.LNK_COLL_CFG c 0) Fld.LNK_COLL_CFG.PARENT
def State.collBroadcast (s : State) (c : Nat) : Bool := s.flag (Reg.LNK_COLL_CFG c 0) Fld.LNK_COLL_CFG.OP

/-- The ports that lead to children. -/
def State.collChildren (s : State) (c : Nat) : List Nat :=
  (List.range 8).filter fun p => bit (s.fld (Reg.LNK_COLL_CFG c 0) Fld.LNK_COLL_CFG.CHILDREN) p

/-- The contributions that each word takes: LOCAL and one for each child (R386). -/
def State.collNeed (s : State) (c : Nat) : Nat :=
  s.fld (Reg.LNK_COLL_CFG c 0) Fld.LNK_COLL_CFG.LOCAL + (s.collChildren c).length

/-- Words per step; 0 acts as 1,048,576. -/
def State.collWords (s : State) (c : Nat) : Nat :=
  let n := s.fld (Reg.LNK_COLL_CFG c 1) Fld.LNK_COLL_CFG.WORDS
  if n = 0 then 1048576 else n

/-- The collective, step and byte offset of a destination address (R385). -/
def collOf (a : Nat) : Nat := a / 2 ^ 42 % 64
def stepOf (a : Nat) : Nat := a / 2 ^ 26 % 65536
def collOffset (a : Nat) : Nat := a % 2 ^ 26

/-- Show the oldest step held. -/
def State.collShow (s : State) (c : Nat) : State :=
  let a := Reg.LNK_COLL_STAT c
  match (s.coll c).steps with
  | [] => s
  | x :: _ => (s.setFld a Fld.LNK_COLL_STAT.STEP x.step).setFld a Fld.LNK_COLL_STAT.STATE 2

/-! ### Aborts (R387) -/

/-- Whether a descriptor contributes to collective `c`. -/
def State.flightFor (s : State) (c : Nat) (f : Flight) : Bool :=
  f.dstSpace == 3 && collOf f.dst == c && (match s.feidRoute f.peer with
    | .here pos => pos == 48 + s.collDie c
    | _ => false)

/-- The engines that have contributed, or have a contribution in flight. -/
def State.collMembers (s : State) (c : Nat) : List Nat :=
  (List.range 48).filter fun e => (s.coll c).locals.contains e || (s.eng e).flights.any (s.flightFor c)

/-- Every local contribution in flight completes with LINK_ABORT. -/
def State.flightsAbort (s : State) (c e : Nat) : State :=
  s.onEng e fun g => { g with
    flights := g.flights.map fun f =>
      if s.flightFor c f && (f.open' || f.unacked != []) then
        { f with unacked := [], asked := [], code := if f.code = 0 then St.LINK_ABORT else f.code }
      else f }

/-- Assert the abort line of each partition that holds a member. -/
def State.abortMembers (s : State) (mem : List Nat) : State :=
  (s.ground.parts.filter fun p => mem.any fun e => bit p.engines e).foldl (fun s p => s.abortPartition p) s

/-- A collective aborts with a cause, brought by port `but` if one brought it. -/
def State.collAbort (s : State) (c cause : Nat) (but : Option Nat) : State :=
  if s.collState c ≠ 1 ∧ s.collState c ≠ 2 then s.onColl c fun x => { x with due := 0 }
  else
    let a := Reg.LNK_COLL_STAT c
    let mem := s.collMembers c
    let ports := ((List.range 8).filter fun p => p == s.collParent c || (s.collChildren c).contains p).filter fun p => some p != but
    let s1 := ((s.setFld a Fld.LNK_COLL_STAT.STATE 3).setFld a Fld.LNK_COLL_STAT.CAUSE cause).setFld a Fld.LNK_COLL_STAT.STEP 0
    let s2 : State := { s1 with collIn := s1.collIn.filter fun x => collOf x.addr != c }
    let s3 := ports.foldl (fun s p => s.linkSend p { kind := 0x11, aux := c + 256 * cause }) s2
    let s4 := mem.foldl (fun s e => s.flightsAbort c e) s3
    let s5 := (s4.abortMembers mem).onColl c fun _ => { }
    (s5.setFlag Reg.LNK_FAULT Fld.LNK_FAULT.COLL_ABORT true).fault Src.LNK_COLL_ABORT panelScope c

/-- COLL_ABORT (R387): a COLL_ABORT that arrived on a port, or a cause that waits, aborts the collective. -/
def execCollAbort (c : Fin 64) (p : Option LinkIx) (s : State) : Answer :=
  match p with
  | some q =>
    match s.linkPop q fun x => x.kind == 0x11 && x.aux % 64 == c.val with
    | none => .next s
    | some (_, s1) => .next (s1.collAbort c 4 (some q))
  | none =>
    let due := (s.coll c).due
    if due = 0 then .next s else .next (s.collAbort c due none)

/-- COLL_TIMEOUT (R387 cause 3): a started step has had no contribution for COLL_TIMEOUT. -/
def execCollTimeout (c : Fin 64) (s : State) : Answer :=
  let t := max 1 (s.fld Reg.LNK_CFG Fld.LNK_CFG.COLL_TIMEOUT) * 1000
  if (s.coll c).steps.any fun x => decide (x.lastAt + t ≤ s.now) then .next (s.collAbort c 3 none) else .next s

/-! ### Results (R386) -/

/-- The result address of a collective. -/
def State.collResult (s : State) (c : Nat) : Nat :=
  s.rdN (Reg.LNK_COLL_CFG c 2) * 2 ^ 12 + s.fld (Reg.LNK_COLL_CFG c 3) Fld.LNK_COLL_CFG.RESULT_HI * 2 ^ 44

/-- Write one piece of a result and count it: on the counter of the scratchpad's owner, or on the engine counter of the engine whose
near part it is (08 R223; log 52). -/
def State.resultPiece (s : State) (c a : Nat) (bs : List Byte) : State :=
  let ctr := s.fld (Reg.LNK_COLL_CFG c 3) Fld.LNK_COLL_CFG.RESULT_CTR
  let (s1, st) := s.memWrite a bs (some ctr)
  match s.target a with
  | .near e _ => if st = St.OK then s1.addFld (Reg.ENG_ACNT (s.holder e) ctr) Fld.ENG_ACNT.COUNT (bs.length / 8) else s1
  | _ => s1

/-- Write a result, piece by piece. -/
def State.resultWrite (s : State) (c a : Nat) (bs : List Byte) : State :=
  ((pieces a bs.length 3).foldl (fun (x : State × List Byte) (p : Nat × Nat) =>
    (x.1.resultPiece c p.1 (x.2.take p.2), x.2.drop p.2)) (s, bs)).1

/-- A result: written here and sent to every child. -/
def State.collDeliver (s : State) (c addr : Nat) (bs : List Byte) : State :=
  (s.collChildren c).foldl (fun s p => s.linkSend p { kind := 0x10, addr := addr, aux := 1, data := bs })
    (s.resultWrite c (s.collResult c + collOffset addr) bs)

/-- COLL_RESULT (R386): a result that arrived on the port to the parent is written, counted and passed to the children. -/
def execCollResult (p : LinkIx) (s : State) : Answer :=
  match s.linkPop p fun x => x.kind == 0x10 && bit x.aux 0 with
  | none => .next s
  | some (x, s1) =>
    let c := collOf x.addr
    if (s1.collState c ≠ 1 ∧ s1.collState c ≠ 2) ∨ s1.collParent c ≠ p.val then .next s1
    else .next (s1.collDeliver c x.addr x.data)

/-! ### Contributions (R386) -/

/-- A complete word's value: the sum of R74 of its contributions. -/
def collSum (ws : List Word64) : List Byte := leBytes 8 (splitCombine ws).word.toNat

/-- Add the words of a contribution to a step, from byte offset `off`: the words that became complete, as (offset, value), and whether one had
too many. -/
def collAdd (need : Nat) (x : CollStep) (off : Nat) : List Word64 → CollStep × List (Nat × List Byte) × Bool
  | [] => (x, [], false)
  | w :: l =>
    let ws := (SMap.find? x.words off).getD [] ++ [w]
    let y := { x with words := SMap.put x.words off ws, done := x.done + b2n (ws.length == need) }
    let (z, out, bad) := collAdd need y (off + 8) l
    (z, if ws.length = need then (off, collSum ws) :: out else out, bad || decide (need < ws.length))

/-- Join words that follow one another into runs. -/
def collRuns : List (Nat × List Byte) → List (Nat × List Byte)
  | [] => []
  | (o, bs) :: l => match collRuns l with
    | (o', bs') :: r => if o' = o + bs.length then (o, bs ++ bs') :: r else (o, bs) :: (o', bs') :: r
    | [] => [(o, bs)]

/-- The complete words go to the parent as a contribution, or are the result at the root. -/
def State.collOut (s : State) (c step : Nat) (run : Nat × List Byte) : State :=
  let addr := c * 2 ^ 42 + step * 2 ^ 26 + run.1
  let parent := s.collParent c
  if parent < 8 then s.linkSend parent { kind := 0x10, addr := addr, data := run.2 } else s.collDeliver c addr run.2

/-- Put a step back, or retire it when all its words are complete. -/
def putStep (x : CollStep) (words : Nat) (l : List CollStep) : List CollStep :=
  if words ≤ x.done then l.filter (·.step != x.step)
  else if l.any (·.step == x.step) then l.map fun y => if y.step = x.step then x else y else l ++ [x]

/-- A contribution of words at an address, from engine `from'` or from a child. -/
def State.collTake (s : State) (from' : Option Nat) (addr : Nat) (bs : List Byte) : State :=
  let c := collOf addr
  let step := stepOf addr
  let x := s.coll c
  if s.collState c ≠ 1 ∧ s.collState c ≠ 2 then s
  else
    let s0 := match from' with
      | some e => s.onColl c fun x => { x with locals := if x.locals.contains e then x.locals else x.locals ++ [e] }
      | none => s
    if s.collBroadcast c then
      if from'.isSome ∧ s.collParent c = 8 then s0.collDeliver c addr bs else s0.collAbort c 5 none
    else
      let old := x.steps.find? (·.step == step)
      if old.isNone ∧ 2 ≤ x.steps.length then s0.collAbort c 6 none
      else
        let words := (chunks 8 (bs.length / 8) bs).map fun w => BitVec.ofNat 64 (leNat w)
        let (y, out, bad) := collAdd (s.collNeed c) { old.getD ⟨step, 0, [], 0⟩ with lastAt := s.now } (collOffset addr) words
        if bad then s0.collAbort c 5 none
        else
          let s1 := (s0.onColl c fun x => { x with steps := putStep y (s.collWords c) x.steps }).collShow c
          (collRuns out).foldl (fun s r => s.collOut c step r) s1

/-- COLL_DATA (R386): the oldest contribution that arrived on port `p`, or with none the oldest of a local engine, is added at the combining
link die; one for another die's record is discarded. -/
def execCollData (p : Option LinkIx) (s : State) : Answer :=
  match p with
  | some q =>
    match s.linkPop q fun x => x.kind == 0x10 && !bit x.aux 0 with
    | none => .next s
    | some (x, s1) => .next (s1.collTake none x.addr x.data)
  | none =>
    match s.collIn with
    | [] => .next s
    | x :: l =>
      let s1 : State := { s with collIn := l }
      if s.collDie (collOf x.addr) ≠ x.die then .next s1 else .next (s1.collTake x.engine x.addr x.data)

/-! ### Software (R387, R398) -/

/-- A write of LNK_COLL_CTRL: ABORT with cause 8, RESET re-arms at step 0. -/
def State.opCollCtrl (s : State) (c v : Nat) : State :=
  let s1 := if bit v 1 then s.collAbort c 8 none else s
  if bit v 0 && s1.flag (Reg.LNK_COLL_CFG c 0) Fld.LNK_COLL_CFG.ENABLE then
    (s1.wr (Reg.LNK_COLL_STAT c) 1).onColl c fun _ => { }
  else s1

/-- COLL_ABORT_CMD (R387 cause 8). -/
def execCollAbortCmd (r : Req) (c : Fin 64) (v : Word) (s : State) : Answer :=
  .next (s.gated r (Reg.LNK_COLL_CTRL c) v.toNat fun s => s.opCollCtrl c v.toNat)

/-- COLL_RESET (R387, R398). -/
def execCollReset (r : Req) (c : Fin 64) (v : Word) (s : State) : Answer :=
  .next (s.gated r (Reg.LNK_COLL_CTRL c) v.toNat fun s => s.opCollCtrl c v.toNat)

/-- A write of LNK_COLL_CFG word `n`: while ENABLE is set only a write that clears it acts; a DIAMETER above the horizon refuses ENABLE with
CFG_REJ (R387). -/
def State.opCollCfg (s : State) (c n v : Nat) : State :=
  let a := Reg.LNK_COLL_CFG c n
  if s.flag (Reg.LNK_COLL_CFG c 0) Fld.LNK_COLL_CFG.ENABLE then
    if n = 0 ∧ !bit v 31 then ((s.plainWrite a v).wr (Reg.LNK_COLL_STAT c) 0).onColl c fun _ => { } else s
  else if n = 0 ∧ bit v 31 then
    if s.horizon < s.fld (Reg.LNK_COLL_CFG c 1) Fld.LNK_COLL_CFG.DIAMETER then s.setFlag Reg.LNK_FAULT Fld.LNK_FAULT.CFG_REJ true
    else (s.plainWrite a v).wr (Reg.LNK_COLL_STAT c) 1
  else s.plainWrite a v

/-- COLL_ENABLE (R387, R398). -/
def execCollEnable (r : Req) (c : Fin 64) (v : Word) (s : State) : Answer :=
  .next (s.gated r (Reg.LNK_COLL_CFG c 0) v.toNat fun s => s.opCollCfg c 0 v.toNat)

end Sys2Proof.Machine
end

