-- ==== Sys2Proof/Machine/Guests.lean ====
section
/-! DEFINITION. Sekaen ports and guest sites: training, lane repair and widths, power and reset of a guest, admission, and what a guest and
the panel see of each other (15_sekaen_guest_sites R399 to R416). -/
namespace Sys2Proof.Machine

/-! ### Ports (R401 to R404) -/

/-- The number of a port among the states of lanes: 14 per engine, then two per guest site. -/
def skKey : SkPort → Nat
  | .die e n => e.val * 14 + n.val
  | .guest g edge => 672 + 2 * g.val + b2n edge

/-- The register of a port. -/
def skReg : SkPort → Nat
  | .die e n => Reg.SK_PORT e n
  | .guest g edge => Reg.SK_GUEST_PORT g (b2n edge)

/-- The failed lanes of a module, as a mask. -/
def State.skMask (s : State) (port : SkPort) (m : Nat) : Nat := SMap.getD s.skFail (skKey port * 16 + m) 0

/-- Note a failed lane. -/
def State.skNote (s : State) (port : SkPort) (m lane : Nat) : State :=
  { s with skFail := SMap.set 0 s.skFail (skKey port * 16 + m) (Nat.lor (s.skMask port m) (2 ^ lane)) }

/-- The failed lanes of each module. -/
def State.skCounts (s : State) (port : SkPort) : List Nat :=
  (List.range 16).map fun m => ((List.range 64).filter fun i => bit (s.skMask port m) i).length

/-- The width code that so many good modules allow (R403). -/
def skWidth (good : Nat) : Nat := if good = 16 then 0 else if 12 ≤ good then 1 else if 8 ≤ good then 2 else if 4 ≤ good then 3 else 4

/-- Show the lanes repaired and the width of a port (R403). -/
def State.skShow (s : State) (port : SkPort) : State :=
  let cs := s.skCounts port
  let a := skReg port
  (s.setFld a Fld.SK_PORT.REPAIRED (cs.map fun c => min c 4).sum).setFld a Fld.SK_PORT.WIDTH
    (skWidth (cs.filter fun c => decide (c ≤ 4)).length)

/-- Whether a capability record lets a port come up: major version 1, 16 Gb/s, 16 modules, and retry, partial width and BIST (R402). -/
def capsOk (r : List Byte) : Bool := byteAt r 1 == 1 && bit (byteAt r 7) 2 && byteAt r 8 == 16 && byteAt r 9 % 16 / 8 == 1 && byteAt r 9 % 4 == 3

/-- The engine or site byte and the unit of a port in the defect list (17 R451). -/
def skUnit : SkPort → Nat × Nat
  | .die e n => (e, n)
  | .guest g edge => (0xF0 + g, b2n edge)

/-- The SK_LANE entry of a lane. -/
def skDefect (port : SkPort) (m lane source : Nat) : Defect := ⟨4, (skUnit port).1, (skUnit port).2, m + 16 * lane, source⟩

/-- The lanes of a port that the defect list names. -/
def State.skListed (s : State) (port : SkPort) : List (Nat × Nat) :=
  (s.flash.defects.filter fun x => x.d.kind == 4 && x.d.engine == (skUnit port).1 && x.d.unit == (skUnit port).2).map
    fun x => (x.d.location % 16, x.d.location / 16 % 64)

/-! ### Power, reset and the position of a guest (R407 to R410) -/

/-- A flag of SK_GUEST_STAT. -/
def State.guestFlag (s : State) (g : Nat) (f : Fld) : Bool := s.flag (Reg.SK_GUEST_STAT g) f

/-- Put a flag of SK_GUEST_STAT. -/
def State.setGuest (s : State) (g : Nat) (f : Fld) (b : Bool) : State := s.setFlag (Reg.SK_GUEST_STAT g) f b

/-- Whether a guest takes packets: admitted, powered and out of reset (R410, R415). -/
def State.guestLive (s : State) (g : Nat) : Bool :=
  s.guestFlag g Fld.SK_GUEST_STAT.ADMITTED && s.guestFlag g Fld.SK_GUEST_STAT.POWERED && !s.guestFlag g Fld.SK_GUEST_STAT.IN_RESET

/-- Change a guest by `f`, and announce its position when that takes it up or down (R286, R410). -/
def State.guestStep (s : State) (g : Nat) (f : State → State) : State :=
  let s1 := f s
  if s.guestLive g && !s1.guestLive g then { s1 with annDown := s1.annDown ++ [60 + g], annUp := s1.annUp.erase (60 + g) }
  else if !s.guestLive g && s1.guestLive g then { s1 with annUp := s1.annUp ++ [60 + g], annDown := s1.annDown.erase (60 + g) }
  else s1

/-- Enter an admission or a removal in the change record (R415; 20 R528). -/
def State.guestRecord (s : State) (g : Nat) (removed : Bool) : State :=
  s.captureEvent 8 (g + 256 * b2n removed) (leAt (s.guestCap g) 2 2 + 65536 * leAt (s.guestCap g) 4 2) (slice (s.guestCap g) 16 16)

/-- Withdraw admission. -/
def State.guestRemove (s : State) (g : Nat) : State :=
  if s.guestFlag g Fld.SK_GUEST_STAT.ADMITTED then
    s.guestStep g fun s => (s.setGuest g Fld.SK_GUEST_STAT.ADMITTED false).guestRecord g true
  else s

/-- Drive GRST_N of a site. -/
def State.guestRst (s : State) (g : Nat) (on : Bool) : State :=
  (s.setGuest g Fld.SK_GUEST_STAT.IN_RESET on).emit (.pin (.guestReset g) on)

/-- VDD_G of a site turns off: the guest is held in reset, and is admitted and qualified no longer (R407, R408, R410). -/
def State.guestOff (s : State) (g : Nat) : State :=
  if !s.guestFlag g Fld.SK_GUEST_STAT.POWERED then s
  else
    let s1 := s.guestRemove g
    let s2 := ((s1.setGuest g Fld.SK_GUEST_STAT.POWERED false).setGuest g Fld.SK_GUEST_STAT.QUALIFIED false).guestRst g true
    let s3 := ((s2.rstReg (Reg.SK_GUEST_PORT g 0)).rstReg (Reg.SK_GUEST_PORT g 1)).setFld (Reg.SK_GUEST_PWR g) Fld.SK_GUEST_PWR.AMPS 0
    s3.emit (.pin (.guestPower g) false)

/-- VDD_G of a site turns on at its record's voltage when a die is present, a qualification record is held and the link domain is
powered; GRST_N is released unless RESET holds it (R408, R410). -/
def State.guestOn (s : State) (g : Nat) : State :=
  match SMap.find? s.flash.quals g with
  | none => s
  | some q =>
    if s.guestFlag g Fld.SK_GUEST_STAT.POWERED ∨ !s.guestFlag g Fld.SK_GUEST_STAT.PRESENT ∨ !s.boot.link then s
    else
      let s1 := ((s.setGuest g Fld.SK_GUEST_STAT.POWERED true).setFld (Reg.SK_GUEST_PWR g) Fld.SK_GUEST_PWR.MV5 (byteAt q 5)).emit
        (.pin (.guestPower g) true)
      s1.guestRst g (s.guestHeld.contains g)

/-- GUEST_PRESENCE (R408): a filtered change of presence powers or removes the guest. -/
def execGuestPresence (g : SiteIx) (present : Bool) (s : State) : Answer :=
  if s.guestFlag g Fld.SK_GUEST_STAT.PRESENT = present then .next s
  else
    let s1 := s.setGuest g Fld.SK_GUEST_STAT.PRESENT present
    .next (if present then s1.guestOn g else s1.guestOff g)

/-- GUEST_TRIP (R407): overcurrent or GTHERM_N switches VDD_G off. -/
def execGuestTrip (g : SiteIx) (s : State) : Answer :=
  if !s.guestFlag g Fld.SK_GUEST_STAT.POWERED then .next s
  else .next (((s.guestOff g).setFlag (Reg.SK_GUEST_ERR g) Fld.SK_GUEST_ERR.GUEST_TRIP true).fault Src.GUEST_TRIP panelScope 0)

/-- A write of SK_GUEST_CTRL; with several bits set they act from bit 0 up (log 54). -/
def State.opGuestCtrl (s : State) (g v : Nat) : State :=
  let s1 := if bit v 0 && s.guestFlag g Fld.SK_GUEST_STAT.QUALIFIED && !s.guestFlag g Fld.SK_GUEST_STAT.ADMITTED then
      s.guestStep g fun s => (s.setGuest g Fld.SK_GUEST_STAT.ADMITTED true).guestRecord g false
    else s
  let s2 := if bit v 1 then
      { s1 with guestHeld := if s1.guestHeld.contains g then s1.guestHeld else s1.guestHeld ++ [g] }.guestStep g fun s => s.guestRst g true
    else s1
  let s3 := if bit v 2 && s2.guestHeld.contains g then
      let t : State := { s2 with guestHeld := s2.guestHeld.erase g }
      if t.guestFlag g Fld.SK_GUEST_STAT.POWERED then t.guestStep g fun s => s.guestRst g false else t
    else s2
  if bit v 3 then s3.guestRemove g else s3

/-- A requester's write of SK_GUEST_CTRL. -/
def State.guestCtrl (s : State) (r : Req) (g v : Nat) : State := s.gated r (Reg.SK_GUEST_CTRL g) v fun s => s.opGuestCtrl g v

/-- ADMIT (R415, R416). -/
def execAdmitSite (r : Req) (g : SiteIx) (v : Word) (s : State) : Answer := .next (s.guestCtrl r g (putBits v.toNat 0 0 1))

/-- REVOKE (R416). -/
def execRevoke (r : Req) (g : SiteIx) (v : Word) (s : State) : Answer := .next (s.guestCtrl r g (putBits v.toNat 3 3 1))

/-- GUEST_RESET (R410, R416). -/
def execGuestReset (r : Req) (g : SiteIx) (v : Word) (s : State) : Answer := .next (s.guestCtrl r g (putBits v.toNat 1 1 1))

/-- RELEASE (R410, R416). -/
def execRelease (r : Req) (g : SiteIx) (v : Word) (s : State) : Answer := .next (s.guestCtrl r g (putBits v.toNat 2 2 1))

/-- SK_GUEST_ERR_CLEAR (R416): the flags written with 1 and the BAD count clear. -/
def execSkGuestErrClear (r : Req) (g : SiteIx) (v : Word) (s : State) : Answer :=
  .next (s.gated r (Reg.SK_GUEST_ERR g) v.toNat fun s => (s.plainWrite (Reg.SK_GUEST_ERR g) v.toNat).setFld (Reg.SK_GUEST_ERR g)
    Fld.SK_GUEST_ERR.BAD 0)

/-! ### Training (R401 to R403, R415) -/

/-- A finding of the bring-up of an engine (17 R447 step c). -/
def State.finding (s : State) (e : Nat) (d : Defect) : State :=
  s.onEng e fun g => { g with sup := { g.sup with findings := if g.sup.findings.contains d then g.sup.findings else g.sup.findings ++ [d] } }

/-- The position that a port of an engine takes out with it: its own die for HA and HB, the upper die for a port between two (log 55). -/
def skDie (n : Nat) : Nat := if n < 10 then n / 2 else n - 9

/-- The guest's capability record as its port delivered it, and what Easel makes of it (R401, R415). -/
def State.guestCaps (s : State) (g : Nat) (r : List Byte) : State :=
  let s1 := (List.range 8).foldl (fun s n => s.wr (Reg.SK_GUEST_CAP g n) (leAt r (4 * n) 4)) s
  let q := (SMap.find? s.flash.quals g).getD []
  if slice q 8 4 == slice r 2 4 && slice q 24 16 == slice r 16 16 then s1.setGuest g Fld.SK_GUEST_STAT.QUALIFIED true
  else (((s1.setFlag (Reg.SK_GUEST_ERR g) Fld.SK_GUEST_ERR.MISMATCH_ID true).fault Src.GUEST_MISMATCH panelScope 0).guestOff g)

/-- Whether a port may train: an engine's in step b of its bring-up, a guest's while it is powered and out of reset. -/
def State.skMayTrain (s : State) : SkPort → Bool
  | .die e _ => s.engState e == 3
  | .guest g _ => s.guestFlag g Fld.SK_GUEST_STAT.POWERED && !s.guestFlag g Fld.SK_GUEST_STAT.IN_RESET

/-- What a port that did not come up takes with it: HA and HB their die (R402, R406). -/
def State.skOut (s : State) (port : SkPort) (mismatch : Bool) : State :=
  match port with
  | .die e n => if n.val < 10 ∨ mismatch then s.finding e ⟨0x10, e, skDie n, 0, 1⟩ else s
  | .guest _ _ => s

/-- SK_LINK_UP (R401 to R403): a port trains with the lanes that BIST finds failed and those of the defect list, and exchanges
capability records. -/
def execSkLinkUp (port : SkPort) (failed : List (Fin 16 × Fin 64)) (record : Vector Byte 32) (s : State) : Answer :=
  if !s.skMayTrain port then .next s
  else
    let a := skReg port
    let listed := s.skListed port
    let fresh := (failed.map fun x => (x.1.val, x.2.val)).filter fun x => !listed.contains x
    let s0 : State := { s with skFail := (List.range 16).foldl (fun m i => SMap.erase m (skKey port * 16 + i)) s.skFail }
    let s1 := (listed ++ fresh).foldl (fun (s : State) (x : Nat × Nat) => s.skNote port x.1 x.2) s0
    let s2 := fresh.foldl (fun (s : State) (x : Nat × Nat) => match port with
      | .die e _ => s.finding e (skDefect port x.1 x.2 1)
      | .guest _ _ => s.queueDefect (skDefect port x.1 x.2 1)) s1
    let s3 := s2.skShow port
    let up := capsOk record.toList
    let s4 := s3.setFld a Fld.SK_PORT.STATE (if !up then 3 else if s3.fld a Fld.SK_PORT.WIDTH = 4 then 0 else 1)
    let s5 := if s4.fld a Fld.SK_PORT.STATE = 1 then s4 else s4.skOut port (!up)
    .next (match port with
      | .guest g _ => if s5.fld a Fld.SK_PORT.STATE = 0 then s5 else s5.guestCaps g record.toList
      | .die _ _ => s5)

/-! ### Failures in service (R404, R406) -/

/-- Logical dies whose port between positions `m` and `m + 1` carries their crossing: the crossing passes through the hub (R128). -/
def State.viaHub (s : State) (e m : Nat) : State :=
  match s.dieAt e m, s.dieAt e (m + 1) with
  | some a, some b =>
    let port := fun x y : Nat => if y = x + 1 then some 1 else if x = y + 1 then some 0 else none
    let s1 := match port a b with
      | some p => s.setFlag (Reg.FAB_XING e m p) Fld.FAB_XING.VIA_HUB true
      | none => s
    match port b a with
    | some p => s1.setFlag (Reg.FAB_XING e (m + 1) p) Fld.FAB_XING.VIA_HUB true
    | none => s1
  | _, _ => s

/-- An internal port goes down (R406): a crossing reroutes, an active die takes its engine out of service (SK_HUB_PORT_DOWN contains it,
and the DIE_OUT entry gives its index to the spare at the next bring-up), the spare is marked out. -/
def State.skDown (s : State) (e n : Nat) : State :=
  let a := Reg.SK_PORT e n
  let s1 := (s.setFld a Fld.SK_PORT.WIDTH 4).setFld a Fld.SK_PORT.STATE 0
  if 10 ≤ n then (s1.viaHub e (n - 10)).fault Src.SK_XING_DOWN e n
  else
    let s2 := s1.queueDefect ⟨0x10, e, n / 2, 0, 2⟩
    if (s.dieAt e (n / 2)).isSome then s2.fault Src.SK_HUB_PORT_DOWN e n else s2

/-- SK_PORT_DOWN (R406). -/
def execSkPortDown (e : EngIx) (n : Fin 14) (s : State) : Answer :=
  if s.fld (Reg.SK_PORT e n) Fld.SK_PORT.STATE ≠ 1 then .next s else .next (s.skDown e n)

/-- SK_LANE_FAIL (R404): a lane fails in service; the port repairs it, narrows, or goes down. -/
def execSkLaneFail (port : SkPort) (m : Fin 16) (lane : Fin 64) (s : State) : Answer :=
  let a := skReg port
  if s.fld a Fld.SK_PORT.STATE ≠ 1 ∨ bit (s.skMask port m) lane then .next s
  else
    let w := s.fld a Fld.SK_PORT.WIDTH
    let s1 := ((s.skNote port m lane).skShow port).queueDefect (skDefect port m lane 2)
    let s2 := if s1.fld a Fld.SK_PORT.WIDTH < w then s1.setFld a Fld.SK_PORT.WIDTH w else s1
    match port with
    | .die e n =>
      let s3 := s2.fault Src.SK_LANE_FAIL e n
      .next (if s3.fld a Fld.SK_PORT.WIDTH = 4 then s3.skDown e n else s3)
    | .guest _ _ => .next (if s2.fld a Fld.SK_PORT.WIDTH = 4 then s2.setFld a Fld.SK_PORT.STATE 0 else s2)

/-! ### What a guest sees (R411 to R413) -/

/-- The edge engine adjacent to a guest site (R399). -/
def guestEngine (g : Nat) : Nat := [3, 23, 44, 24].getD g 3

/-- How a request of guest `g` is met before its access (R413). -/
def State.guestMay (s : State) (g a n : Nat) : Nat :=
  let part := fun e : Nat => match s.partId e with
    | some p => if bit (s.fld (Reg.SK_GUEST_ACCESS g) Fld.SK_GUEST_ACCESS.PARTS) p then St.OK else St.ACCESS
    | none => St.ACCESS
  if n = 0 ∨ 4096 < n ∨ 4096 < a % 4096 + n then St.ALIGN
  else match s.target a with
    | .near e _ => part e
    | .spad e _ => part e
    | .spread _ _ _ => St.OK
    | .guest x off => if x = g ∧ off + n ≤ s.guestWindow g then St.OK else St.ADDR_UNMAPPED
    | _ => St.ADDR_UNMAPPED

/-- Answer a guest's request on the port that carried it: 0 ring, 1 edge. -/
def State.guestReply (s : State) (g : Nat) (edge : Bool) (x : LinkPkt) (status : Nat) (data : List Byte) : State :=
  s.emit (.guest g [x.kind + 2, b2n edge, status, x.tag] data)

/-- Serve a guest's request by its panel address; a write into a scratchpad names its counter as a link's does (R413; log 51). -/
def State.guestServe (s : State) (g : Nat) (edge : Bool) (x : LinkPkt) : State :=
  let n := if x.kind = 1 then x.aux % 8192 else x.data.length
  let c := s.guestMay g x.addr n
  if c ≠ St.OK then s.guestReply g edge x c []
  else match s.target x.addr with
    | .guest _ off => s.guestAsk g (.guest x.tag (x.kind == 2)) [x.kind, off, n] x.data
    | _ =>
      if x.kind = 1 then
        let (s1, st, bs) := s.memRead x.addr n none
        s1.guestReply g edge x st bs
      else
        let (s1, st) := s.memWrite x.addr x.data (if bit x.aux 0 then some (bits x.aux 15 8) else none)
        s1.guestReply g edge x st []

/-- A request of a guest: an edge port whose engine is down is held (R411); one for another panel leaves by its link (11 R281). -/
def State.guestRequest (s : State) (g : Nat) (edge : Bool) (x : LinkPkt) : State :=
  if edge && s.posDown (guestEngine g) then s.guestReply g edge x St.TARGET_RESET []
  else match s.feidRoute x.dst with
    | .away p => s.linkSend p x
    | .barred => s.guestReply g edge x St.LINK_ABORT []
    | .orphan => s.guestReply g edge x St.TARGET_RESET []
    | .nowhere => s.guestReply g edge x St.ADDR_UNMAPPED []
    | _ => s.guestServe g edge x

/-- The outcome of a request that waited for a guest (R414; 13 R335, R336). -/
def State.guestDone (s : State) (w : GuestWait) (status : Nat) (data : List Byte) : State :=
  let s1 : State := { s with guestWaits := s.guestWaits.erase w }
  match w.who with
  | .engine e => s1.emit (.hubDone e status data)
  | .hostRead p _ => s1.emit (.complete p (hostStatus status) (if status = St.OK then data else []))
  | .hostWrite p fn a => if status = St.OK then s1 else s1.werr p fn 0 status a
  | .guest tag wr => s1.emit (.guest w.site [if wr then 4 else 3, 0, status, tag] data)

/-- Whether the header of a guest packet is in order: kinds 1 to 4, FLAGS, PSEQ and HOPS zero, a good CRC (R412). -/
def guestPktOk (b : List Byte) : Bool :=
  pktCrcOk b && decide (1 ≤ byteAt b 0 ∧ byteAt b 0 ≤ 4) && byteAt b 1 == 0 && leAt b 2 4 == 0 && byteAt b 15 == 0
    && decide (leAt b 6 2 ≤ 4096)

/-- GUEST_PACKET (R411 to R413): a packet of an admitted guest is a request, a reply, or bad; an answer to no request that waits is
late, and discarded (R414). -/
def execGuestPacket (g : SiteIx) (edge : Bool) (data : List Byte) (s : State) : Answer :=
  if !s.guestLive g ∨ s.fld (Reg.SK_GUEST_PORT g (b2n edge)) Fld.SK_PORT.STATE ≠ 1 then .next s
  else if !guestPktOk data then .next (s.satFld (Reg.SK_GUEST_ERR g) Fld.SK_GUEST_ERR.BAD 1)
  else
    let x := pktOf data
    if x.request then .next (s.guestRequest g edge x)
    else match s.guestWaits.find? fun w => w.site == g.val && w.tag == x.tag with
      | some w => .next (s.guestDone w x.status x.data)
      | none => .next s

/-! ### The guest window (R414) -/

/-- GUEST_WINDOW_REQUEST (R414): a request of an engine in the window of site `g` is delivered to the guest, or refused. -/
def execGuestWindowRequest (g : SiteIx) (e : EngIx) (off : Fin 0x4000000000) (n : Fin 4097) (write : Option (List Byte)) (s : State) :
    Answer :=
  let len := match write with
    | some bs => bs.length
    | none => n.val
  if !s.engineUp e ∨ len = 0 ∨ 4096 < len then .next s
  else
    let c := s.guestReach g off len (s.partId e)
    if c ≠ St.OK then .next (s.emit (.hubDone e c []))
    else match write with
      | some bs => .next (s.guestAsk g (.engine e) [2, off, len] bs)
      | none => .next (s.guestAsk g (.engine e) [1, off, len] [])

/-- GUEST_TIMEOUT (R414): the oldest request that the guest has not answered within SK_GUEST_TIMEOUT completes with TARGET_RESET. -/
def execGuestTimeout (g : SiteIx) (s : State) : Answer :=
  match s.guestWaits.find? fun w => w.site == g.val with
  | none => .next s
  | some w =>
    if s.now < w.since + 1000 * max 1 (s.fld (Reg.SK_GUEST_TIMEOUT g) Fld.SK_GUEST_TIMEOUT.US) then .next s
    else .next (((s.guestDone w St.TARGET_RESET []).setFlag (Reg.SK_GUEST_ERR g) Fld.SK_GUEST_ERR.GUEST_TIMEOUT true).fault
      Src.GUEST_TIMEOUT panelScope 0)

end Sys2Proof.Machine
end

