-- ==== Sys2Proof/Machine/Power.lean ====
section
/-! DEFINITION. Power delivery: supply of engines and of the link domain, regulators and phases, the input limit and the throttle,
breakers, reservations and ramps (16_power R417 to R439). -/
namespace Sys2Proof.Machine

/-! ### Supply states and the budget (R434, R439) -/

/-- The codes of PWR_ENG_STAT.STATE. -/
def Pw.OFF : Nat := 0
def Pw.WAIT : Nat := 1
def Pw.RAMP : Nat := 2
def Pw.PAUSED : Nat := 3
def Pw.ON : Nat := 4
def Pw.TRIPPED : Nat := 5
def Pw.LATCHED : Nat := 6

/-- PWR_ENG_STAT.STATE of an engine. -/
def State.pwr (s : State) (e : Nat) : Nat := s.fld (Reg.PWR_ENG_STAT e) Fld.PWR_ENG_STAT.STATE

/-- Put PWR_ENG_STAT.STATE. -/
def State.setPwr (s : State) (e v : Nat) : State := s.setFld (Reg.PWR_ENG_STAT e) Fld.PWR_ENG_STAT.STATE v

/-- Whether an engine has supply: it ramps, stands paused, or is on. -/
def State.supplied (s : State) (e : Nat) : Bool := decide (2 ≤ s.pwr e ∧ s.pwr e ≤ 4)

/-- Change the supply of an engine. -/
def State.onSup (s : State) (e : Nat) (f : Supply → Supply) : State := s.onEng e fun g => { g with sup := f g.sup }

/-- The mode in effect: 0 bus, 1 direct, 3 none. -/
def State.mode (s : State) : Nat := s.fld Reg.PWR_MODE Fld.PWR_MODE.MODE

/-- The reservation of an engine in W, with the limits of PWR_ENG_RES. -/
def State.resOf (s : State) (e : Nat) : Nat := min 2000 (max 400 (s.fld (Reg.PWR_ENG_RES e) Fld.PWR_ENG_RES.WATTS))

/-- What is held: the edge share, 326 W for each guest whose VDD_G is on, and the reservations granted. -/
def State.heldWatts (s : State) : Nat :=
  1348 + 326 * ((List.range 4).filter fun g => s.guestFlag g Fld.SK_GUEST_STAT.POWERED).length
    + (((List.range 48).filter fun e => decide (1 ≤ s.pwr e ∧ s.pwr e ≤ 4)).map s.resOf).sum

/-- The available power: the lesser of 46 kW and V × 1,050 A averaged over 1 ms, or DIRECT_BUDGET; none while the edge is not up. -/
def State.availWatts (s : State) : Nat :=
  if !s.boot.link then 0
  else match s.mode with
    | 0 => let v := s.input.volts
      if v = [] then 0 else min 46000 (v.sum * 105 / v.length)
    | 1 => s.fld Reg.PWR_LIMIT Fld.PWR_LIMIT.SUSTAIN
    | _ => 0

/-! ### Losing supply (R203, R432, R435) -/

/-- An engine loses its supply: it announces itself down, and its hub, cells, fabric, router and stacks hold nothing any more. Its
supply record and temperatures stay, and so does a containment. -/
def State.engineDark (s : State) (e : Nat) : State :=
  let s0 : State := { s with
    annDown := if s.annDown.contains e ∨ (s.edgeDown.contains e ∧ !s.annUp.contains e) then s.annDown else s.annDown ++ [e]
    annUp := s.annUp.erase e }
  let s1 := s0.disarmAll e none
  let s2 := if (s1.eng e).contained then s1 else s1.disarm e 7
  let s3 := ((s2.collsLose [e]).rstRange (0x01000000 + e * 0x400000) 0x400000).rstRange (Reg.SK_PORT e 0) 56
  let g := s3.eng e
  let s4 := s3.setEng e { contained := g.contained, sup := g.sup, therm := { g.therm with last := [] } }
  { s4 with
    cells := s4.cells.filter fun p => p.1 / 4096 != e
    fabs := s4.fabs.filter fun p => p.1 / 4 != e
    packets := s4.packets.filter fun p => p.at' != e || p.ring.isSome
    cellParity := SMap.eraseRange s4.cellParity (cellKey e 0 0) 4096
    rampQ := s4.rampQ.erase e
    hbm := Memory.lose s4.hbm (e * 2 ^ 37) (2 ^ 37) }

/-- The stage of bring-up that a supervised command completes; OFF has none (17 R454). -/
def stepTarget (cmd : Nat) : Nat := if cmd = 0x10 then 1 else if cmd = 0x11 then 2 else if cmd = 0x12 then 3 else if cmd = 0x13 then 4
  else if cmd = 0x14 then 5 else if cmd = 0x15 then 6 else 0

/-- The supervised command that runs ends with a code, and is entered in the change record (17 R455; 20 R528). -/
def State.stepEnd (s : State) (code : Nat) : State :=
  let s1 := (s.setFlag Reg.EZ_STEP_STAT Fld.EZ_STEP_STAT.BUSY false).setFld Reg.EZ_STEP_STAT Fld.EZ_STEP_STAT.CODE code
  let engs := s.rdN (Reg.EZ_STEP_ENG 0) + s.rdN (Reg.EZ_STEP_ENG 1) * 2 ^ 32
  { s1 with boot := { s1.boot with cmd := 0, cmdEngs := [] } }.captureEvent 9 s.boot.cmd engs [] 1 0 code

/-- Whether an engine is done with the supervised command: its stage is complete, or it has failed and is off. -/
def State.stepSettled (s : State) (e : Nat) : Bool :=
  decide (stepTarget s.boot.cmd ≤ (s.eng e).sup.stage) || (decide (s.pwr e = Pw.OFF ∨ 5 ≤ s.pwr e) && !s.boot.todo.contains e)

/-- A supervised engine command is complete when every engine it names is; CODE 3 when one of them failed. -/
def State.stepCheck (s : State) : State :=
  if s.boot.cmd < 0x10 ∨ 0x15 < s.boot.cmd ∨ !(s.boot.cmdEngs.all s.stepSettled) then s
  else s.stepEnd (if s.boot.cmdEngs.all fun e => decide (stepTarget s.boot.cmd ≤ (s.eng e).sup.stage) then 0 else 3)

/-- When no engine of the present gesso wave ramps any longer, the wave is complete (17 R445); and a supervised command may be. -/
def State.waveCheck (s : State) : State :=
  let s1 := if s.boot.waveAt = none ∧ s.boot.taken ≠ [] ∧ (s.boot.taken.all fun e => !decide (1 ≤ s.pwr e ∧ s.pwr e ≤ 3)) then
      { s with boot := { s.boot with waveAt := some s.now } }
    else s
  s1.stepCheck

/-- Whether an engine is under the supervised command that runs. -/
def State.supervisedNow (s : State) (e : Nat) : Bool := s.boot.cmd != 0 && s.boot.cmdEngs.contains e

/-- The highest of the power and thermal levels of an engine (19 R494). -/
def State.throttleOf (s : State) (e : Nat) : Nat := max (s.eng e).sup.throttle (s.eng e).therm.level

/-- Show the throttle level, the clock limit, and whether any engine is throttled. -/
def State.throttleShow (s : State) (e : Nat) : State :=
  let s1 := s.setFld (Reg.PWR_ENG_STAT e) Fld.PWR_ENG_STAT.THROTTLE (s.throttleOf e)
  let s2 := (s1.setFld (Reg.PWR_ENG_PHASE e) Fld.PWR_ENG_PHASE.CAP (s1.clockCap e)).clockShow e
  s2.setFlag Reg.PWR_PEAK Fld.PWR_PEAK.THROTTLING ((List.range 48).any fun i => s2.throttleOf i != 0)

/-- A breaker opens (R432, R433): the engine is reported, contained and dark; `counts`: whether it counts as a trip, which a second one of
an engine latches (19 R495). -/
def State.trip (s : State) (e cause : Nat) (counts : Bool) : State :=
  if !s.supplied e then s
  else if !counts then ((((s.contain e true).engineDark e).setPwr e Pw.TRIPPED).setEngState e 7).waveCheck
  else
    let a := Reg.PWR_ENG_BRK e
    let s1 := ((s.setFlag a Fld.PWR_ENG_BRK.TRIP true).setFld a Fld.PWR_ENG_BRK.CAUSE cause).satFld a Fld.PWR_ENG_BRK.TRIPS 1
    let latched := decide (2 ≤ s1.fld a Fld.PWR_ENG_BRK.TRIPS)
    let s2 := (s1.setFlag a Fld.PWR_ENG_BRK.LATCHED latched).queueDefect ⟨9, e, 0, cause, 2⟩
    let s3 := (s2.setFlag Reg.PWR_FAULT Fld.PWR_FAULT.BRK_TRIP true).fault Src.BRK_TRIP e 0
    (((((s3.contain e true).engineDark e).setPwr e (if latched then Pw.LATCHED else Pw.TRIPPED)).setEngState e 7).throttleShow e).waveCheck

/-- BREAKER_TRIP (R432): causes 1 to 3. -/
def execBreakerTrip (e : EngIx) (cause : Fin 3) (s : State) : Answer := .next (s.trip e (cause.val + 1) true)

/-- The link domain loses its supply (R421, R428; 14 R382; 17 R463): link ports and host ports go dark, the ring and the guests are down. -/
def State.linkOff (s : State) : State :=
  if !s.boot.link then s
  else
    let s1 := (List.range 4).foldl (fun s g => s.guestOff g) s
    let s2 := (List.range 8).foldl (fun s p => (s.linkDropAll p).collsPort p) s1
    let s3 := s2.guestWaits.foldl (fun s w => s.guestDone w St.TARGET_RESET []) s2
    let s4 := [0, 1].foldl (fun s p => (s.portReset p).portDrainEnd p) s3
    let s5 := ((s4.rstRange 0x500000 0x100000).rstRange 0x600000 0x100000).rstRange 0x700000 0x100000
    let edge := List.range' 48 10 ++ [60, 61, 62, 63]
    { s5 with
      boot := { s5.boot with link := false }
      links := s5.links.filterMap fun p => if p.2.present then some (p.1, { present := true }) else none
      linkIn := [], colls := [], collIn := [], verdictSeen := [], pair := { }
      packets := s5.packets.filter fun p => p.ring.isNone
      edgeDown := s5.edgeDown ++ edge.filter fun p => !s5.edgeDown.contains p
      annDown := s5.annDown.filter fun p => !edge.contains p
      annUp := s5.annUp.filter fun p => !edge.contains p }

/-! ### Regulation (R422 to R425) -/

/-- VSTAGE_UPDATE (R422, R423): the set point moves from the lowest reading. -/
def execVstageUpdate (e : EngIx) (min : Fin 2048) (die : Fin 6) (s : State) : Answer :=
  if s.pwr e ≠ Pw.ON then .next s
  else
    let a := Reg.PWR_ENG_VSET e
    let target := 680 + 5 * Nat.min 20 (s.fld (Reg.PWR_ENG_VLOGIC e) Fld.PWR_ENG_VLOGIC.STEP)
    let v := s.fld a Fld.PWR_ENG_VSET.VSET
    let s1 := (s.setFld a Fld.PWR_ENG_VSET.MIN min).setFld a Fld.PWR_ENG_VSET.DIE die
    let n := (s.eng e).sup.high + 1
    if min.val + 10 < target then .next ((s1.setFld a Fld.PWR_ENG_VSET.VSET (Nat.min 1100 (v + 10))).onSup e fun x => { x with high := 0 })
    else if min.val ≤ target + 20 then .next (s1.onSup e fun x => { x with high := 0 })
    else if n < 8 then .next (s1.onSup e fun x => { x with high := n })
    else .next ((s1.setFld a Fld.PWR_ENG_VSET.VSET (max 980 (v - 5))).onSup e fun x => { x with high := 0 })

/-! ### Stages and phases (R426, R427, R437) -/

/-- The place of a die's count in PWR_ENG_REG. -/
def regField (m : Nat) : Fld :=
  match m with
  | 0 => Fld.PWR_ENG_REG.M0 | 1 => Fld.PWR_ENG_REG.M1 | 2 => Fld.PWR_ENG_REG.M2 | 3 => Fld.PWR_ENG_REG.M3 | 4 => Fld.PWR_ENG_REG.M4
  | _ => Fld.PWR_ENG_REG.HUB

/-- The stages that a die has lost since it was made. -/
def State.stagesLost (s : State) (e m : Nat) : Nat := SMap.getD s.stages (e * 6 + m) 0

/-- REG_LOSS is raised (R426, R427). -/
def State.regLoss (s : State) (e : Nat) : State := (s.setFlag Reg.PWR_FAULT Fld.PWR_FAULT.REG_LOSS true).fault Src.REG_LOSS e 0

/-- A die with seven stages lost goes out: its engine is taken out of service, by REG_OUT, and the entry acts at the next bring-up. -/
def State.stageOut (s : State) (e m : Nat) : State :=
  (s.queueDefect (if m = 5 then ⟨0x13, e, 0, 7, 2⟩ else ⟨0x10, e, m, 0, 2⟩)).fault Src.REG_OUT e 0

/-- Whether a defect is on the list, or waits to be appended. -/
def State.listed (s : State) (kind e unit loc : Nat) : Bool :=
  (s.flash.defects.any fun x => x.d.kind == kind && x.d.engine == e && x.d.unit == unit && x.d.location == loc)
    || s.defectQ.any fun d => d.kind == kind && d.engine == e && d.unit == unit && d.location == loc

/-- REG_STAGE_FAIL (R426): a stage of a powered die is switched out; what a ramp loses acts when it is done (R437). -/
def execRegStageFail (e : EngIx) (die : Fin 6) (stage : Fin 24) (s : State) : Answer :=
  let up := die.val = 5 ∨ (s.dieAt e die).isSome ∨ s.engState e < 5
  if !s.supplied e ∨ !up ∨ (die.val = 5 ∧ 16 ≤ stage.val) ∨ s.listed 6 e die stage then .next s
  else
    let n := s.stagesLost e die + 1
    let s1 : State := { s with stages := SMap.set 0 s.stages (e.val * 6 + die.val) n }
    let s2 := ((s1.setFld (Reg.PWR_ENG_REG e) (regField die) n).queueDefect ⟨6, e, die, stage, 2⟩).regLoss e
    let s3 := s2.throttleShow e
    .next (if n ≠ 7 then s3
      else if s.pwr e = Pw.ON then s3.stageOut e die
      else s3.onSup e fun x => { x with late := x.late ++ [die.val] })

/-- The phases that work. -/
def State.phases (s : State) (e : Nat) : Nat := s.fld (Reg.PWR_ENG_PHASE e) Fld.PWR_ENG_PHASE.PHASES

/-- Fewer than 12 phases: the breaker opens, and the engine goes out of service (R427, R432). -/
def State.phaseOut (s : State) (e : Nat) : State :=
  if s.mode ≠ 0 ∨ 12 ≤ s.phases e then s
  else ((s.queueDefect ⟨0x13, e, 0, 7, 2⟩).fault Src.REG_OUT e 0).trip e 4 true

/-- PHASE_FAIL (R427): a phase is switched out; the direct mode has none. -/
def execPhaseFail (e : EngIx) (phase : Fin 16) (s : State) : Answer :=
  if s.mode ≠ 0 ∨ !s.supplied e ∨ bit (s.eng e).sup.badPhases phase then .next s
  else
    let s1 := s.onSup e fun x => { x with badPhases := x.badPhases + 2 ^ phase.val }
    let s2 := ((s1.setFld (Reg.PWR_ENG_PHASE e) Fld.PWR_ENG_PHASE.PHASES (s.phases e - 1)).queueDefect ⟨7, e, 0, phase, 2⟩).regLoss e
    .next (if s.pwr e = Pw.ON then s2.phaseOut e else s2)

/-! ### The input (R428 to R431; 18 R482) -/

/-- The limits in force: the instantaneous one, and the sustained one once the peak store is empty (R429, R431). -/
def State.limitNow (s : State) : Nat :=
  let sus := s.fld Reg.PWR_LIMIT Fld.PWR_LIMIT.SUSTAIN
  if s.mode = 0 then
    (if s.input.peak = 0 then min sus (s.fld Reg.PWR_LIMIT Fld.PWR_LIMIT.INST) else s.fld Reg.PWR_LIMIT Fld.PWR_LIMIT.INST)
  else sus

/-- The bands of the input voltage: 1 low, 2 high (R428; log 56). -/
def inputBand (dv : Nat) : Nat := if dv < 440 then 1 else if 560 < dv then 2 else 0

/-- INPUT_LOW or INPUT_HIGH, raised as the input enters the band. -/
def State.inputEnter (s : State) (dv : Nat) : State :=
  let b := inputBand dv
  let s1 : State := { s with input := { s.input with band := b } }
  if b = s.input.band then s
  else match b with
    | 1 => (s1.setFlag Reg.PWR_FAULT Fld.PWR_FAULT.INPUT_LOW true).fault Src.INPUT_LOW panelScope 0
    | 2 => (s1.setFlag Reg.PWR_FAULT Fld.PWR_FAULT.INPUT_HIGH true).fault Src.INPUT_HIGH panelScope 0
    | _ => s1

/-- Since when a condition holds. -/
def sinceWhen (old : Option Nat) (now : Nat) (c : Bool) : Option Nat := if c then some (old.getD now) else none

/-- The tray's sample of voltage and current in bus mode: limits, peak store, bands, and PAIR_FAIL once the input has been below 40 V for
5 µs. -/
def State.traySample (s : State) (dv amps : Nat) (buses : List Nat) : State :=
  let p := dv * amps / 10
  let s1 := (s.wr Reg.PWR_INPUT (amps * 65536 + dv)).wr Reg.PWR_LIMIT (min 52000 (dv * 105) * 65536 + 46000)
  let s2 := (buses.zipIdx).foldl (fun (s : State) (x : Nat × Nat) => s.setFld (Reg.PWR_COLBUS x.2) Fld.PWR_COLBUS.MV x.1) s1
  let i := s2.input
  let peak := min 120000000 (i.peak + 46000 - p)
  let vs := i.volts ++ [dv]
  let low := sinceWhen i.lowSince s.now (decide (dv < 400))
  let fail := match low with
    | some t => decide (t + 5000 ≤ s.now) && !i.failSent
    | none => false
  let s3 : State := { s2 with input := { i with
    volts := vs.drop (vs.length - 1000)
    peak := if p ≤ 46000 + i.peak then peak else 0
    lowSince := low
    badSince := sinceWhen i.badSince s.now (decide (dv < 400 ∨ 580 < dv))
    failSent := fail || (i.failSent && low.isSome) } }
  let s4 := (s3.setFld Reg.PWR_PEAK Fld.PWR_PEAK.STORE (s3.input.peak / 1000000)).setFld Reg.PWR_BUDGET Fld.PWR_BUDGET.DRAW p
  (if fail then s4.sendPairFail else s4).inputEnter dv

/-- INPUT_SAMPLE (R428, R429, R431): the samples of one microsecond: input voltage and current, the current and power of each engine, the buses,
and the edge field's power. -/
def execInputSample (decivolt amps : Fin 65536) (draws : List (Fin 65536 × Fin 65536)) (buses : Vector (Fin 65536) 9) (edge : Fin 65536)
    (s : State) : Answer :=
  if !s.boot.link then .next s
  else
    let ds := (draws.take 48).zipIdx
    let s1 := ds.foldl (fun (s : State) (x : (Fin 65536 × Fin 65536) × Nat) =>
      s.wr (Reg.PWR_ENG_DRAW x.2) (x.1.1.val * 65536 + x.1.2.val)) s
    let s2 := if s1.mode = 0 then s1.traySample decivolt amps (buses.toList.map (·.val))
      else s1.setFld Reg.PWR_BUDGET Fld.PWR_BUDGET.DRAW (min 65535 ((ds.map fun x => x.1.2.val).sum + edge.val))
    let ok := decide (s2.fld Reg.PWR_BUDGET Fld.PWR_BUDGET.DRAW + 1000 ≤ s2.limitNow)
    .next { s2 with input := { s2.input with okSince := sinceWhen s2.input.okSince s.now ok } }

/-! ### The throttle (R430) -/

/-- Whether an engine draws more than its working phases carry (R427). -/
def State.overPhases (s : State) (e : Nat) : Bool :=
  s.mode == 0 && s.pwr e == Pw.ON && decide (s.phases e < 14 ∧ s.phases e * 60 < s.fld (Reg.PWR_ENG_DRAW e) Fld.PWR_ENG_DRAW.AMPS)

/-- Whether the draw is above a limit. -/
def State.overLimit (s : State) : Bool := decide (s.limitNow < s.fld Reg.PWR_BUDGET Fld.PWR_BUDGET.DRAW)

/-- The engines whose level rises. -/
def State.throttleUp (s : State) : List Nat :=
  let on := (List.range 48).filter fun e => s.pwr e == Pw.ON
  let hit := on.filter fun e => decide (s.resOf e < s.fld (Reg.PWR_ENG_DRAW e) Fld.PWR_ENG_DRAW.WATTS) || s.overPhases e
  if hit ≠ [] then hit else on.filter fun e => (s.eng e).sup.throttle == 0

/-- Put the throttle level of an engine. -/
def State.setThrottle (s : State) (e v : Nat) : State := (s.onSup e fun x => { x with throttle := v }).throttleShow e

/-- THROTTLE_STEP (R430): above a limit levels rise every 10 µs; with 1 kW to spare for 100 µs they fall every 100 µs. -/
def execThrottleStep (s : State) : Answer :=
  let t := s.input.throttleAt
  let mark := fun s : State => { s with input := { s.input with throttleAt := s.now } }
  if s.overLimit ∨ (List.range 48).any s.overPhases then
    if s.now < t + 10000 then .next s
    else
      let s1 := s.throttleUp.foldl (fun s e => s.setThrottle e (min 8 ((s.eng e).sup.throttle + 1))) (mark s)
      .next ((s1.setFlag Reg.PWR_FAULT Fld.PWR_FAULT.THROTTLE true).fault Src.THROTTLE panelScope 0)
  else match s.input.okSince with
    | none => .next s
    | some ok =>
      if s.now < t + 100000 ∨ s.now < ok + 100000 then .next s
      else .next (((List.range 48).filter fun e => (s.eng e).sup.throttle != 0).foldl
        (fun s e => s.setThrottle e ((s.eng e).sup.throttle - 1)) (mark s))

/-! ### ON, OFF and ramps (R434 to R437) -/

/-- Whether J or S of an engine, as last read, stands at or above 85 °C (19 R495). -/
def State.isHot (s : State) (e : Nat) : Bool :=
  let x := (s.eng e).therm
  [x.j, x.s0, x.s1].any fun o => match o with
    | some t => decide (135 ≤ t)
    | none => false

/-- What an ON is answered: 0 accepted, 1 NO_BUDGET, 2 latched, 3 out of service, 4 not off (log 57: under HALT_PANEL and while MRST_N
is held every engine counts as out of service, and so does one in no partition). -/
def State.onCode (s : State) (e : Nat) : Nat :=
  if s.pwr e = Pw.LATCHED then 2
  else if s.engState e = 8 ∨ s.halted ∨ s.boot.mrstAt.isSome ∨ (s.partOf e).isNone then 3
  else if s.pwr e ≠ Pw.OFF ∧ s.pwr e ≠ Pw.TRIPPED then 4
  else if s.availWatts < s.heldWatts + s.resOf e then 1
  else 0

/-- Request a reservation for an engine, and queue it for a ramp slot. -/
def State.requestOn (s : State) (e : Nat) : State :=
  let code := s.onCode e
  let s1 := s.setFld (Reg.PWR_ENG_STAT e) Fld.PWR_ENG_STAT.CODE code
  if code ≠ 0 then s1
  else
    let hot := s1.pwr e == Pw.TRIPPED && s1.isHot e
    let old := (s1.eng e).sup
    let s2 := s1.onEng e fun g => { g with
      contained := false
      sup := { throttle := old.throttle, badPhases := old.badPhases, from' := s1.now, hot := hot } }
    let s3 := ((s2.setPwr e Pw.WAIT).setEngState e 1).setFld (Reg.PNL_ENG_STATE e) Fld.PNL_ENG_STATE.RESULT 0
    { s3 with rampQ := s3.rampQ ++ [e] }

/-- Switch an engine off (R435): the ramp stops, the rails come down, and the reservation is released. -/
def State.switchOff (s : State) (e : Nat) : State :=
  if s.pwr e = Pw.OFF ∨ s.pwr e = Pw.TRIPPED ∨ s.pwr e = Pw.LATCHED then s
  else
    let s1 := s.onEng e fun g => { g with contained := false }
    let s2 := (s1.engineDark e).setPwr e Pw.OFF
    let s3 := if s.engState e = 8 then s2 else s2.setEngState e 0
    ((s3.onSup e fun x => { throttle := 0, badPhases := x.badPhases, grown := x.grown }).throttleShow e).waveCheck

/-- A write of PWR_ENG_CTRL; ON and OFF together do nothing (log 58). -/
def State.opEngCtrl (s : State) (e v : Nat) : State :=
  if bit v 0 && bit v 1 then s else if bit v 0 then s.requestOn e else if bit v 1 then s.switchOff e else s

/-- ON (R434, R435). -/
def execOn (r : Req) (e : EngIx) (v : Word) (s : State) : Answer :=
  .next (s.gated r (Reg.PWR_ENG_CTRL e) (putBits v.toNat 0 0 1) fun s => s.opEngCtrl e (putBits v.toNat 0 0 1))

/-- OFF (R435). -/
def execOff (r : Req) (e : EngIx) (v : Word) (s : State) : Answer :=
  .next (s.gated r (Reg.PWR_ENG_CTRL e) (putBits v.toNat 1 1 1) fun s => s.opEngCtrl e (putBits v.toNat 1 1 1))

/-- Whether an engine still waits for its temperatures (19 R495). -/
def State.coolWait (s : State) (e : Nat) : Bool := (s.eng e).sup.hot && s.isHot e

/-- RAMP_START (R435): the first engine in arrival order that does not wait to cool takes a free slot of six. -/
def execRampStart (e : EngIx) (s : State) : Answer :=
  let busy := ((List.range 48).filter fun i => s.pwr i == Pw.RAMP || s.pwr i == Pw.PAUSED).length
  if (s.rampQ.find? fun i => !s.coolWait i) ≠ some e.val ∨ 6 ≤ busy then .next s
  else
    let s1 := (s.setPwr e Pw.RAMP).onSup e fun x => { x with since := s.now, ramped := 0, paused := 0 }
    .next { s1 with rampQ := s1.rampQ.erase e.val }

/-- RAMP_PAUSE (R436): the column bus is below 5.70 V, or VIN_CORE at the field below 1.03 V in direct mode. -/
def execRampPause (e : EngIx) (mv : Fin 65536) (s : State) : Answer :=
  if s.pwr e ≠ Pw.RAMP ∨ (if s.mode = 0 then 5700 else 1030) ≤ mv.val then .next s
  else .next ((s.setPwr e Pw.PAUSED).onSup e fun x => { x with ramped := x.ramped + (s.now - x.since), since := s.now, busOk := none })

/-- RAMP_RESUME (R436): the bus stands at 5.85 V or above; the ramp resumes once it has for 10 µs. In direct mode it resumes at 1.03 V. -/
def execRampResume (e : EngIx) (mv : Fin 65536) (s : State) : Answer :=
  let x := (s.eng e).sup
  let go := (s.setPwr e Pw.RAMP).onSup e fun x => { x with paused := x.paused + (s.now - x.since), since := s.now, busOk := none }
  if s.pwr e ≠ Pw.PAUSED ∨ 5000000 ≤ x.paused + (s.now - x.since) then .next s
  else if s.mode ≠ 0 then .next (if 1030 ≤ mv.val then go else s)
  else if mv.val < 5850 then .next (s.onSup e fun x => { x with busOk := none })
  else match x.busOk with
    | none => .next (s.onSup e fun x => { x with busOk := some s.now })
    | some t => .next (if s.now < t + 10000 then s else go)

/-- RAMP_ABORT (R436; 17 R446): the pauses of a ramp have added up to 5 ms. -/
def execRampAbort (e : EngIx) (s : State) : Answer :=
  let x := (s.eng e).sup
  if s.pwr e ≠ Pw.PAUSED ∨ x.paused + (s.now - x.since) < 5000000 then .next s
  else
    let s1 := (s.setFlag Reg.PWR_FAULT Fld.PWR_FAULT.RAMP_ABORT true).fault Src.RAMP_ABORT e 0
    let s2 := (s1.switchOff e).setFld (Reg.PWR_ENG_STAT e) Fld.PWR_ENG_STAT.CODE 5
    .next (s2.setFld (Reg.PNL_ENG_STATE e) Fld.PNL_ENG_STATE.RESULT 2)

/-- RAMP_DONE (R435, R437): after 250 µs of ramping the rails come up and bring-up begins; what the ramp lost now acts. VSET starts at
1.05 V (log 59). -/
def execRampDone (e : EngIx) (s : State) : Answer :=
  let x := (s.eng e).sup
  if s.pwr e ≠ Pw.RAMP ∨ x.ramped + (s.now - x.since) < 250000 then .next s
  else
    let s1 := (s.setPwr e Pw.ON).onSup e fun x => { x with railsAt := s.now, stage := 1 }
    let s2 := (s1.setEngState e (if s.supervisedNow e then 10 else 2)).setFld (Reg.PWR_ENG_VSET e) Fld.PWR_ENG_VSET.VSET 1050
    let s3 := x.late.foldl (fun s m => s.stageOut e m) s2
    .next (s3.phaseOut e).waveCheck

/-- EDGE_UV (R439): a link-domain rail has been below 90 % for 10 µs. -/
def execEdgeUv (s : State) : Answer :=
  if !s.boot.link then .next s
  else .next ((s.setFlag Reg.PWR_FAULT Fld.PWR_FAULT.EDGE_UV true).fault Src.EDGE_UV panelScope 0)

end Sys2Proof.Machine
end

