-- ==== Sys2Proof/Machine/Record.lean ====
section
/-! DEFINITION. What Easel keeps in flash: signatures of the device key, the defect list, the settings record and the entries of the change
record (20_easel R512 to R514, R523, R526 to R530; 17_bringup R450 to R452). -/
namespace Sys2Proof.Machine

/-- Change the flash. -/
def State.onFlash (s : State) (f : Flash → Flash) : State := { s with flash := f s.flash }

/-! ### The device key (R514) -/

/-- Show the next index of the journal. -/
def State.journalShow (s : State) : State :=
  (s.wr (Reg.SEC_SIG_INDEX 0) (s.flash.journal % 2 ^ 32)).wr (Reg.SEC_SIG_INDEX 1) (s.flash.journal / 2 ^ 32 % 256)

/-- Sign a message with the next device-key index: a new block of 256 is entered in the journal before its first index is used; none
when no index remains. -/
def State.devSign (s : State) (msg : List Byte) : State × Option (List Byte) :=
  let i := s.easel.sigNext
  if 2 ^ 40 ≤ i then (s, none)
  else
    let s1 := if i = s.flash.journal then (s.onFlash fun f => { f with journal := i + 256 }).journalShow else s
    ({ s1 with easel := { s1.easel with sigNext := i + 1 } }, some (devSig i msg))

/-! ### The settings record (R523) -/

/-- Show the roles and the keys held. -/
def State.roleShow (s : State) : State :=
  let f := s.flash
  let s1 := ((s.setFlag Reg.SEC_ROLE Fld.SEC_ROLE.OWNER_VALID true).setFld Reg.SEC_ROLE Fld.SEC_ROLE.OWNER_PORT f.owner).setFlag Reg.SEC_ROLE
    Fld.SEC_ROLE.HANDOVER s.easel.handover.isSome
  let s2 := (s1.setFlag Reg.SEC_ROLE Fld.SEC_ROLE.SESSION s.session.isOpen).setFlag Reg.SEC_ROLE Fld.SEC_ROLE.TOKEN_SET f.token.isSome
  let s3 := (s2.setFlag Reg.SEC_KEYS Fld.SEC_KEYS.CHAIN f.chainKey.isSome).setFld Reg.SEC_KEYS Fld.SEC_KEYS.OWNER
    (((List.range 3).filter fun k => (SMap.find? f.ownerKeys (k + 1)).isSome).map (2 ^ ·)).sum
  s3.wr Reg.EZ_MIN_SVN f.minSvn

/-- The settings record as it is signed. -/
def Flash.settingsBytes (f : Flash) : List Byte :=
  leBytes 1 f.owner ++ f.token.getD [] ++ (f.ownerKeys.flatMap fun p => leBytes 1 p.1 ++ p.2) ++ f.chainKey.getD [] ++ leBytes 4 f.minSvn
    ++ leBytes 1 (b2n f.supervise)

/-- A change of the settings record: written, signed with the device key, and shown. -/
def State.settings (s : State) (f : Flash → Flash) : State :=
  let s1 := s.onFlash f
  let (s2, sig) := s1.devSign (shake s1.flash.settingsBytes)
  (s2.onFlash fun f => { f with settingsSig := sig.getD f.settingsSig }).roleShow

/-! ### The defect list (17 R451) -/

/-- The 16 bytes of an entry. -/
def DefectEnt.bytes (x : DefectEnt) : List Byte :=
  leBytes 1 x.d.kind ++ leBytes 1 x.d.engine ++ leBytes 1 x.d.unit ++ leBytes 1 x.d.source ++ leBytes 4 x.d.location ++ leBytes 8 x.time

/-- The defect list whole. -/
def State.defectBytes (s : State) : List Byte :=
  Config.defectHeader s.flash.defects.length ++ s.flash.defects.flatMap DefectEnt.bytes

/-- Put an entry at the end of the list, with its signature and its entry in the change record. -/
def State.defectPut (s : State) (d : Defect) : State :=
  let x : DefectEnt := ⟨d, s.ticks⟩
  let i := s.flash.defects.length
  let s1 := (s.onFlash fun f => { f with defects := f.defects ++ [x] }).setFld Reg.PNL_DEFECT Fld.PNL_DEFECT.ENTRIES (i + 1)
  let (s2, sig) := s1.devSign (shake s1.defectBytes)
  let s3 := (s2.onFlash fun f => { f with defectSig := sig.getD f.defectSig }).captureEvent 6 i (leAt x.bytes 0 8) [] 1
  if d.engine < 48 then s3.onSup d.engine fun u => { u with grown := true } else s3

/-- Append a finding: the last 64 of 262,144 places are kept for ENGINE_OUT. When the general part is full DEFECT_FULL is raised, and a
later defect of an engine becomes ENGINE_OUT (log 63). -/
def State.appendDefect (s : State) (d : Defect) : State :=
  let n := s.flash.defects.length
  if d.kind = 0x13 then (if n < 262144 then s.defectPut d else s)
  else if n < 262080 then s.defectPut d
  else
    let s1 := if s.flag Reg.PNL_DEFECT Fld.PNL_DEFECT.FULL then s
      else (s.setFlag Reg.PNL_DEFECT Fld.PNL_DEFECT.FULL true).fault Src.DEFECT_FULL panelScope 0
    if d.engine < 48 ∧ n < 262144 then s1.defectPut ⟨0x13, d.engine, 0, 0, d.source⟩ else s1

/-- The entries of an engine. -/
def State.defectsOf (s : State) (e : Nat) : List Defect := (s.flash.defects.map (·.d)).filter fun d => d.engine == e

end Sys2Proof.Machine
end

