-- ==== Sys2Proof/Machine/BringUp.lean ====
section
/-! DEFINITION. Bring-up: power-good, the steps of the panel, gesso waves, the bring-up of an engine, and supervised commands
(17_bringup_reset R440 to R455). -/
namespace Sys2Proof.Machine

/-- PNL_BOOT.STATE. -/
def State.bootState (s : State) : Nat := s.fld Reg.PNL_BOOT Fld.PNL_BOOT.STATE

/-- Put PNL_BOOT.STATE. -/
def State.setBoot (s : State) (v : Nat) : State := s.setFld Reg.PNL_BOOT Fld.PNL_BOOT.STATE v

/-- Change the bring-up record. -/
def State.onBoot (s : State) (f : Boot → Boot) : State := { s with boot := f s.boot }

/-- Whether this bring-up is supervised (R453). -/
def State.supervised (s : State) : Bool := s.flag Reg.PNL_BOOT Fld.PNL_BOOT.CLASS

/-- PNL_ENG_STATE.RESULT of an engine. -/
def State.setResult (s : State) (e v : Nat) : State := s.setFld (Reg.PNL_ENG_STATE e) Fld.PNL_ENG_STATE.RESULT v

/-- Whether the mode straps, the tray and the image agree (16 R417, R418). -/
def modeAgrees (strap : Nat) (tray : Bool) (image : Nat) : Bool := image == strap && ((strap == 0 && tray) || (strap == 1 && !tray))

/-! ### Steps 1 to 3 (R442, R443) -/

/-- PWRGD_ACCEPT (R441): PWRGD has stayed asserted for 10 ms; its first acceptance is t0 of power-on. -/
def execPwrgdAccept (s : State) : Answer :=
  if !s.boot.noPwr then .next s
  else
    let s1 := s.setFlag Reg.PNL_INPUT Fld.PNL_INPUT.PWRGD true
    .next (s1.onBoot fun b => { b with noPwr := false, t0 := if b.step = 0 then s.now else b.t0 })

/-- The straps are latched: mode, tray, and the class with the one-time request of SUPERVISE_NEXT (R440, R453; 21 R540). -/
def State.latchStraps (s : State) (mode : Nat) (supervised tray : Bool) : State :=
  let s1 := (s.setFld Reg.PWR_MODE Fld.PWR_MODE.STRAP mode).setFlag Reg.PWR_MODE Fld.PWR_MODE.TRAY tray
  (s1.setFlag Reg.PNL_BOOT Fld.PNL_BOOT.CLASS (supervised || s.flash.supervise)).onFlash fun f => { f with supervise := false }

/-- The thermal-cycle counts are loaded from flash (19 R498, R499). -/
def State.loadCycles (s : State) : State :=
  let s1 := s.flash.cycles.foldl (fun s p => s.wr (Reg.THM_ENG_CYCLE (p.1 / 4) (p.1 % 4)) p.2) s
  s.flash.reversals.foldl (fun s p => s.onEng p.1 fun g => { g with therm := { g.therm with stack := p.2 } }) s1

/-- The next SEQ is shown in LOG_SEQ. -/
def State.seqShow (s : State) : State := (s.wr (Reg.LOG_SEQ 0) (s.flash.seq % 2 ^ 32)).wr (Reg.LOG_SEQ 1) (s.flash.seq / 2 ^ 32)

/-- ALWAYS_ON_UP (R442 step 1). -/
def execAlwaysOnUp (mode : Fin 4) (supervised tray : Bool) (s : State) : Answer :=
  if s.boot.noPwr ∨ s.boot.step ≠ 0 then .next s
  else
    let s1 := ((s.latchStraps mode supervised tray).setBoot 1).loadCycles
    let s2 := (s1.seqShow.journalShow).setFld Reg.PNL_DEFECT Fld.PNL_DEFECT.ENTRIES s1.flash.defects.length
    let s3 := (s2.wr (Reg.SEC_SERIAL 0) (Config.serial.toNat % 2 ^ 32)).wr (Reg.SEC_SERIAL 1) (Config.serial.toNat / 2 ^ 32)
    .next (s3.roleShow.onBoot fun b => { b with step := 1 })

/-- The firmware slot that the boot ROM takes: of the slots that verify and whose SVN is allowed, the one with the higher SVN (20 R510). -/
def Flash.pickSlot (f : Flash) (bad : Nat) : Option Nat :=
  let ok := fun k => match SMap.find? f.slots k with
    | some x => if !bit bad k && decide (f.minSvn ≤ x.svn) then some x.svn else none
    | none => none
  match ok 0, ok 1 with
  | some a, some b => some (if a < b then 1 else 0)
  | some _, none => some 0
  | none, some _ => some 1
  | none, none => none

/-- Firmware runs from slot `k`; unused indices of the block that was open are given up (20 R507, R510, R514). -/
def State.runSlot (s : State) (k : Nat) : State :=
  let x := SMap.getD s.flash.slots k ⟨0, 0, 0, []⟩
  let s1 := (s.setFld Reg.EZ_INFO Fld.EZ_INFO.FW_VERSION (bits x.version 23 16 * 256 + bits x.version 7 0)).wr Reg.EZ_FW_SVN x.svn
  { s1 with easel := { s1.easel with running := true, slot := k, sigNext := s1.flash.journal } }.roleShow

/-- EASEL_BOOT (R442 step 2; 20 R510): `bad` names slots that do not verify, `standby` whether the other die is a verified standby. Without a
usable slot the boot waits for firmware. -/
def execEaselBoot (bad : Fin 4) (standby : Bool) (s : State) : Answer :=
  if s.boot.step ≠ 1 then .next s
  else match s.flash.pickSlot bad with
    | none => .next s
    | some k =>
      let s1 := (s.runSlot k).setFlag Reg.EZ_INFO Fld.EZ_INFO.STANDBY_OK standby
      .next ((s1.setBoot (if s1.supervised then 7 else 2)).onBoot fun b => { b with step := 2 })

/-- The image is in force: its partitions, split, FEID map, and power settings (06 R146; 08 R208; 11 R280; 16 R438). -/
def State.putGround (s : State) (g : Ground) : State :=
  let map := mapWords g.routes
  let s1 : State := { s with
    ground := g
    limit := min 2044 (leAt g.near 0 2)
    edgeFeid := (map.zipIdx).foldl (fun m (p : Nat × Nat) => SMap.set 0 m p.2 p.1) []
    primary := (map.zipIdx).foldl (fun m (p : Nat × Nat) => if bit p.1 6 && decide (p.1 % 64 < 48) then SMap.put m (p.1 % 64) p.2 else m) [] }
  let s2 := s1.setFld Reg.PWR_MODE Fld.PWR_MODE.IMAGE (byteAt g.power 0)
  (List.range 48).foldl (fun s e =>
    (s.setFld (Reg.PWR_ENG_RES e) Fld.PWR_ENG_RES.WATTS (powerRes g.power e)).setFld (Reg.PWR_ENG_VLOGIC e) Fld.PWR_ENG_VLOGIC.STEP
      (powerStep g.power e)) s2

/-- The regulator stages and phases that the defect list names (16 R426, R427). -/
def State.loadRegulators (s : State) : State :=
  (List.range 48).foldl (fun s e =>
    let ds := s.defectsOf e
    let s1 := (List.range 6).foldl (fun s m =>
      let n := (ds.filter fun (d : Defect) => d.kind == 6 && d.unit == m).length
      ({ s with stages := SMap.set 0 s.stages (e * 6 + m) n }).setFld (Reg.PWR_ENG_REG e) (regField m) (min n 31)) s
    let mask := (ds.filter fun (d : Defect) => d.kind == 7).foldl (fun w d => Nat.lor w (2 ^ (d.location % 16))) 0
    let works := ((List.range 16).filter fun i => !bit mask i).length
    ((s1.onSup e fun x => { x with badPhases := mask }).setFld (Reg.PWR_ENG_PHASE e) Fld.PWR_ENG_PHASE.PHASES
      (if s1.mode = 0 then works else 0)).throttleShow e) s

/-- The mode takes effect when straps, tray and image agree; otherwise MODE_MISMATCH (16 R418). -/
def State.checkMode (s : State) : State × Bool :=
  let strap := s.fld Reg.PWR_MODE Fld.PWR_MODE.STRAP
  if modeAgrees strap (s.flag Reg.PWR_MODE Fld.PWR_MODE.TRAY) (byteAt s.ground.power 0) then
    let s1 := (s.setFld Reg.PWR_MODE Fld.PWR_MODE.MODE strap).setFlag Reg.PWR_MODE Fld.PWR_MODE.MISMATCH false
    (s1.wr Reg.PWR_LIMIT (if strap = 0 then 46000 else leAt s.ground.power 4 4), true)
  else
    let s1 := (s.setFld Reg.PWR_MODE Fld.PWR_MODE.MODE 3).setFlag Reg.PWR_MODE Fld.PWR_MODE.MISMATCH true
    ((s1.setFlag Reg.PWR_FAULT Fld.PWR_FAULT.MODE_MISMATCH true).fault Src.MODE_MISMATCH panelScope 0, false)

/-- Step 3 (R442, R443; 20 R512): `bad` names items whose copies both fail: 0 the image in force, 1 the defect list, 2 the settings, 3 the
journal, 4 the replacement, 5 to 8 a site's qualification record, 9 the cycle counts, 10 the telemetry history. A replacement comes into force. -/
def State.groundStep (s : State) (bad : Nat) : State :=
  let s1 := s.onFlash fun f => { f with
    pendingGround := if bit bad 4 then none else f.pendingGround
    quals := f.quals.filter fun p => !bit bad (5 + p.1)
    cycles := if bit bad 9 then [] else f.cycles
    reversals := if bit bad 9 then [] else f.reversals
    history := if bit bad 10 then [] else f.history }
  let s2 := match s1.flash.pendingGround with
    | some g => (s1.onFlash fun f => { f with ground := some g, pendingGround := none }).captureEvent 3 g.imageId 0 g.digest 1
    | none => s1
  match s2.flash.ground with
  | none => s2.setBoot 6
  | some g =>
    if bits bad 3 0 ≠ 0 ∧ (bits bad 3 0 ≠ 1 ∨ s1.flash.pendingGround = none) then s2.setBoot 6
    else
      let (s3, ok) := (s2.putGround g).checkMode
      if ok then ((s3.loadRegulators).setBoot (if s3.supervised then 7 else 3)).onBoot fun b => { b with step := 3 }
      else s3.setBoot 6

/-- GROUND_VERIFY (R442 step 3): by itself, or as the supervised VERIFY. -/
def execGroundVerify (bad : Fin 2048) (s : State) : Answer :=
  if s.boot.step ≠ 2 ∨ s.bootState = 6 ∨ (s.supervised ∧ s.boot.cmd ≠ 1) then .next s
  else
    let s1 := s.groundStep bad
    .next (if s1.boot.cmd = 1 then s1.stepEnd (if s1.boot.step = 3 then 0 else 3) else s1)

/-! ### Steps 4 to 6 (R442, R444 to R446) -/

/-- The results that the ENGINE_OUT entries of an engine hold. -/
def State.outResults (s : State) (e : Nat) : List Nat := ((s.defectsOf e).filter fun (d : Defect) => d.kind == 0x13).map (·.location)

/-- Whether step 5 powers an engine (R445). -/
def State.takesUp (s : State) (e : Nat) : Bool :=
  (s.partOf e).isSome && s.pwr e != Pw.LATCHED && (s.outResults e).all (· == 4)

/-- What an engine shows that step 5 does not power (R446). -/
def State.leftOut (s : State) (e : Nat) : State :=
  if (s.partOf e).isNone then s.setEngState e 9
  else if s.pwr e = Pw.LATCHED then (s.setEngState e 0).setResult e 8
  else (s.setEngState e 8).setResult e (((s.outResults e).filter (· != 4)).headD 7)

/-- What keeps the edge down: no accepted PWRGD or MATE_N, MRST_N held, a full reset not yet applied, or a thermal shutdown whose coolant has not
been good for 10 s (R441, R463; 19 R497; 21 R546). -/
def State.edgeBarred (s : State) : Bool :=
  let hot := s.flag Reg.THM_STAT Fld.THM_STAT.SHUTDOWN
  let cool := match s.flow.okSince with
    | some t => decide (t + 10000000000 ≤ s.now)
    | none => false
  s.boot.noPwr || !s.flag Reg.PNL_PHYS Fld.PNL_PHYS.MATE || s.boot.mrstAt.isSome || s.boot.fullAt.isSome || (hot && !cool)

/-- The edge comes up: link domain, ring and link and host-port dies, and the guests that qualify (R442 step 4; 15 R408, R410). -/
def State.edgeOn (s : State) : State :=
  let wasOn := s.boot.link
  let s1 := (s.onBoot fun b => { b with link := true, step := 4, wave := 0, waveAt := none, taken := [] }).setFlag
    Reg.THM_STAT Fld.THM_STAT.SHUTDOWN false
  let s2 := if wasOn then s1 else { s1 with annUp := s1.annUp ++ (List.range' 48 10), input := { throttleAt := s.now } }
  let s3 := (List.range 4).foldl (fun s g =>
    let s0 := if s.guestFlag g Fld.SK_GUEST_STAT.POWERED ∧ !s.guestHeld.contains g then s.guestStep g fun s => s.guestRst g false else s
    s0.guestOn g) s2
  (List.range 8).foldl (fun s p =>
    if (s.link p).present && s.linkState p == 0 then (s.setLinkState p 1).onLink p fun l => { l with heldAt := s.now } else s) s3

/-- EDGE_UP (R442 step 4): `clear` tells whether the input conditions that powered the link domain down have cleared (R463). -/
def execEdgeUp (clear : Bool) (s : State) : Answer :=
  if s.boot.step ≠ 3 ∨ s.mode = 3 ∨ s.edgeBarred ∨ !clear ∨ (s.supervised ∧ s.boot.cmd ≠ 2) then .next s
  else
    let s1 := s.edgeOn
    let all := List.range 48
    if s.supervised then .next ((s1.setBoot 7).stepEnd 0)
    else
      let s2 := (all.filter fun e => !s1.takesUp e).foldl State.leftOut (s1.setBoot 4)
      .next (s2.onBoot fun b => { b with todo := all.filter s1.takesUp })

/-- The engines of a wave: the lowest-numbered, then each next whose column is free, up to six (R445). -/
def pickWave : List Nat → List Nat → List Nat
  | taken, [] => taken
  | taken, e :: l => if 6 ≤ taken.length then taken
    else pickWave (if taken.any fun x => x % 8 == e % 8 then taken else taken ++ [e]) l

/-- One engine of a wave requests its reservation; a refusal leaves it off with NO_BUDGET (R446). -/
def State.waveOn (s : State) (wave e : Nat) : State :=
  let s1 := (s.requestOn e).setFld (Reg.PNL_ENG_STATE e) Fld.PNL_ENG_STATE.WAVE (min wave 15)
  if s1.pwr e = Pw.WAIT then s1.onSup e fun x => { x with hubOnly := (s.outResults e).contains 4 }
  else (s1.setEngState e 0).setResult e 1

/-- GESSO_WAVE (R445): the next wave, 1 ms after the last ramp of the wave before it. -/
def execGessoWave (s : State) : Answer :=
  let due : Bool := s.boot.wave == 0 || (match s.boot.waveAt with
    | some t => decide (t + 1000000 ≤ s.now)
    | none => false)
  if s.boot.todo = [] ∨ !due ∨ s.boot.mrstAt.isSome then .next s
  else
    let w := pickWave [] s.boot.todo
    let n := s.boot.wave + 1
    let s1 := s.onBoot fun b => { b with todo := b.todo.filter fun e => !w.contains e, taken := w, wave := n, waveAt := none }
    .next (w.foldl (fun s e => s.waveOn n e) s1).waveCheck

/-- PANEL_READY (R444): every engine that step 5 took up is in service, out of service or off. -/
def State.settled (s : State) : Bool :=
  s.boot.todo == [] && (List.range 48).all fun e => [0, 5, 6, 7, 8, 9].contains (s.engState e)

/-- The panel shows READY, with the time since t0. -/
def State.showReady (s : State) : State :=
  ((s.setBoot 5).setFld Reg.PNL_BOOT Fld.PNL_BOOT.TIME_MS (min 65535 ((s.now - s.boot.t0) / 1000000))).onBoot fun b => { b with step := 6 }

/-- PANEL_READY (R442 step 6, R444). -/
def execPanelReady (s : State) : Answer :=
  if s.bootState ≠ 4 ∨ !s.settled then .next s else .next s.showReady

/-! ### Engine bring-up (R447 to R449) -/

/-- An engine completes stage `n`: it goes on to PNL state `next`, or holds for the next supervised command. -/
def State.stageDone (s : State) (e n next : Nat) : State :=
  let s1 := s.onSup e fun x => { x with stage := n }
  if s.supervisedNow e then (s1.setEngState e 10).stepCheck else s1.setEngState e next

/-- ENG_CLOCK_LOCK (R447 step a): within 1 ms of the ramp. -/
def execEngClockLock (e : EngIx) (s : State) : Answer :=
  let x := (s.eng e).sup
  if s.engState e ≠ 2 ∨ s.pwr e ≠ Pw.ON ∨ (!s.supervisedNow e ∧ x.railsAt + 1000000 < s.now) then .next s
  else
    let s1 := s.onEng e fun g => { g with count := s.master, clk := { locked := true, edgeAt := s.now } }
    .next (((s1.setRef e 0).clockShow e).stageDone e 2 3)

/-- NO_LOCK (R447, R448): no lock within 1 ms of the ramp; the engine is switched off with RESULT 3. -/
def execNoLock (e : EngIx) (s : State) : Answer :=
  if s.engState e ≠ 2 ∨ s.pwr e ≠ Pw.ON ∨ (!s.supervisedNow e ∧ s.now < (s.eng e).sup.railsAt + 1000000) then .next s
  else .next ((s.switchOff e).setResult e 3)

/-- Whether a mesh or torus link of an engine exists: the mesh has no wrap links. -/
def netLinkExists (e n : Nat) : Bool := decide (n < 4) || !wraps e (n % 4)

/-- Whether an engine's router is up: powered, and locked. -/
def State.routerUp (s : State) (e : Nat) : Bool := s.pwr e == Pw.ON && (s.eng e).clk.locked

/-- One end of a link as it trains: up, degraded or down by its lane groups and what the defect list names (11 R277). -/
def State.netLinkUp (s : State) (e n : Nat) : State :=
  let a := Reg.NET_LINK e n
  if 4 ≤ n then s.wr a (1 * 2 ^ 8 + 2 * 4 + 1)
  else
    let k := ((s.defectsOf e).filter fun (d : Defect) => d.kind == 5 && d.unit == n).length
    let g := 8 - (k - 1)
    let st := if g = 8 then 2 else if 4 ≤ g then 3 else 4
    s.wr a (g * 2 ^ 8 + b2n (decide (1 ≤ k)) * 2 ^ 7 + st * 4 + 1)

/-- The links of an engine train towards every neighbour that is up, at both ends; `ok` tells which of them train (R447). -/
def State.netTrain (s : State) (e ok : Nat) : State :=
  (List.range 8).foldl (fun s n =>
    if !netLinkExists e n then s.wr (Reg.NET_LINK e n) 0
    else
      let x := neighbour e (n % 4)
      if bit ok n && s.routerUp x then (s.netLinkUp e n).netLinkUp x ((n + 2) % 4 + n / 4 * 4)
      else s.wr (Reg.NET_LINK e n) (1 * 4 + 1)) s

/-- Whether a finding may stand in the list: the kinds that training and test make (R450, R451). -/
def findingOk (f : Finding) : Bool := decide (1 ≤ f.kind.val ∧ f.kind.val ≤ 8 ∧ f.kind.val ≠ 4)

/-- ENG_TRAIN_TEST (R447 step b, R450): training and the start-up test end with the stacks that are ready, the links that train, and the
findings. A Sekaen port that has not come up takes its die out. Under supervision TRAIN and TEST end with one each. -/
def execEngTrainTest (e : EngIx) (trained : Fin 4) (links : Fin 256) (findings : List Finding) (s : State) : Answer :=
  if s.engState e ≠ 3 then .next s
  else
    let test := s.boot.cmd == 0x13
    let s1 := findings.foldl (fun (s : State) f =>
      if findingOk f then s.finding e ⟨f.kind, e, f.unit, f.location.toNat, 1⟩ else s) s
    let s2 := if test then s1 else s1.netTrain e links
    let s3 := if test ∨ (s2.eng e).sup.hubOnly then s2 else (List.finRange 14).foldl (fun (s : State) (n : Fin 14) =>
      if s.fld (Reg.SK_PORT e n) Fld.SK_PORT.STATE = 1 then s else s.skOut (.die e n) false) s2
    let s4 := s3.onSup e fun x => { x with stks := if test then x.stks &&& trained.val else trained.val, links := links }
    .next (s4.stageDone e (if s.supervisedNow e ∧ !test then 3 else 4) 4)

/-! ### Step c: the defect update -/

/-- The bad physical cells of a position: listed cells, and those whose array needs a ninth spare row (07 R190; the index is row * 32 + column, log 64). -/
def badOf (ds : List Defect) (m : Nat) : List (Nat × Nat) :=
  let own := (ds.filter fun (d : Defect) => d.kind == 1 && d.unit == m).map fun (d : Defect) => (d.location % 32, d.location / 32 % 32)
  let rows := (ds.filter fun (d : Defect) => d.kind == 2 && d.unit == m).map fun (d : Defect) => bits d.location 20 8
  let cells := (rows.filter fun k => decide (8 < rows.count k)).map fun k => (k / 8 % 32, k / 8 / 32)
  (own ++ cells).eraseDups

/-- The hub arrays that need replacing: listed ones, and those that need a ninth spare row (07 R190). -/
def hubArrays (ds : List Defect) : List Nat :=
  let rows := (ds.filter fun (d : Defect) => d.kind == 2 && d.unit == 5).map fun (d : Defect) => bits d.location 21 8
  (((ds.filter fun (d : Defect) => d.kind == 3).map fun (d : Defect) => d.location % 2 ^ 14) ++ rows.filter fun k => decide (8 < rows.count k)).eraseDups

/-- Rows mapped out in the hub and in the dies in use: at most 8 per array. -/
def rowsMapped (ds : List Defect) (used : List Nat) : Nat :=
  let rows := (ds.filter fun (d : Defect) => d.kind == 2 && (d.unit == 5 || used.contains d.unit)).map fun (d : Defect) => (d.unit, bits d.location 21 8)
  ((rows.eraseDups).map fun k => min 8 (rows.count k)).sum

/-- The positions marked out by the list. -/
def diesOut (ds : List Defect) : List Nat := (ds.filter fun (d : Defect) => d.kind == 0x10).map (·.unit)

/-- The position of each logical index before this bring-up's changes: factory order over the positions not out at the factory, then the
assignments recorded (04 R80). -/
def dieOrder (ds : List Defect) : List Nat :=
  let fac := (ds.filter fun (d : Defect) => d.kind == 0x10 && d.source == 0).map (·.unit)
  let base := ((List.range 5).filter fun m => !fac.contains m).take 4
  (ds.filter fun (d : Defect) => d.kind == 0x11).foldl (fun l d => l.set (d.location % 4) d.unit) base

/-- Whether a position may serve: not out, fewer than seven stages lost, at least 864 good cells (04 R82; 16 R426). -/
def State.dieFit (s : State) (e : Nat) (ds : List Defect) (m : Nat) : Bool :=
  decide (m < 5) && !(diesOut ds).contains m && decide (s.stagesLost e m < 7 ∧ 864 + (badOf ds m).length ≤ 896)

/-- Give logical index `l` a fit position: its own, or the lowest fit one that holds none; the die that goes out and the assignment are
listed (04 R80, R82). -/
def State.assignDie (s : State) (e : Nat) (order : List Nat) (l : Nat) : State × List Nat :=
  let ds := s.defectsOf e
  match order[l]? with
  | none => (s, order)
  | some m =>
    if s.dieFit e ds m then (s, order)
    else
      let s1 := if (diesOut ds).contains m then s else s.appendDefect ⟨0x10, e, m, 0, 1⟩
      match (List.range 5).find? fun p => s1.dieFit e (s1.defectsOf e) p && !order.contains p with
      | none => (s1, order)
      | some p => (s1.appendDefect ⟨0x11, e, p, l, 1⟩, order.set l p)

/-- The first failure of an engine that keeps it out of service, or 0 (R448). -/
def State.bringResult (s : State) (e : Nat) (order : List Nat) : Nat :=
  let ds := s.defectsOf e
  let x := (s.eng e).sup
  let dies := order.length = 4 ∧ order.all (s.dieFit e ds) ∧ !x.hubOnly
  if !dies then 4
  else if x.stks ≠ 3 ∨ (ds.any fun (d : Defect) => d.kind == 0x12) then 5
  else if 64 < (hubArrays ds).length then 6
  else if 7 ≤ s.stagesLost e 5 ∨ (s.mode = 0 ∧ s.phases e < 12) then 7
  else 0

/-- The die assignment and mapping are put in CEL_DIE_INFO and in force. -/
def State.putDies (s : State) (e : Nat) (order : List Nat) : State :=
  let ds := s.defectsOf e
  (List.range 5).foldl (fun s m =>
    let bad := badOf ds m
    let l := match order.idxOf? m with
      | some i => if s.dieFit e ds m then i else 6
      | none => if s.dieFit e ds m then 7 else 6
    let w := min 63 (borrowed bad).length * 2 ^ 16 + (896 - bad.length) * 2 ^ 6 + l * 8 + m
    (s.wr (Reg.CEL_DIE_INFO e m) w).onEng e fun g => { g with bad := SMap.set [] g.bad m bad }) s

/-- ENG_DEFECT_UPDATE (R447 step c): the findings are listed; dies, cells, rows and limits follow from the list. A replaced array, a stack that
failed, and causes 4 to 7 are listed too (R448). -/
def execEngDefectUpdate (e : EngIx) (s : State) : Answer :=
  let x := (s.eng e).sup
  if s.engState e ≠ 4 ∨ 5 ≤ x.stage then .next s
  else
    let fresh := x.findings.filter fun d => !s.listed d.kind d.engine d.unit d.location
    let s1 := fresh.foldl State.appendDefect s
    let s2 := if fresh.any fun d => d.kind == 6 || d.kind == 7 then (s1.regLoss e).loadRegulators else s1
    let arrays := (hubArrays (s2.defectsOf e)).filter fun k => !s2.listed 3 e 5 k
    let s3 := arrays.foldl (fun (s : State) k => s.appendDefect ⟨3, e, 5, k, 1⟩) s2
    let (s4, order) : State × List Nat := if x.hubOnly then (s3, dieOrder (s3.defectsOf e))
      else [0, 1, 2, 3].foldl (fun (p : State × List Nat) l => p.1.assignDie e p.2 l) (s3, dieOrder (s3.defectsOf e))
    let res := s4.bringResult e order
    let s5 := if res ≠ 5 then s4 else (List.range 2).foldl (fun (s : State) t =>
      if bit x.stks t ∨ s.listed 0x12 e (6 + t) 0 then s else s.appendDefect ⟨0x12, e, 6 + t, 0, 1⟩) s4
    let s6 := if res < 4 ∨ (s5.outResults e).contains res then s5 else s5.appendDefect ⟨0x13, e, 0, res, 1⟩
    let ds := s6.defectsOf e
    let s7 := (s6.putDies e order).wr (Reg.ENG_SPM_SPARE e) (min 64 (hubArrays ds).length * 65536 + min 65535 (rowsMapped ds order))
    let spare := ((List.range 5).find? fun m => s7.dieFit e ds m && !order.contains m).getD 7
    let s8 := ((s7.setFld (Reg.PNL_ENG_STATE e) Fld.PNL_ENG_STATE.SPARE spare).setResult e res).throttleShow e
    .next (s8.stageDone e 5 4)

/-! ### Step d -/

/-- The ports of a die in use, as FAB_XING shows them: present by logical index, through the hub when the neighbour does not stand beside it or
the port is down (05 R128, R136). -/
def State.putXing (s : State) (e : Nat) : State :=
  (List.range 5).foldl (fun s m =>
    match s.dieAt e m with
    | none => s
    | some d =>
      let width := fun n => s.fld (Reg.SK_PORT e n) Fld.SK_PORT.WIDTH
      [0, 1, 2, 3].foldl (fun s p =>
        if !portExists d p then s.wr (Reg.FAB_XING e m p) 0
        else if 2 ≤ p then s.wr (Reg.FAB_XING e m p) (26 * 256 + width (2 * m + (p - 2)) * 4 + 1)
        else
          let x := s.posOf e (if p = 0 then d - 1 else d + 1)
          let n := 10 + min x m
          let hub := decide (colDist x m ≠ 1) || width n == 4
          s.wr (Reg.FAB_XING e m p) (26 * 256 + (if hub then 0 else width n) * 4 + b2n hub * 2 + 1)) s) s

/-- The hub and the stacks of an engine are in service: they serve the spread view, and show what the ground image gives them. -/
def State.hubServe (s : State) (e : Nat) : State :=
  let part := (s.partId e).getD 0
  let s1 := s.wr (Reg.ENG_HUB_INFO e) (part * 2 ^ 20 + 3 * 2 ^ 18 + e)
  let s2 := [0, 1].foldl (fun s t => s.setFld (Reg.MC_STACK e t) Fld.MC_STACK.STATE 2) s1
  let s3 := (s2.wr (Reg.ENG_NEAR_LIMIT e) s.limit).wr (Reg.ENG_SPREAD_SIZE e) (3 * (2044 - s.limit))
  let s4 := s3.wr (Reg.NET_ID e) (s.panelNo * 65536 + b2n (edgeEngine e) * 256 + byteAt s.ground.routes 2 % 16 * 16)
  let off := leAt s.ground.bankOff (4 * e) 2
  let s5 := s4.onEng e fun g => { g with spmOff := off, cellOff := byteAt s.ground.bankOff (4 * e + 2) }
  (List.range 16).foldl (fun s b => if bit off b then s.wr (Reg.ENG_SPM_POWER e) (putBits (s.rdN (Reg.ENG_SPM_POWER e)) (2 * b + 1) (2 * b) 2)
    else s) s5

/-- The duration of a bring-up in ms. -/
def State.showTime (s : State) (e : Nat) : State :=
  s.setFld (Reg.PNL_ENG_STATE e) Fld.PNL_ENG_STATE.TIME_MS (min 65535 ((s.now - (s.eng e).sup.from') / 1000000))

/-- An engine is in service with STATE EMPTY, and announces itself up; one whose FEIDs have been adopted stays out until the next full reset
(R447 step d, R464). -/
def State.inService (s : State) (e : Nat) : State :=
  if s.holder e ≠ e then s.setEngState e 8
  else
    let s1 := (s.setEngState e 5).onEng e fun g => { g with up := true }
    { s1 with annUp := s1.annUp ++ [e] }

/-- ENG_ENTER_SERVICE (R447 step d, R448): service, or the outcome of the RESULT: 4 keeps hub and stacks for the spread view, others are switched
off. -/
def execEngEnterService (e : EngIx) (s : State) : Answer :=
  let x := (s.eng e).sup
  if s.engState e ≠ 4 ∨ x.stage ≠ 5 then .next s
  else
    let s1 := (s.showTime e).onSup e fun x => { x with grown := false, findings := [], stage := 6 }
    match s.fld (Reg.PNL_ENG_STATE e) Fld.PNL_ENG_STATE.RESULT with
    | 0 => .next (((s1.hubServe e).putXing e).inService e).stepCheck
    | 4 => .next ((s1.hubServe e).setEngState e 8).stepCheck
    | r => .next (((s1.switchOff e).setEngState e 8).setResult e r).stepCheck

/-! ### Supervised commands (R453 to R455) -/

/-- The engines that EZ_STEP_ENG names. -/
def State.stepEngines (s : State) : List Nat :=
  (List.range 48).filter fun e => bit (s.rdN (Reg.EZ_STEP_ENG (e / 32))) (e % 32)

/-- Whether every earlier step that a command needs has completed. -/
def State.stepOrder (s : State) (cmd : Nat) : Bool :=
  let engs := s.stepEngines
  let st := fun e => (s.eng e).sup.stage
  let held := fun e n => s.engState e == 10 && st e == n
  match cmd with
  | 0x01 => s.boot.step == 2 && s.bootState != 6
  | 0x02 => s.boot.step == 3
  | 0x10 => decide (4 ≤ s.boot.step) && engs.all fun e => s.pwr e == Pw.OFF && s.takesUp e
  | 0x11 => engs.all fun e => held e 1
  | 0x12 => engs.all fun e => held e 2
  | 0x13 => engs.all fun e => held e 3
  | 0x14 => engs.all fun e => held e 4
  | 0x15 => engs.all fun e => held e 5
  | 0x1F => decide (4 ≤ s.boot.step)
  | 0x20 => decide (4 ≤ s.boot.step) && s.bootState == 7
  | _ => false

/-- Begin a command whose order is met: engine commands put their engines in the state of their step; OFF and READY are done at once; the
others end with their events. -/
def State.stepBegin (s : State) (cmd : Nat) : State :=
  let engs := s.stepEngines
  let s1 := (s.setFlag Reg.EZ_STEP_STAT Fld.EZ_STEP_STAT.BUSY true).onBoot fun b => { b with cmd := cmd, cmdEngs := engs }
  let all := fun n => (engs.foldl (fun s e => s.setEngState e n) s1).stepCheck
  match cmd with
  | 0x01 => s1.setBoot 2
  | 0x02 => s1.setBoot 3
  | 0x10 => (s1.onBoot fun b => { b with todo := engs, taken := [], wave := 0, waveAt := none }).stepCheck
  | 0x11 => all 2
  | 0x12 => all 3
  | 0x13 => all 3
  | 0x14 => all 4
  | 0x15 => all 4
  | 0x1F => (engs.foldl State.switchOff s1).stepEnd 0
  | _ => s1.showReady.stepEnd 0

/-- A write of EZ_STEP (R453 to R455): one while BUSY is discarded; before step 4 only the service role is heard; without supervision no
command is in order (log 65). -/
def State.opEzStep (s : State) (r : Req) (cmd : Nat) : State :=
  if s.flag Reg.EZ_STEP_STAT Fld.EZ_STEP_STAT.BUSY then s
  else
    let s1 := s.setFld Reg.EZ_STEP_STAT Fld.EZ_STEP_STAT.STEP cmd
    let code := fun c => s1.setFld Reg.EZ_STEP_STAT Fld.EZ_STEP_STAT.CODE c
    let host := match r with
      | .host _ _ => true
      | _ => false
    if host && decide (s.boot.step < 4) then code 2
    else if !s.supervised || !s1.stepOrder cmd then code 1
    else (code 0).stepBegin cmd

/-- A requester's write of a command to EZ_STEP. -/
def State.stepWrite (s : State) (r : Req) (cmd : Nat) : State := s.gated r Reg.EZ_STEP cmd fun s => s.opEzStep r cmd

/-- VERIFY (R454). -/
def execVerify (r : Req) (s : State) : Answer := .next (s.stepWrite r 0x01)
/-- EDGE (R454). -/
def execEdge (r : Req) (s : State) : Answer := .next (s.stepWrite r 0x02)
/-- POWER (R454). -/
def execPower (r : Req) (s : State) : Answer := .next (s.stepWrite r 0x10)
/-- CLOCK (R454). -/
def execClock (r : Req) (s : State) : Answer := .next (s.stepWrite r 0x11)
/-- TRAIN (R454). -/
def execTrain (r : Req) (s : State) : Answer := .next (s.stepWrite r 0x12)
/-- TEST (R454). -/
def execTest (r : Req) (s : State) : Answer := .next (s.stepWrite r 0x13)
/-- DEFECTS (R454). -/
def execDefects (r : Req) (s : State) : Answer := .next (s.stepWrite r 0x14)
/-- SERVICE (R454). -/
def execService (r : Req) (s : State) : Answer := .next (s.stepWrite r 0x15)
/-- STEP_OFF (R454). -/
def execStepOff (r : Req) (s : State) : Answer := .next (s.stepWrite r 0x1F)
/-- READY (R454). -/
def execReady (r : Req) (s : State) : Answer := .next (s.stepWrite r 0x20)

end Sys2Proof.Machine
end

