-- ==== Sys2Proof/Machine/Scratchpad.lean ====
section
/-! DEFINITION. The commands of the scratchpads: bank power, zero-fill, remote accesses, write-backs and the counters of the
engine (07_scratchpads R180 to R198). -/
namespace Sys2Proof.Machine

/-- The scratchpad that a selector names. -/
def spSel (e : EngIx) : SpSel → SpRef
  | .hub => .hub e
  | .cell d c => .cell e d c

/-- ENG_SPM_STATUS shows which banks change state and which are being filled (R181, R187). -/
def State.spmShow (s : State) (e : Nat) : State :=
  let g := s.eng e
  let mask := fun (f : Nat → Bool) => ((List.range 16).map fun b => if f b then 2 ^ b else 0).sum
  let p := mask fun b => (SMap.find? g.spmMoves b).isSome
  let z := mask fun b => g.zeroing.contains b || g.zeroWait.contains b
  s.wr (Reg.ENG_SPM_STATUS e) (z * 2 ^ 16 + p)

/-- Start a change of an engine bank that is not in transition. A bank leaves its zero-fill, and what the fill had begun is
undefined (log 26). An OFF bank asked to RETAIN stays OFF (R181). -/
def State.spmMove (s : State) (e b c : Nat) : State :=
  let cur := SMap.getD (s.eng e).spmBanks b 0
  if c = cur ∨ (cur = 2 ∧ c = 1) then s
  else s.onEng e fun g =>
    let filling := g.zeroing.contains b || g.zeroWait.contains b
    { g with
      spmMoves := SMap.put g.spmMoves b { target := c }
      zeroing := g.zeroing.filter (· != b), zeroWait := g.zeroWait.filter (· != b)
      spm := if filling then g.spm.loseBank 0x1000000 b else g.spm }

/-- A request for the state of one engine bank (R181, R198): a bank in transition holds the latest request; code 3 and a bank
held OFF are left as they are. -/
def State.spmAsk (s : State) (e b c : Nat) : State :=
  let a := Reg.ENG_SPM_POWER e
  if bit (s.eng e).spmOff b then s.wr a (putBits (s.rdN a) (2 * b + 1) (2 * b) 2)
  else if c = 3 then s
  else
    let s1 := s.wr a (putBits (s.rdN a) (2 * b + 1) (2 * b) c)
    match SMap.find? (s1.eng e).spmMoves b with
    | some m => s1.onEng e fun g => { g with spmMoves := SMap.put g.spmMoves b { m with held := some c } }
    | none => s1.spmMove e b c

/-- Waiting banks start to be filled, lowest first, while fewer than four are (R187). -/
def State.spmFillNext (s : State) (e : Nat) : State :=
  (List.range 16).foldl (fun s b =>
    let g := s.eng e
    if g.zeroWait.contains b && decide (g.zeroing.length < 4) then
      s.onEng e fun g => { g with zeroing := g.zeroing ++ [b], zeroWait := g.zeroWait.filter (· != b) }
    else s) s

/-- A write of ENG_SPM_POWER. -/
def State.opSpmPower (s : State) (e v : Nat) : State :=
  (((List.range 16).foldl (fun s b => s.spmAsk e b (bits v (2 * b + 1) (2 * b))) s).spmFillNext e).spmShow e

/-- A write of ENG_SPM_ZERO: a bank that is not ON is ignored (R187). -/
def State.opSpmZero (s : State) (e v : Nat) : State :=
  let s1 := (List.range 16).foldl (fun s b =>
    let g := s.eng e
    if bit v b && s.bankState (.hub e) b == 0 && (SMap.find? g.spmMoves b).isNone
        && !g.zeroing.contains b && !g.zeroWait.contains b then
      s.onEng e fun g => { g with zeroWait := g.zeroWait ++ [b] }
    else s) s
  (s1.spmFillNext e).spmShow e

/-- A write of ENG_SPM_CTRL (R198). -/
def State.opSpmCtrl (s : State) (e v : Nat) : State :=
  let s1 := s.plainWrite (Reg.ENG_SPM_CTRL e) v
  if bit v 0 then s1.rstReg (Reg.ENG_SPM_ERR e) else s1

/-- A write of ENG_ACNT_SETI (R193, R198). -/
def State.opAcntSeti (s : State) (e v : Nat) : State := s.wr (Reg.ENG_ACNT e (v % 256)) (s.rdN (Reg.ENG_ACNT_SETV e))

/-- SPM_POWER_REQUEST (R180, R181, R183). -/
def execSpmPowerRequest (r : Req) (e : EngIx) (v : Word) (s : State) : Answer :=
  .next (s.gated r (Reg.ENG_SPM_POWER e) v.toNat fun s => s.opSpmPower e v.toNat)

/-- SPM_POWER_DONE (R181): a bank's transition completes and its held request starts. -/
def execSpmPowerDone (e : EngIx) (b : Fin 16) (s : State) : Answer :=
  match SMap.find? (s.eng e).spmMoves b with
  | none => .next s
  | some m =>
    let s1 := s.onEng e fun g => { g with
      spmMoves := SMap.erase g.spmMoves b
      spmBanks := SMap.set 0 g.spmBanks b m.target
      spm := if m.target = 2 then g.spm.loseBank 0x1000000 b else g.spm }
    let s2 := match m.held with
      | some c => s1.spmMove e b c
      | none => s1
    .next (s2.spmShow e)

/-- SPM_ZERO_START (R187). -/
def execSpmZeroStart (r : Req) (e : EngIx) (v : Word) (s : State) : Answer :=
  .next (s.gated r (Reg.ENG_SPM_ZERO e) v.toNat fun s => s.opSpmZero e v.toNat)

/-- SPM_ZERO_DONE (R186, R187): the zero-fill of a bank completes and the next waiting bank starts. -/
def execSpmZeroDone (e : EngIx) (b : Fin 16) (s : State) : Answer :=
  if !(s.eng e).zeroing.contains b.val then .next s
  else
    let s1 := s.onEng e fun g => { g with
      zeroing := g.zeroing.filter (· != b.val), spm := g.spm.zeroBank 0x1000000 b }
    .next ((s1.spmFillNext e).spmShow e)

/-- REMOTE_WRITE (R191, R192): a remote write arrives at a scratchpad; its requester receives the completion. -/
def execRemoteWrite (e : EngIx) (sp : SpSel) (a : Fin 0x10000000) (counter : Fin 256) (data : List Byte)
    (s : State) : Answer :=
  if s.posDown e then .next (s.emit (.hubDone e St.TARGET_RESET []))
  else
    let (s1, st) := s.remoteWrite (spSel e sp) a data (some counter.val)
    .next (s1.emit (.hubDone e st []))

/-- REMOTE_READ (R189, R191): a remote read of `n` bytes for the step of engine `by'`, if an engine asks. -/
def execRemoteRead (e : EngIx) (sp : SpSel) (a : Fin 0x10000000) (n : Fin 8192) (by' : Option EngIx)
    (s : State) : Answer :=
  if s.posDown e then .next (s.emit (.hubDone e St.TARGET_RESET []))
  else
    let (s1, st, bs) := s.remoteRead (spSel e sp) a n (by'.map (·.val))
    .next (s1.emit (.hubDone e st bs))

/-- CORRECTED_WRITEBACK (R189): bank `b` writes back the oldest corrected word it holds; it remembers the last four. -/
def execCorrectedWriteback (e : EngIx) (sp : SpSel) (b : Fin 16) (s : State) : Answer :=
  let r := spSel e sp
  let x := s.sp r
  if !s.flag (Reg.ENG_SPM_CTRL e) Fld.ENG_SPM_CTRL.WB_EN then .next s
  else match x.wb.find? fun w => w * 8 / r.bankBytes == b.val with
    | none => .next s
    | some w =>
      let y := { x with wb := x.wb.filter (· != w) }
      if y.stAt r.bankBytes w = .ce then
        let last := SMap.getD y.wroteBack b []
        .next (s.setSp r { y with
          st := SMap.set (y.default (w * 8 / r.bankBytes)) y.st w .good
          wroteBack := SMap.put y.wroteBack b ((last ++ [w]).drop ((last ++ [w]).length - 4)) })
      else .next (s.setSp r y)

/-- CE_CLR (R198): both counts of ENG_SPM_ERR are cleared. -/
def execCeClr (r : Req) (e : EngIx) (v : Word) (s : State) : Answer :=
  .next (s.gated r (Reg.ENG_SPM_CTRL e) v.toNat fun s => s.opSpmCtrl e v.toNat)

/-- ACNT_SETI (R193, R198): an engine arrival counter is set to ENG_ACNT_SETV.VALUE. -/
def execAcntSeti (r : Req) (e : EngIx) (v : Word) (s : State) : Answer :=
  .next (s.gated r (Reg.ENG_ACNT_SETI e) v.toNat fun s => s.opAcntSeti e v.toNat)

end Sys2Proof.Machine
end

