-- ==== Sys2Proof/Machine/Reset.lean ====
section
/-! DEFINITION. Resets: cell, die, engine, partition, compute and full, and the inputs that start a full reset (17_bringup_reset
R441, R456 to R466). -/
namespace Sys2Proof.Machine

/-! ### What a reset does to an engine (R461, R464, R465) -/

/-- Announce an engine down: it no longer comes up by an earlier announcement (11 R286). -/
def State.announceDown (s : State) (e : Nat) : State :=
  { s with annDown := if s.annDown.contains e then s.annDown else s.annDown ++ [e], annUp := s.annUp.erase e }

/-- Whether an engine takes an engine reset: it is in service, or contained with its hub powered and no defect-list entry gained since its
last bring-up (R464). -/
def State.resettable (s : State) (e : Nat) : Bool :=
  s.engState e == 5 || (s.engState e == 7 && s.pwr e == Pw.ON && !(s.eng e).sup.grown)

/-- The t0 of an engine reset: cells and queues stop, STATE becomes EMPTY with CODE 0, the engine announces itself down, its collectives
abort, and it is disarmed with every engine it covers (R461, R465). -/
def State.engHold (s : State) (e : Nat) : State :=
  let s1 := (s.disarmAll e none).disarm e 7
  let s2 := (s1.dropCanvas e).setFld (Reg.ENG_CANVAS_STATUS e) Fld.ENG_CANVAS_STATUS.CODE 0
  let s3 := (s2.setCvState e Cv.EMPTY).setEngState e 6
  let s4 := s3.onEng e fun g => { g with
    up := false, contained := false, sup := { g.sup with resetAt := some s.now, mcDone := false } }
  (s4.announceDown e).collsLose [e]

/-- The scope of the reset in progress, or 0. -/
def State.resetScope (s : State) : Nat :=
  if s.flag Reg.PNL_RESET_STAT Fld.PNL_RESET_STAT.BUSY then s.fld Reg.PNL_RESET_STAT Fld.PNL_RESET_STAT.SCOPE else 0

/-- Show a reset in progress, at the widest of the scopes asked for. -/
def State.resetBusy (s : State) (scope : Nat) : State :=
  (s.setFld Reg.PNL_RESET_STAT Fld.PNL_RESET_STAT.SCOPE (max s.resetScope scope)).setFlag Reg.PNL_RESET_STAT Fld.PNL_RESET_STAT.BUSY true

/-- No reset is in progress any longer. -/
def State.resetIdle (s : State) : State :=
  (s.setFld Reg.PNL_RESET_STAT Fld.PNL_RESET_STAT.SCOPE 0).setFlag Reg.PNL_RESET_STAT Fld.PNL_RESET_STAT.BUSY false

/-- Whether an engine is held in a reset. -/
def State.inReset (s : State) (e : Nat) : Bool := (s.eng e).sup.resetAt.isSome

/-- The t0 of a full reset (R463; 14 R381, R382, R396): the panel abort line, every engine stops, PAIR_FAIL and RESET_NOTICE go out, host
ports reset, GRST_N is asserted. -/
def State.fullReset (s : State) (keepLink : Bool) (value : Nat) : State :=
  let s1 := (s.captureEvent 0x0A 4 value).abortPanelLine.sendPairFail
  let s2 := ((List.range 48).filter fun e => s.pwr e == Pw.ON && (s.engineUp e || s.engState e == 7) && !s.inReset e).foldl State.engHold s1
  let s3 := (List.range 8).foldl (fun s p => if s.linkLive p then s.linkPut p { kind := 0x22, hops := 1 } else s) s2
  let s4 := [0, 1].foldl (fun s p => s.portReset p) s3
  let s5 := (List.range 4).foldl (fun s g => s.guestStep g fun s => s.guestRst g true) s4
  let keep := keepLink && (s.boot.fullAt = none || s.boot.keepLink)
  (s5.resetBusy 4).onBoot fun b => { b with fullAt := some (b.fullAt.getD s.now), keepLink := keep }

/-- The loss of module input power (16 R428; 14 R382; 21 R546): the tray stops, every breaker opens, and a full reset starts that does not keep
the link domain, which loses power at once. -/
def State.inputLost (s : State) : State :=
  let s1 := (s.setFlag Reg.PWR_FAULT Fld.PWR_FAULT.INPUT_LOST true).fault Src.INPUT_LOST panelScope 0
  let s2 := (List.range 48).foldl (fun s e => s.trip e 4 true) s1
  (s2.fullReset false 0).linkOff

/-- INPUT_LOST (16 R428): the input has been out of range for 50 µs in bus mode. -/
def execInputLost (s : State) : Answer :=
  match s.input.badSince with
  | none => .next s
  | some t => if s.mode ≠ 0 ∨ !s.boot.link ∨ s.now < t + 50000 then .next s else .next s.inputLost

/-! ### PNL_RESET (R456, R462, R464) -/

/-- Whether a requester may ask for a scope. -/
def State.resetMay (s : State) (r : Req) (scope e part : Nat) : Bool :=
  match scope with
  | 1 => r == .easel || (reqPF r && s.owns r e)
  | 2 => r == .easel || (reqPF r && s.ground.parts.any fun p => p.id == part && p.ownedBy r)
  | _ => s.ownerPF r || r == .easel || r == .service

/-- The engines that a partition or compute reset takes: those of its scope that take an engine reset. -/
def State.resetSet (s : State) (scope part : Nat) : List Nat :=
  (List.range 48).filter fun e => s.resettable e && (scope == 3 || s.partId e == some part)

/-- The CODE of a request: 3 bad argument, 1 ACCESS, 2 BUSY, 4 STATE, 0 accepted. -/
def State.resetCode (s : State) (r : Req) (scope e part : Nat) : Nat :=
  if scope = 0 ∨ 4 < scope ∨ (scope = 1 ∧ 48 ≤ e) ∨ (scope = 2 ∧ !(s.ground.parts.any fun p => p.id == part)) then 3
  else if !s.resetMay r scope e part then 1
  else if s.boot.fullAt.isSome ∨ (scope = 1 ∧ s.inReset e)
      ∨ ((scope = 2 ∨ scope = 3) ∧ s.resetSet scope part = [] ∧ scope ≤ s.resetScope) then 2
  else if scope ≠ 4 ∧ s.halted ∨ (scope = 1 ∧ !s.resettable e) then 4
  else 0

/-- An accepted request. -/
def State.resetStart (s : State) (scope e part : Nat) : State :=
  let subject := if scope = 1 then e else part
  match scope with
  | 4 => s.fullReset true 0
  | 1 => ((s.captureEvent 0x0A 1 subject).resetBusy 1).engHold e
  | _ =>
    let set := s.resetSet scope part
    let s1 := s.captureEvent 0x0A scope subject
    let s2 := if scope = 3 then s1.abortPanelLine
      else (s1.ground.parts.filter fun p => p.id == part).foldl State.abortPartition s1
    set.foldl State.engHold (if set = [] then s2 else s2.resetBusy scope)

/-- A write of PNL_RESET: with GO the reset that its fields describe is requested. -/
def State.opPnlReset (s : State) (r : Req) (v : Nat) : State :=
  let s1 := s.plainWrite Reg.PNL_RESET v
  if !bit v 31 then s1
  else
    let scope := bits v 2 0
    let e := bits v 13 8
    let part := bits v 19 16
    let code := s1.resetCode r scope e part
    let s2 := s1.setFld Reg.PNL_RESET_STAT Fld.PNL_RESET_STAT.CODE code
    if code = 0 then s2.resetStart scope e part else s2

/-- A requester's write of PNL_RESET with GO and a scope. -/
def State.pnlReset (s : State) (r : Req) (v scope : Nat) : State :=
  let w := putBits (putBits v 31 31 1) 2 0 scope
  s.gated r Reg.PNL_RESET w fun s => s.opPnlReset r w

/-- ENGINE_RESET (R461, R464). -/
def execEngineReset (r : Req) (v : Word) (s : State) : Answer := .next (s.pnlReset r v.toNat 1)

/-- PARTITION_RESET (R462). -/
def execPartitionReset (r : Req) (v : Word) (s : State) : Answer := .next (s.pnlReset r v.toNat 2)

/-- COMPUTE_RESET (R462). -/
def execComputeReset (r : Req) (v : Word) (s : State) : Answer := .next (s.pnlReset r v.toNat 3)

/-- FULL_RESET (R463). -/
def execFullReset (r : Req) (v : Word) (s : State) : Answer := .next (s.pnlReset r v.toNat 4)

/-! ### The course of an engine reset (R461) -/

/-- What the networks still hold for an engine in reset: requests to it are answered with TARGET_RESET, replies to its own requests are
discarded. -/
def netDrain (e : Nat) (l : List Packet) : List Packet :=
  (l.filter fun p => !(p.net == 1 && p.dst == e)).map fun p =>
    if p.net = 0 ∧ p.dst = e ∧ p.spread = none then
      { p with net := 1, src := p.dst, dst := p.src, bytes := 0, status := St.TARGET_RESET, vc1 := false, rows := false, alt := false }
    else p

/-- ENGINE_RESET_MC (R461): from 2 µs every request is carried out or answered, assembly buffers are completed, and the memory
controllers reset with their stacks in self refresh. -/
def execEngineResetMc (e : EngIx) (s : State) : Answer :=
  match (s.eng e).sup.resetAt with
  | none => .next s
  | some t =>
    if (s.eng e).sup.mcDone ∨ s.now < t + 2000 then .next s
    else
      let s1 := (s.eng e).asm.foldl (fun (s : State) (b : AsmBuf) => s.asmComplete b.stack b.block) s
      let s2 : State := { s1 with
        packets := netDrain e s1.packets
        guestWaits := s1.guestWaits.filter fun w => w.who != .engine e }
      let s3 := [0, 1].foldl (fun (s : State) t => s.setFld (Reg.MC_STACK e t) Fld.MC_STACK.STATE 3) s2
      .next (s3.onSup e fun x => { x with mcDone := true })

/-- The registers that an engine reset takes: the engine block, but for the router, the control mesh and the tree, ENG_SPM_POWER and what
the defect list and the training gave (R457; 07 R198). -/
def engineKept (e a : Nat) : Bool :=
  let o := (a - 0x01000000) % 0x400000
  decide (0x2000 ≤ o ∧ o < 0x3000) || decide (o = 0x900 ∨ o = 0x910)
    || (decide (0x100000 ≤ o ∧ o < 0x380000) && (decide ((o - 0x100000) % 0x80000 = 0) || decide (0x1010 ≤ (o - 0x100000) % 0x80000
      ∧ (o - 0x100000) % 0x80000 < 0x1020)))
    || [0, 1].any fun t => a == Reg.MC_STACK e t

/-- The hub, the cells and the fabric of an engine take their reset state; scratchpads and bank states, clock, count and supply are
kept (R457, R461). -/
def State.engineFresh (s : State) (e : Nat) : State :=
  let lo := 0x01000000 + e * 0x400000
  let s1 : State := { s with
    regs := s.regs.filter fun p => !(decide (lo ≤ p.1 ∧ p.1 < lo + 0x400000)) || engineKept e p.1
    fabs := s.fabs.filter fun p => p.1 / 4 != e
    cellParity := SMap.eraseRange s.cellParity (cellKey e 0 0) 4096 }
  let s2 := s1.onCells e none fun k => { sp := k.sp, banks := k.banks }
  s2.onEng e fun g => {
    containNext := g.containNext, count := g.count, clk := g.clk
    spm := g.zeroing.foldl (fun (x : Scratch) b => x.loseBank 0x1000000 b) g.spm, spmBanks := g.spmBanks, spmMoves := g.spmMoves
    hbmUe := g.hbmUe, adopted := g.adopted, slotBase := g.slotBase, staticLen := g.staticLen, cellOff := g.cellOff, spmOff := g.spmOff
    bucket := g.bucket, lost := g.lost, bad := g.bad, therm := g.therm
    sup := { g.sup with resetAt := none, mcDone := false } }

/-- ENGINE_RESET_DONE (R461, R464): from 5 µs the engine is in service with STATE EMPTY; a containment notice that came meanwhile takes
effect now. -/
def execEngineResetDone (e : EngIx) (s : State) : Answer :=
  match (s.eng e).sup.resetAt with
  | none => .next s
  | some t =>
    if !(s.eng e).sup.mcDone ∨ s.now < t + 5000 ∨ s.boot.fullAt.isSome then .next s
    else
      let s1 := (((s.engineFresh e).hubServe e).spmShow e).inService e
      let s2 := if (s1.eng e).containNext then (s1.onEng e fun g => { g with containNext := false }).contain e true else s1
      .next (if (List.range 48).any s2.inReset then s2 else s2.resetIdle)

/-! ### ENG_RESET: cells and dies (R459, R460) -/

/-- The registers of a cell. -/
def State.cellRegsReset (s : State) (e d c : Nat) : State := s.rstRange (Reg.CEL_STATE e (s.posOf e d) c) 0x200

/-- A cell reset begins: its operations are abandoned and it takes the state of 04 R90; while the canvas runs it has ended the current
run (R459). -/
def State.cellReset (s : State) (e d c : Nat) : State :=
  let (seed, regs) := match (s.eng e).canvas.body 6 0xFF d with
    | some x => cellInit x c
    | none => (0#64, [])
  let st := s.cvState e
  let s1 := s.onCell e d c fun k => { k.fresh seed regs with held := true, waits := k.waits, ended := decide (st = Cv.RUNNING ∨ st = Cv.STOPPING) }
  s1.cellRegsReset e d c

/-- A die reset begins: cells, fabric, hub entries and canvas are gone, and remote accesses find the die in reset (R460). -/
def State.dieReset (s : State) (e d : Nat) : State :=
  let m := s.posOf e d
  let s1 := if s.cvState e = Cv.EMPTY then s else (s.dropCanvas e).setCvState e Cv.EMPTY
  let s2 := (s1.rstRange (Reg.FAB_WDOG e m) 0xC).rstRange (Reg.CEL_STATE e m 0) (864 * 0x200)
  let s3 := s2.onCells e (some d) fun k => { sp := k.sp, banks := k.banks, waits := k.waits }
  let s4 := s3.onEng e fun g => { g with hubIn := g.hubIn.filter fun p => p.1 / 256 != d }
  { s4 with cellParity := SMap.eraseRange s4.cellParity (cellKey e d 0) 1024 }.setFab e d { held := true }

/-- The CODE of ENG_RESET: 2 busy, 3 bad index, 1 refused by state. -/
def State.engResetCode (s : State) (e v : Nat) : Nat :=
  let st := s.cvState e
  if s.flag (Reg.ENG_RESET e) Fld.ENG_RESET.BUSY then 2
  else if (bit v 16 && bit v 17) || (bit v 16 && decide (864 ≤ v % 1024)) then 3
  else if bit v 16 then (if st = Cv.LOADING ∨ st = Cv.ACTIVATING then 1 else 0)
  else if st = Cv.EMPTY ∨ st = Cv.READY ∨ st = Cv.DONE then 0 else 1

/-- A write of ENG_RESET. -/
def State.opEngReset (s : State) (e v : Nat) : State :=
  let a := Reg.ENG_RESET e
  let s1 := s.plainWrite a v
  if !bit v 16 && !bit v 17 then s1
  else
    let code := s.engResetCode e v
    let s2 := s1.setFld a Fld.ENG_RESET.CODE code
    if code ≠ 0 then s2
    else
      let s3 := s2.setFlag a Fld.ENG_RESET.BUSY true
      if bit v 16 then s3.cellReset e (bits v 11 10) (v % 1024) else s3.dieReset e (bits v 11 10)

/-- CELL_RESET (R459). -/
def execCellReset (r : Req) (e : EngIx) (v : Word) (s : State) : Answer :=
  .next (s.gated r (Reg.ENG_RESET e) (putBits v.toNat 16 16 1) fun s => s.opEngReset e (putBits v.toNat 16 16 1))

/-- DIE_RESET (R460). -/
def execDieReset (r : Req) (e : EngIx) (v : Word) (s : State) : Answer :=
  .next (s.gated r (Reg.ENG_RESET e) (putBits v.toNat 17 17 1) fun s => s.opEngReset e (putBits v.toNat 17 17 1))

/-- A cell comes out of reset: the writes that waited at its die are applied, counted from 0 (R459). -/
def State.cellRelease (s : State) (e d c : Nat) : State :=
  let ws := (s.cell e d c).waits
  let s1 := s.onCell e d c fun k => { k with held := false, waits := [] }
  ws.foldl (fun (s : State) (w : WaitWrite) =>
    (s.spWriteWords (.cell e d c) w.addr w.data).countMay (.cell e d c) w.counter (w.data.length / 8)) s1

/-- Every cell and die reset in progress ends; the clock does this (log 66). -/
def State.releaseHeld (s : State) : State :=
  let cells := (s.cells.filter fun p => p.2.held).map (·.1)
  let dies := (s.fabs.filter fun p => p.2.held).map (·.1)
  let s1 := cells.foldl (fun (s : State) k => (s.cellRelease (k / 4096) (k / 1024 % 4) (k % 1024)).setFlag (Reg.ENG_RESET (k / 4096))
    Fld.ENG_RESET.BUSY false) s
  dies.foldl (fun (s : State) k => (s.onFab (k / 4) (k % 4) fun f => { f with held := false }).setFlag (Reg.ENG_RESET (k / 4))
    Fld.ENG_RESET.BUSY false) s1

/-! ### Inputs (R441) -/

/-- PWRGD_LOSS (R441): shorter than 100 µs it is counted, else a full reset without the link domain starts. -/
def execPwrgdLoss (ns : Fin 0x100000000) (s : State) : Answer :=
  if s.boot.noPwr then .next s
  else if ns.val < 100000 then .next (s.satFld Reg.PNL_INPUT Fld.PNL_INPUT.PWRGD_NARROW 1)
  else
    let s1 := (s.setFlag Reg.PNL_INPUT Fld.PNL_INPUT.PWRGD false).onBoot fun b => { b with noPwr := true }
    .next (s1.fullReset false 0)

/-- MRST_ASSERT (R441): a change of MRST_N; a pulse shorter than 1 µs is counted, an assertion starts a full reset, a release re-arms. -/
def execMrstAssert (asserted : Bool) (ns : Fin 0x100000000) (s : State) : Answer :=
  let on := s.flag Reg.PNL_INPUT Fld.PNL_INPUT.MRST
  if !asserted then .next ((s.setFlag Reg.PNL_INPUT Fld.PNL_INPUT.MRST false).onBoot fun b => { b with mrstAt := none })
  else if on then .next s
  else if ns.val < 1000 then .next (s.satFld Reg.PNL_INPUT Fld.PNL_INPUT.MRST_NARROW 1)
  else
    let s1 := (s.setFlag Reg.PNL_INPUT Fld.PNL_INPUT.MRST true).onBoot fun b => { b with mrstAt := some s.now }
    .next (s1.fullReset true 0)

/-- MRST_STUCK (R441): held for 10 s, the input is declared stuck and taken as released until it next reads released. -/
def execMrstStuck (s : State) : Answer :=
  match s.boot.mrstAt with
  | none => .next s
  | some t =>
    if s.now < t + 10000000000 then .next s
    else
      let s1 := (s.setFlag Reg.PNL_INPUT Fld.PNL_INPUT.MRST_STUCK true).onBoot fun b => { b with mrstAt := none }
      .next (s1.fault Src.MRST_STUCK panelScope 0)

/-! ### The 2 µs of a full reset (R463; 18 R488; 19 R497; 20 R506) -/

/-- Every engine is off, its contents lost, its latch, throttle and temperatures cleared; cycle counting goes on (19 R490, R498). -/
def State.engineOff (s : State) (e : Nat) : State :=
  let s1 := ((s.engineDark e).setPwr e Pw.OFF).rstReg (Reg.PNL_ENG_STATE e)
  let s2 := s1.onEng e fun g => { g with
    contained := false, sup := { grown := g.sup.grown }
    therm := { cycleAt := g.therm.cycleAt, extreme := g.therm.extreme, rising := g.therm.rising, stack := g.therm.stack } }
  s2.setEngState e (if (s2.partOf e).isNone then 9 else 0)

/-- The registers that a full reset takes, beside those of the engines: faults but the log and its counts, power, temperatures but cycle
counts and the shutdown, links and guests. -/
def State.blocksReset (s : State) : State :=
  let counts := (List.range 128).map fun i => (i, s.fld (Reg.FLT_SRC i) Fld.FLT_SRC.COUNT)
  let s1 := counts.foldl (fun (s : State) (p : Nat × Nat) => (s.rstReg (Reg.FLT_SRC p.1)).setFld (Reg.FLT_SRC p.1) Fld.FLT_SRC.COUNT p.2) s
  let pin := s.flag Reg.FLT_PIN Fld.FLT_PIN.ASSERTED
  let s2 := ((s1.rstRange (Reg.FLT_PEND 0) 0xC4).rstRange Reg.FLT_PIN 0x18).rstReg Reg.FLT_LOG_SEL
  let s3 := if pin then s2.emit (.pin .faultN true) else s2
  let s4 := (s3.rstReg Reg.PWR_FAULT).rstRange (Reg.PWR_ENG_CTRL 0) 0xC00
  let s5 := ((s4.rstReg Reg.THM_FLOW_CFG).rstReg Reg.THM_FLOW_CNT).setFlag Reg.THM_STAT Fld.THM_STAT.SENSOR false
  let s6 := (List.range 48).foldl (fun (s : State) e => (s.rstReg (Reg.THM_ENG_TEMP e)).rstReg (Reg.THM_ENG_STAT e)) s5
  let s7 := (s6.rstRange (Reg.CAD_ENG_CLK 0) 0xC00).rstReg Reg.PNL_RESET
  (s7.rstRange 0x700000 0x100000).rstRange (Reg.SK_PORT 0 0) 0xC00

/-- A guest site at a full reset: held in reset and admitted no longer, its registers at their reset values but presence and power. -/
def State.guestFull (s : State) (g : Nat) : State :=
  let s1 := s.guestRemove g
  let st := s1.rdN (Reg.SK_GUEST_STAT g)
  let pw := s1.rdN (Reg.SK_GUEST_PWR g)
  let s2 := ((s1.rstRange (Reg.SK_GUEST_STAT g) 0x100).wr (Reg.SK_GUEST_STAT g) st).wr (Reg.SK_GUEST_PWR g) pw
  s2.setGuest g Fld.SK_GUEST_STAT.QUALIFIED false

/-- The link dies reset while the link domain stays powered: ports train again (14 R381); packets of peers come again. -/
def State.linksReset (s : State) : State :=
  let ls := s.links
  let s1 : State := { s with
    links := ls.filterMap fun p => if p.2.present then some (p.1, { present := true, heldAt := s.now }) else none
    linkIn := [], colls := [], collIn := [], verdictSeen := [], pair := { } }
  ls.foldl (fun (s : State) p => if p.2.present then s.setLinkState p.1 1 else s) s1

/-- The former active Easel die is tested, and stopped duties resume (20 R506). -/
def State.easelTest (s : State) (passes : Bool) : State :=
  let s1 := if s.easel.former then s.setFlag Reg.EZ_INFO Fld.EZ_INFO.STANDBY_OK passes else s
  { s1 with easel := { s1.easel with former := false, stopped := false } }

/-- The count of full resets, and no reset in progress. -/
def State.fullDone (s : State) : State :=
  ((s.satFld Reg.PNL_RESET_STAT Fld.PNL_RESET_STAT.FULLS 1).resetIdle).onBoot fun b => { b with
    fullAt := none, keepLink := false, t0 := b.fullAt.getD b.t0 }

/-- FULL_RESET_APPLY (R463): 2 µs after its t0. Before step 3 has run there is nothing to reset but the straps, and power-on goes on. `bad`
names items of the flash as at GROUND_VERIFY, `passes` whether a former active die passes its test. -/
def execFullResetApply (mode : Fin 4) (supervised tray passes : Bool) (bad : Fin 2048) (s : State) : Answer :=
  match s.boot.fullAt with
  | none => .next s
  | some t =>
    if s.now < t + 2000 then .next s
    else
      let s0 := (s.latchStraps mode supervised tray).easelTest passes
      if s.boot.step < 2 ∨ (s.boot.step = 2 ∧ s.bootState = 2) then .next s0.fullDone
      else
        let s1 := (List.range 48).foldl State.engineOff s0
        let s2 := (((List.range 4).foldl State.guestFull s1).blocksReset)
        let s3 : State := { s2 with
          halted := false, armCopies := [], adoptQ := [], members := [], packets := [], colls := [], events := [], rampQ := []
          guestHeld := [], cellParity := [], defectQ := s2.defectQ
          boot := { s2.boot with step := 2, todo := [], taken := [], wave := 0, waveAt := none, cmd := 0, cmdEngs := [] } }
        let s4 := ((s3.rstRange Reg.EZ_STEP 0x10).setFld Reg.PNL_BOOT Fld.PNL_BOOT.TIME_MS 0).groundStep bad
        let ok := decide (s4.boot.step = 3)
        let s5 := if ok && s.boot.keepLink then s4.linksReset else s4.linkOff
        let s6 := if ok && s5.supervised then (s5.onBoot fun b => { b with step := 2 }).setBoot 7 else s5
        .next s6.fullDone

end Sys2Proof.Machine
end

