-- ==== Sys2Proof/Machine/Cooling.lean ====
section
/-! DEFINITION. The cooling interface: junction and stack temperatures, thermal levels, the coolant and its flow, the hard thermal shutdown,
and thermal-cycle counting (19_cooling R490 to R499). -/
namespace Sys2Proof.Machine

/-- Change the temperatures of an engine. -/
def State.onTherm (s : State) (e : Nat) (f : Therm → Therm) : State := s.onEng e fun g => { g with therm := f g.therm }

/-- A temperature in °C or 0.1 °C, of code `t` where code `z` stands for 0 °C, as a register shows it; below 0 °C no rule says how (log 67). -/
def shownTemp (z t : Nat) : Nat := if z ≤ t then t - z else Config.belowZero t

/-- A sensor failed: THM_SENSOR (R490). -/
def State.sensorFault (s : State) : State := (s.setFlag Reg.THM_STAT Fld.THM_STAT.SENSOR true).fault Src.THM_SENSOR panelScope 0

/-- Whether a sample fails its sensor: outside −20 to 150 °C, or more than 20 K from the sample before; `u` is the units per kelvin (R490). -/
def sampleBad (u : Nat) (last : Option Nat) (t : Nat) : Bool :=
  decide (t < 30 * u ∨ 200 * u < t) || (match last with
    | some x => decide (x + 20 * u < t ∨ t + 20 * u < x)
    | none => false)

/-! ### Junction and stacks (R490, R494, R495) -/

/-- Whether an optional temperature of code °C + 50 is at or above a limit in °C. -/
def atLeast (o : Option Nat) (limit : Nat) : Bool :=
  match o with
  | some t => decide (limit + 50 ≤ t)
  | none => false

/-- Whether J or S reaches a pair of limits. -/
def Therm.reaches (x : Therm) (j st : Nat) : Bool := atLeast x.j j || atLeast x.s0 st || atLeast x.s1 st

/-- Whether die position `m` of an engine (5 the hub) is powered: those in use, and all of them in bring-up (17 R449). -/
def State.dieOn (s : State) (e m : Nat) : Bool := m == 5 || (s.dieAt e m).isSome || decide (s.engState e < 5)

/-- Whether a powered die or a stack of an engine has no working sensor. -/
def State.noSensor (s : State) (e : Nat) : Bool :=
  let bad := fun i => SMap.getD (s.eng e).therm.failed i false
  bad 48 || bad 49 || (List.range 6).any fun m => s.dieOn e m && (List.range 8).all fun i => bad (8 * m + i)

/-- Put the thermal level of an engine, and show it. -/
def State.setLevel (s : State) (e v : Nat) : State :=
  ((s.onTherm e fun x => { x with level := v, levelAt := s.now }).setFld (Reg.THM_ENG_TEMP e) Fld.THM_ENG_TEMP.LEVEL v).throttleShow e

/-- Show whether an engine lacks a sensor; one that does is held at level 4 (R490; log 68). -/
def State.sensorShow (s : State) (e : Nat) : State :=
  let n := s.noSensor e
  let s1 := s.setFlag (Reg.THM_ENG_STAT e) Fld.THM_ENG_STAT.NO_SENSOR n
  if n && (s.eng e).therm.level != 4 then s1.setLevel e 4 else s1

/-- TEMP_TRIP: the breaker of the engine opens, and it does not count (R494, R495). -/
def State.tempTrip (s : State) (e : Nat) : State :=
  ((s.setFlag (Reg.THM_ENG_STAT e) Fld.THM_ENG_STAT.TEMP_TRIP true).fault Src.TEMP_TRIP e 0).trip e 0 false

/-- The limits act on a fresh reading: TEMP_HIGH as it is reached, and TEMP_TRIP (R494). -/
def State.tempCheck (s : State) (e : Nat) : State :=
  let x := (s.eng e).therm
  let s1 := if x.reaches 105 95 && !x.disarmed then
      ((s.onTherm e fun x => { x with disarmed := true }).setFlag (Reg.THM_ENG_STAT e) Fld.THM_ENG_STAT.TEMP_HIGH true).fault Src.TEMP_HIGH e 0
    else if x.disarmed && !x.reaches 100 90 then s.onTherm e fun x => { x with disarmed := false }
    else s
  if x.reaches 112 100 && s.supplied e then s1.tempTrip e else s1

/-- The hottest of a list of (die, temperature), the first of equals. -/
def hottest : List (Nat × Nat) → Option (Nat × Nat)
  | [] => none
  | p :: l => match hottest l with
    | some q => if p.2 < q.2 then some q else some p
    | none => some p

/-- Show J, its die, and the highest J. -/
def State.showJ (s : State) (e : Nat) (o : Option (Nat × Nat)) : State :=
  let s1 := s.onTherm e fun x => { x with j := o.map (·.2) }
  match o with
  | none => s1
  | some (m, t) =>
    let s2 := (s1.setFld (Reg.THM_ENG_TEMP e) Fld.THM_ENG_TEMP.JUNCTION (shownTemp 50 t)).setFld (Reg.THM_ENG_STAT e)
      Fld.THM_ENG_STAT.HOT_DIE m
    if s2.fld (Reg.THM_ENG_STAT e) Fld.THM_ENG_STAT.MAX + 50 < t then s2.setFld (Reg.THM_ENG_STAT e) Fld.THM_ENG_STAT.MAX (t - 50) else s2

/-- One sample of junction sensor `i`. -/
def State.junction (s : State) (e i t : Nat) : State :=
  let x := (s.eng e).therm
  if SMap.getD x.failed i false || !s.dieOn e (i / 8) then s
  else if sampleBad 1 (SMap.find? x.last i) t then (s.onTherm e fun x => { x with failed := SMap.put x.failed i true }).sensorFault
  else s.onTherm e fun x => { x with last := SMap.put x.last i t }

/-- JUNCTION_SAMPLE (R490, R494): the 48 sensors of an engine, 8 of each position M0 to M4 and of the hub, in °C + 50. -/
def execJunctionSample (e : EngIx) (temps : Vector (Fin 256) 48) (s : State) : Answer :=
  if !s.supplied e ∧ !(s.eng e).sup.hot then .next s
  else
    let ts := (temps.toList.map (·.val)).zipIdx
    let s1 := ts.foldl (fun (s : State) (p : Nat × Nat) => s.junction e p.2 p.1) s
    let bad := (s1.eng e).therm.failed
    let live := ts.filter fun (p : Nat × Nat) => s1.dieOn e (p.2 / 8) && !SMap.getD bad p.2 false
    .next (((s1.showJ e (hottest (live.map fun (p : Nat × Nat) => (p.2 / 8, p.1)))).sensorShow e).tempCheck e)

/-- STACK_TEMP_READ (08 R201, R204; R490): the stack's temperature is read; refresh is doubled above 85 °C and restored below 83 °C; the limits
act on it. -/
def execStackTempRead (e : EngIx) (st : Fin 2) (temp : Fin 256) (s : State) : Answer :=
  let x := (s.eng e).therm
  let k := 48 + st.val
  let t := temp.val + 50
  if s.pwr e = Pw.OFF ∨ SMap.getD x.failed k false then .next s
  else if sampleBad 1 (SMap.find? x.last k) t then
    .next (((s.onTherm e fun x => { x with failed := SMap.put x.failed k true }).sensorFault).sensorShow e)
  else
    let a := Reg.MC_STACK e st
    let s1 := s.onTherm e fun x => { x with
      last := SMap.put x.last k t, s0 := if st.val = 0 then some t else x.s0, s1 := if st.val = 1 then some t else x.s1 }
    let s2 := s1.setFld (Reg.THM_ENG_TEMP e) (if st.val = 0 then Fld.THM_ENG_TEMP.STACK0 else Fld.THM_ENG_TEMP.STACK1) temp
    let s3 := if s2.supplied e then s2.setFld a Fld.MC_STACK.TEMP temp else s2
    let s4 := if !s3.supplied e then s3 else if 85 < temp.val then s3.setFlag a Fld.MC_STACK.REFRESH_X2 true
      else if temp.val < 83 then s3.setFlag a Fld.MC_STACK.REFRESH_X2 false else s3
    .next (s4.tempCheck e)

/-- THERMAL_LEVEL_STEP (R494): up by one every 1 ms while J ≥ 100 °C or S ≥ 90 °C, down by one every 10 ms while J < 97 °C and S < 87 °C. -/
def execThermalLevelStep (e : EngIx) (s : State) : Answer :=
  let x := (s.eng e).therm
  if s.noSensor e then .next s
  else if x.reaches 100 90 then
    if s.now < x.levelAt + 1000000 ∨ 8 ≤ x.level then .next s else .next (s.setLevel e (x.level + 1))
  else if x.reaches 97 87 ∨ x.level = 0 ∨ s.now < x.levelAt + 10000000 then .next s
  else .next (s.setLevel e (x.level - 1))

/-- THM_ENG_STAT_WRITE (R499): the flags written with 1 clear, and MAX starts again from J. -/
def State.opThmEngStat (s : State) (e v : Nat) : State :=
  let a := Reg.THM_ENG_STAT e
  (s.plainWrite a v).setFld a Fld.THM_ENG_STAT.MAX (match (s.eng e).therm.j with
    | some t => if 50 ≤ t then t - 50 else 0
    | none => 0)

/-- THM_ENG_STAT_WRITE (R499). -/
def execThmEngStatWrite (r : Req) (e : EngIx) (v : Word) (s : State) : Answer :=
  .next (s.gated r (Reg.THM_ENG_STAT e) v.toNat fun s => s.opThmEngStat e v.toNat)

/-! ### The flow (R491 to R493, R496) -/

/-- PPL in force. -/
def State.ppl (s : State) : Nat := max 1 (s.fld Reg.THM_FLOW_CFG Fld.THM_FLOW_CFG.PPL)

/-- Whether FLOW_TACH is ignored. -/
def State.flowStuck (s : State) : Bool := s.flag Reg.THM_STAT Fld.THM_STAT.STUCK

/-- Change the record of the coolant. -/
def State.onFlow (s : State) (f : Flow → Flow) : State := { s with flow := f s.flow }

/-- Whether no pulse has been accepted for longer than the interval of 12 L/min. -/
def State.flowStopped (s : State) : Bool :=
  decide (5000000000 < (s.now - max s.flow.since (s.flow.last.getD 0)) * s.ppl)

/-- The flow in 0.1 L/min over the last 1 s, or over the time since FLOW_TACH has been watched if that is shorter (log 69). -/
def State.flowNow (s : State) : Nat :=
  if s.flowStuck then 0xFFFF
  else if s.flowStopped then 0
  else
    let w := min 1000000000 (s.now - s.flow.since)
    (s.flow.pulses.filter fun t => decide (s.now < t + 1000000000)).length * 600000000000 / (s.ppl * max 1 w)

/-- FLOW_LOW is raised or re-armed. -/
def State.flowLow (s : State) (raise clear : Bool) : State :=
  let on := s.flag Reg.THM_STAT Fld.THM_STAT.FLOW_LOW
  if raise && !on then (s.setFlag Reg.THM_STAT Fld.THM_STAT.FLOW_LOW true).fault Src.FLOW_LOW panelScope 0
  else if clear then s.setFlag Reg.THM_STAT Fld.THM_STAT.FLOW_LOW false else s

/-- The hard thermal shutdown (R495, R496): HALT_PANEL with PAIR_FAIL, and every breaker opens without counting. -/
def State.flowCrit (s : State) : State :=
  let s1 := ((s.setFlag Reg.THM_STAT Fld.THM_STAT.FLOW_CRIT true).setFlag Reg.THM_STAT Fld.THM_STAT.SHUTDOWN true).fault
    Src.FLOW_CRIT panelScope 0
  ((List.range 48).foldl (fun s e => s.trip e 0 false) s1).onFlow fun x => { x with critAt := some s.now }

/-- Since when a restart would find flow and inlet good (R497). -/
def State.restartCheck (s : State) : State :=
  let f := s.fld Reg.THM_FLOW Fld.THM_FLOW.FLOW
  let t := s.fld Reg.THM_COOLANT Fld.THM_COOLANT.INLET
  s.onFlow fun x => { x with
    okSince := sinceWhen x.okSince s.now (!s.flowStuck && decide (300 ≤ f ∧ 180 ≤ t ∧ t ≤ 400)) }

/-- A fresh value of the flow acts (R493, R496). -/
def State.flowPut (s : State) (f : Nat) : State :=
  let s1 := s.setFld Reg.THM_FLOW Fld.THM_FLOW.FLOW f
  if s.flowStuck then s1.restartCheck
  else
    let s2 := (s1.flowLow (decide (f < 300)) (decide (320 ≤ f))).restartCheck
    if 120 ≤ f then s2.setFlag Reg.THM_STAT Fld.THM_STAT.FLOW_CRIT false
    else if s2.flag Reg.THM_STAT Fld.THM_STAT.FLOW_CRIT then s2 else s2.flowCrit

/-- FLOW_PULSE (R491): a pulse of so many ns. -/
def execFlowPulse (ns : Fin 0x100000000) (s : State) : Answer :=
  let fast := match s.flow.last with
    | some t => decide ((s.now - t) * s.ppl < 400000000)
    | none => false
  if s.flowStuck then .next s
  else if ns.val < 100000 then .next (s.satFld Reg.THM_FLOW_CNT Fld.THM_FLOW_CNT.NARROW 1)
  else if fast then .next (s.satFld Reg.THM_FLOW_CNT Fld.THM_FLOW_CNT.FAST 1)
  else .next (s.onFlow fun x => { x with
    last := some s.now, pulses := (x.pulses.filter fun t => decide (s.now < t + 1000000000)) ++ [s.now] })

/-- FLOW_UPDATE (R491): every 100 ms the flow is recomputed. -/
def execFlowUpdate (s : State) : Answer :=
  if s.now < s.flow.updAt + 100000000 then .next s
  else .next ((s.onFlow fun x => { x with updAt := s.now }).flowPut s.flowNow)

/-- FLOW_ZERO (R491): no pulse for the 12 L/min interval makes the flow read 0 at once. -/
def execFlowZero (s : State) : Answer := if s.flowStuck ∨ !s.flowStopped then .next s else .next (s.flowPut 0)

/-- FLOW_STUCK (R491, R492): the input has been active for longer than 1 s. -/
def execFlowStuck (s : State) : Answer :=
  if s.flowStuck then .next s
  else
    let s1 := (s.setFlag Reg.THM_STAT Fld.THM_STAT.STUCK true).setFld Reg.THM_FLOW Fld.THM_FLOW.FLOW 0xFFFF
    .next ((s1.restartCheck).fault Src.FLOW_STUCK panelScope 0)

/-- A write of THM_FLOW_CFG: PPL, and REARM takes up a stuck FLOW_TACH from now on, with no flow seen yet. -/
def State.opFlowCfg (s : State) (v : Nat) : State :=
  let s1 := s.plainWrite Reg.THM_FLOW_CFG v
  if !bit v 31 || !s.flowStuck then s1
  else
    let s2 := (s1.setFlag Reg.THM_STAT Fld.THM_STAT.STUCK false).setFld Reg.THM_FLOW Fld.THM_FLOW.FLOW 0
    s2.onFlow fun x => { x with since := s.now, pulses := [], last := none, okSince := none }

/-- REARM (R491). -/
def execRearm (r : Req) (v : Word) (s : State) : Answer :=
  .next (s.gated r Reg.THM_FLOW_CFG (putBits v.toNat 31 31 1) fun s => s.opFlowCfg (putBits v.toNat 31 31 1))

/-- THM_FLOW_CNT_CLEAR (R499). -/
def execThmFlowCntClear (r : Req) (v : Word) (s : State) : Answer :=
  .next (s.gated r Reg.THM_FLOW_CNT v.toNat fun s => s.rstReg Reg.THM_FLOW_CNT)

/-- SHUTDOWN_LINK_OFF (R496; 14 R382): 50 µs after FLOW_CRIT the link domain is powered down, and the full reset that brings the panel back
starts (log 70). -/
def execShutdownLinkOff (s : State) : Answer :=
  match s.flow.critAt with
  | none => .next s
  | some t =>
    if s.now < t + 50000 then .next s
    else .next (((s.onFlow fun x => { x with critAt := none }).fullReset false 0).linkOff)

/-! ### The coolant (R490, R492, R493) -/

/-- One sample of thermistor `k`. -/
def State.thermistor (s : State) (k t : Nat) : State :=
  if SMap.getD s.flow.failed k false then s
  else if sampleBad 10 (SMap.find? s.flow.coolant k) t then (s.onFlow fun x => { x with failed := SMap.put x.failed k true }).sensorFault
  else s.onFlow fun x => { x with coolant := SMap.put x.coolant k t }

/-- The reading of a point: the primary's, or the spare's once the primary has failed; none when both have. -/
def State.coolantAt (s : State) (k : Nat) : Option Nat :=
  let ok := fun i => if SMap.getD s.flow.failed i false then none else SMap.find? s.flow.coolant i
  match ok k with
  | some t => some t
  | none => ok (k + 1)

/-- INLET_RANGE is raised or re-armed (R493). -/
def State.inletRange (s : State) (t : Nat) : State :=
  let on := s.flag Reg.THM_STAT Fld.THM_STAT.INLET_RANGE
  if (t < 680 ∨ 900 < t) ∧ !on then (s.setFlag Reg.THM_STAT Fld.THM_STAT.INLET_RANGE true).fault Src.INLET_RANGE panelScope 0
  else if 685 ≤ t ∧ t ≤ 895 then s.setFlag Reg.THM_STAT Fld.THM_STAT.INLET_RANGE false else s

/-- COOLANT_SAMPLE (R490, R492, R493): the four thermistors, in 0.1 °C + 500. -/
def execCoolantSample (inlet inlet2 outlet outlet2 : Fin 4096) (s : State) : Answer :=
  let s1 := (((s.thermistor 0 inlet).thermistor 1 inlet2).thermistor 2 outlet).thermistor 3 outlet2
  let i := s1.coolantAt 0
  let o := s1.coolantAt 2
  let s2 := match i with
    | some t => (s1.setFld Reg.THM_COOLANT Fld.THM_COOLANT.INLET (shownTemp 500 t)).inletRange t
    | none => s1
  let s3 := match o with
    | some t => s2.setFld Reg.THM_COOLANT Fld.THM_COOLANT.OUTLET (shownTemp 500 t)
    | none => s2
  let s4 := match i, o with
    | some a, some b => if s3.flowStuck then s3.flowLow (decide (a + 250 < b)) (decide (b ≤ a + 250)) else s3
    | _, _ => s3
  .next s4.restartCheck

/-! ### Thermal cycles (R498) -/

/-- The bin of a range. -/
def cycleBin (k : Nat) : Option Nat := if k < 20 then none else if k < 30 then some 0 else if k < 40 then some 1 else if k < 60 then some 2 else some 3

/-- The counting loop over the stack of reversals, the newest first: what remains, and the (range, halves) counted. -/
def rainflow : Nat → List Nat → List (Nat × Nat) → List Nat × List (Nat × Nat)
  | 0, l, c => (l, c)
  | fuel + 1, r1 :: r2 :: r3 :: l, c =>
    let x := colDist r1 r2
    let y := colDist r2 r3
    if x < y then (r1 :: r2 :: r3 :: l, c)
    else if l = [] then ([r1, r2], c ++ [(y, 1)])
    else rainflow fuel (r1 :: l) (c ++ [(y, 2)])
  | _ + 1, l, c => (l, c)

/-- A reversal is pushed, and the loop counts. -/
def State.reversal (s : State) (e t : Nat) : State :=
  let l := t :: (s.eng e).therm.stack
  let (rest, cs) := rainflow l.length l []
  let s1 := s.onTherm e fun x => { x with stack := rest }
  cs.foldl (fun (s : State) (c : Nat × Nat) => match cycleBin c.1 with
    | some n => s.satFld (Reg.THM_ENG_CYCLE e n) Fld.THM_ENG_CYCLE.HALVES c.2
    | none => s) s1

/-- THERMAL_CYCLE_SAMPLE (R498): every 100 ms J is sampled; one that has moved 2 K back from its last extreme makes that a reversal. -/
def execThermalCycleSample (e : EngIx) (s : State) : Answer :=
  let x := (s.eng e).therm
  match x.j with
  | none => .next s
  | some t =>
    if s.now < x.cycleAt + 100000000 then .next s
    else
      let s1 := s.onTherm e fun x => { x with cycleAt := s.now }
      let put := fun (s : State) (up : Option Bool) => s.onTherm e fun x => { x with extreme := some t, rising := up }
      match x.extreme with
      | none => .next (put s1 none)
      | some m =>
        let up := decide (m + 2 ≤ t)
        let down := decide (t + 2 ≤ m)
        match x.rising with
        | none => .next (if up || down then put (s1.reversal e m) (some up) else s1)
        | some true => .next (if m < t then put s1 (some true) else if down then put (s1.reversal e m) (some false) else s1)
        | some false => .next (if t < m then put s1 (some false) else if up then put (s1.reversal e m) (some true) else s1)

/-- THERMAL_CYCLE_SAVE (R498): the counts and the stacks are kept in flash. -/
def execThermalCycleSave (s : State) : Answer :=
  let keys := (List.range 48).flatMap fun e => (List.range 4).map fun n => (e, n)
  let cs := keys.foldl (fun (m : SMap Nat) (p : Nat × Nat) => SMap.set 0 m (p.1 * 4 + p.2) (s.rdN (Reg.THM_ENG_CYCLE p.1 p.2))) []
  let rs := (List.range 48).foldl (fun (m : SMap (List Nat)) e => SMap.set [] m e (s.eng e).therm.stack) []
  .next (s.onFlash fun f => { f with cycles := cs, reversals := rs })

end Sys2Proof.Machine
end

