-- ==== Sys2Proof/Machine/Faults.lean ====
section
/-! DEFINITION. The commands of the fault collector (18_faults R467 to R479, R488). -/
namespace Sys2Proof.Machine

/-- Whether a source and a scope agree: an engine for an engine-scope source, the panel for the others (R480, R481, R488). -/
def scopeOk (src scope : Nat) : Bool :=
  (sourceRow src).isSome && (if engineSource src then decide (scope < 48) else scope == panelScope)

/-- FAULT_REPORT (R467 to R479): a source reports a fault of a scope with its DETAIL, `consumer` being the engine whose step would have used the
data; a junction or stack trip opens the breaker, and FLOW_CRIT is the hard thermal shutdown. -/
def execFaultReport (src : Fin 128) (scope : Fin 256) (detail : Word) (consumer : Option EngIx) (s : State) : Answer :=
  if !scopeOk src scope then .next s
  else if src.val = Src.TEMP_TRIP then .next (s.tempTrip scope)
  else if src.val = Src.FLOW_CRIT then .next s.flowCrit
  else .next (s.faultFor src scope detail.toNat false (consumer.map (·.val)))

/-- Whether FAULT_N is held low by HOLD once no pulse runs: else it is released (R478). -/
def State.pinRelease (s : State) : State :=
  if s.flag Reg.FLT_PIN Fld.FLT_PIN.PULSE || s.flag Reg.FLT_PIN Fld.FLT_PIN.HOLD || !s.flag Reg.FLT_PIN Fld.FLT_PIN.ASSERTED then s
  else (s.setFlag Reg.FLT_PIN Fld.FLT_PIN.ASSERTED false).emit (.pin .faultN true)

/-- FAULT_PULSE_END (R478): 10 µs after it was last started the pulse ends. -/
def execFaultPulseEnd (s : State) : Answer :=
  if !s.flag Reg.FLT_PIN Fld.FLT_PIN.PULSE ∨ s.now < s.pulseStart + 10000 then .next s
  else .next ((s.setFlag Reg.FLT_PIN Fld.FLT_PIN.PULSE false).pinRelease)

/-- A write of FLT_INJECT: with GO a fault marked INJECTED is raised, with DETAIL 0. Nothing else than the actions of R470 follows. -/
def State.opInject (s : State) (v : Nat) : State :=
  let src := bits v 7 0
  let scope := bits v 23 16
  if bit v 31 && scopeOk src scope then s.fault src scope 0 true else s

/-- FAULT_INJECT (R488). -/
def execFaultInject (r : Req) (v : Word) (s : State) : Answer :=
  .next (s.gated r Reg.FLT_INJECT (putBits v.toNat 31 31 1) fun s => s.opInject (putBits v.toNat 31 31 1))

end Sys2Proof.Machine
end

