-- ==== Sys2Proof/Machine/Pair.lean ====
section
/-! DEFINITION. Pairs: the pairing exchange, mirroring, commits and their apply, beats between the partners, and the takeover
(14_links_pairs_chains R392 to R397). -/
namespace Sys2Proof.Machine

/-- Put LNK_PAIR_STAT.STATE. -/
def State.setPairState (s : State) (v : Nat) : State := s.setFld Reg.LNK_PAIR_STAT Fld.LNK_PAIR_STAT.STATE v

/-- The stand-ins that LNK_PAIR_MAP names, as (partner engine, local engine). -/
def State.standIns (s : State) : List (Nat × Nat) :=
  ((List.range 48).filter fun e => s.flag (Reg.LNK_PAIR_MAP e) Fld.LNK_PAIR_MAP.VALID).map
    fun e => (e, s.fld (Reg.LNK_PAIR_MAP e) Fld.LNK_PAIR_MAP.STANDIN)

/-- Whether a stand-in holds the canvas of the partner engine it stands for. -/
def State.standInCanvas (s : State) (x : Partner) (e b : Nat) : Bool :=
  x.canvases.any fun c => c.1.val == e
    && c.2.1.val == s.rdN (Reg.ENG_CANVAS_ID b 0) + s.rdN (Reg.ENG_CANVAS_ID b 1) * 2 ^ 32
    && c.2.2 == (s.eng b).canvas.digest

/-- The code of the first check of R392 that fails, or 0. -/
def State.pairCode (s : State) (x : Partner) : Nat :=
  let peer := fun p => s.fld (Reg.LNK_PORT_PEER p) Fld.LNK_PORT_PEER.PANEL
  let l := s.standIns
  firstFail [
    (1, peer 6 == peer 7),
    (2, l.all fun p => decide (p.2 < 48) && s.engineUp p.2 && s.cvState p.2 == Cv.STANDBY),
    (3, l.all fun p => s.standInCanvas x p.1 p.2),
    (4, l.all fun p => s.rdN (Reg.ENG_STBY_COVER p.2 0) == 0 && bits (s.rdN (Reg.ENG_STBY_COVER p.2 1)) 15 0 == 0)]

/-- The regions of LNK_PAIR_REGION as block ranges: first block and count (R393). -/
def State.pairRanges (s : State) : List (Nat × Nat) :=
  ((List.range 16).map fun i => (s.rdN (Reg.LNK_PAIR_REGION i 0) * 16,
    s.fld (Reg.LNK_PAIR_REGION i 1) Fld.LNK_PAIR_REGION.LEN * 16)).filter fun r => r.2 != 0

/-- Put the PAIR bits of LP6 and LP7. -/
def State.setPaired (s : State) (b : Bool) : State :=
  [6, 7].foldl (fun s p => s.setFlag (Reg.LNK_PORT_STAT p) Fld.LNK_PORT_STAT.PAIR b) s

/-- The pairing exchange, once both pair ports are up: pair mode and seeding, or a failed check that leaves the pair OFF. -/
def State.pairExchange (s : State) (x : Partner) : State :=
  if s.pairState ≠ 1 ∨ !s.linkLive 6 ∨ !s.linkLive 7 then s
  else
    let code := s.pairCode x
    if code ≠ 0 then
      ((s.setPairState 0).setFld Reg.LNK_PAIR_STAT Fld.LNK_PAIR_STAT.CODE code).setFlag Reg.LNK_FAULT Fld.LNK_FAULT.CFG_REJ true
    else
      let panel := s.fld (Reg.LNK_PORT_PEER 6) Fld.LNK_PORT_PEER.PANEL
      let s1 := (s.wr Reg.LNK_PAIR_STAT (panel * 65536 + 2)).setPaired true
      { s1 with pair := { partner := x, seed := s.pairRanges, beatAt := s.now, heard := s.now } }

/-! ### Takeover (R396, R397) -/

/-- Steps 1 and 2 of R396: what is not committed is discarded, and each stand-in receives a notice for slot 0. -/
def State.takeover (s : State) : State :=
  let s1 := s.setPairState 6
  let s2 : State := { s1 with pair := { s1.pair with passes := [], stage := [], written := [] } }
  s2.standIns.foldl (fun s p => s.onEng p.2 fun g => { g with notices := g.notices ++ [48 + p.1] }) s2

/-- A write of LNK_PAIR_CTRL: ENABLE starts the forming of the pair or ends it, TAKEOVER acts in SPLIT. -/
def State.opPairCtrl (s : State) (v : Nat) : State :=
  let a := Reg.LNK_PAIR_CTRL
  let was := s.flag a Fld.LNK_PAIR_CTRL.ENABLE
  let s1 := s.plainWrite a v
  if !was && bit v 0 then s1.wr Reg.LNK_PAIR_STAT 1
  else if was && !bit v 0 then
    let s2 := (s1.wr Reg.LNK_PAIR_STAT 0).setPaired false
    { s2 with pair := { } }
  else if bit v 1 && s1.pairState == 5 then s1.takeover
  else s1

/-- PAIR_ENABLE (R392, R395): ENABLE is set, and the exchange tells of the partner. -/
def execPairEnable (r : Req) (v : Word) (partner : Partner) (s : State) : Answer :=
  .next (s.gated r Reg.LNK_PAIR_CTRL v.toNat fun s => (s.opPairCtrl v.toNat).pairExchange partner)

/-- TAKEOVER (R397): written in SPLIT it runs R396 from step 1. -/
def execTakeover (r : Req) (v : Word) (s : State) : Answer :=
  .next (s.gated r Reg.LNK_PAIR_CTRL v.toNat fun s => s.opPairCtrl v.toNat)

/-- PAIR_FAIL (R396, R397): a protected panel takes over; one that is seeding or overflowed leaves the work to the host. -/
def execPairFail (p : LinkIx) (s : State) : Answer :=
  match s.linkPop p fun x => x.kind == 0x32 && bit x.aux 0 with
  | none => .next s
  | some (_, s1) =>
    let st := s1.pairState
    if st = 3 then .next s1.takeover
    else if st = 2 ∨ st = 4 then
      .next ((s1.setFlag Reg.LNK_FAULT Fld.LNK_FAULT.PAIR_UNPROTECTED true).fault Src.PAIR_UNPROTECTED panelScope 0)
    else .next s1

/-- PAIR_SPLIT (R397): nothing heard on either pair port for 3 µs. -/
def execPairSplit (s : State) : Answer :=
  let st := s.pairState
  if st < 2 ∨ 4 < st ∨ s.now < s.pair.heard + 3000 then .next s
  else .next (((s.setPairState 5).setFlag Reg.LNK_FAULT Fld.LNK_FAULT.PAIR_SPLIT true).fault Src.PAIR_SPLIT panelScope 0)

/-! ### Beats and seeding (R395, R396) -/

/-- The first `n` blocks of a list of ranges. -/
def rangeTake : Nat → List (Nat × Nat) → List Nat × List (Nat × Nat)
  | _, [] => ([], [])
  | n, (b, k) :: l =>
    if n = 0 then ([], (b, k) :: l)
    else if k ≤ n then
      let (x, y) := rangeTake (n - k) l
      ((List.range k).map (b + ·) ++ x, y)
    else ((List.range n).map (b + ·), (b + n, k - n) :: l)

/-- Copy some blocks that are still to be seeded: 193 blocks fill both ports for 1 µs (R392). -/
def State.pairSeed (s : State) : State :=
  let (l, rest) := rangeTake 193 s.pair.seed
  l.foldl (fun s b =>
    let (s1, st, bs) := s.memRead (b * 4096) 4096 none
    if st ≠ St.OK then s1 else s1.pairSend { kind := 0x30, addr := b * 4096, aux := 2, data := bs })
    { s with pair := { s.pair with seed := rest } }

/-- PAIR_BEAT (R395, R396): every 1 µs a PAIR_BEAT goes out on both pair ports, and seeding goes on. -/
def execPairBeat (s : State) : Answer :=
  if s.pairState < 2 ∨ s.now < s.pair.beatAt + 1000 then .next s
  else
    let s1 : State := { s with pair := { s.pair with beatAt := s.now } }
    let s2 := [6, 7].foldl (fun s p => if s.linkLive p then s.linkSend p { kind := 0x32 } else s) s1
    .next (if s2.pairState = 2 then s2.pairSeed else s2)

/-! ### The receiver (R393 to R395) -/

/-- Write bytes at a panel address, piece by piece. -/
def State.writeRange (s : State) (a : Nat) (bs : List Byte) : State :=
  ((pieces a bs.length (bs.length / 4096 + 2)).foldl (fun (x : State × List Byte) (p : Nat × Nat) =>
    ((x.1.memWrite p.1 (x.2.take p.2) none).1, x.2.drop p.2)) (s, bs)).1

/-- The buffer of a stand-in that the pass of the period writes. -/
def State.standInBuffer (s : State) (e b : Nat) : Nat :=
  match SMap.find? (s.eng b).commits (48 + e) with
  | some c => 1 - c.buffer
  | none => 0

/-- MIRROR (R393 to R395): a block goes into a stand-in's buffer, the stage, or while seeding the mirror; none of a later period while
an apply is under way. -/
def execMirror (dest : MirrorTo) (data : Vector Byte 4096) (s : State) : Answer :=
  let st := s.pairState
  if st < 2 ∨ 4 < st ∨ (!s.linkLive 6 ∧ !s.linkLive 7) then .next s
  else match dest with
    | .seed b => match s.mirrorOf (b * 4096) with
      | none => .next s
      | some m => .next (s.writeRange m data.toList)
    | .standin e i =>
      match s.standIns.find? fun p => p.1 == e.val with
      | none => .next s
      | some (_, b) =>
        if s.pair.apply ≠ [] ∨ varnishLenOf (s.stbyBody b) < i.val * 4096 + 4096 then .next s
        else
          let s1 := s.writeRange (nearBase b + s.bufferAt b 0 (s.standInBuffer e b) + i.val * 4096) data.toList
          .next { s1 with pair := { s1.pair with
            passes := if s1.pair.passes.contains e.val then s1.pair.passes else s1.pair.passes ++ [e.val] } }
    | .stage j b =>
      if s.pair.apply ≠ [] ∨ s.stageBlocks ≤ j.val then .next s
      else
        let s1 := s.writeRange (s.stageBase + j.val * 4096) data.toList
        let s2 := s1.writeRange (s1.stageBase + s1.stageBlocks * 4096 + 8 * j.val) (leBytes 8 (b * 4096))
        .next { s2 with pair := { s2.pair with stage := SMap.put s2.pair.stage j b } }

/-- PAIR_COMMIT (R394, R395): a whole commit makes the period's stand-in buffers current and begins the apply; `copied`: the regions
have been copied whole. -/
def execPairCommit (period : Word) (copied : Bool) (s : State) : Answer :=
  let st := s.pairState
  if st < 2 ∨ 4 < st ∨ s.pair.apply ≠ [] then .next s
  else
    let live := s.standIns.filter fun p => s.pair.passes.contains p.1 && s.cvState p.2 == Cv.STANDBY
    let s1 := live.foldl (fun s p => s.onEng p.2 fun g => { g with
      commits := SMap.put g.commits (48 + p.1) ⟨s.standInBuffer p.1 p.2, period.toNat⟩ }) s
    let s2 : State := { s1 with pair := { s1.pair with passes := [], apply := s1.pair.stage, stage := [] } }
    .next (if copied ∧ st = 2 then s2.setPairState 3 else s2)

/-- Copy one entry of the committed stage into the mirror, unless a stand-in has written that block since the takeover. -/
def State.applyEntry (s : State) (x : Nat × Nat) : State :=
  if s.pair.written.contains x.2 then s
  else match s.mirrorOf (x.2 * 4096) with
    | none => s
    | some m =>
      let (s1, st, bs) := s.memRead (s.stageBase + x.1 * 4096) 4096 none
      if st ≠ St.OK then s1 else s1.writeRange m bs

/-- PAIR_APPLY_DONE (R394, R395): the apply ends, is reported to the partner, and MIRROR packets are accepted again. -/
def execPairApplyDone (s : State) : Answer :=
  if s.pair.apply = [] then .next s
  else
    let s1 := s.pair.apply.foldl (fun s x => s.applyEntry x) s
    let s2 : State := { s1 with pair := { s1.pair with apply := [] } }
    .next (if s2.linkLive 6 || s2.linkLive 7 then s2.pairSend { kind := 0x3F, aux := 1 } else s2)

end Sys2Proof.Machine
end

