-- ==== Sys2Proof/Machine/Access.lean ====
section
/-! DEFINITION. The control space as a whole (00_scope R5 to R13): what a write of any register does once it has passed its gate, and
what a read of any register returns. The mailboxes stand in Control.lean. -/
namespace Sys2Proof.Machine

/-- The index of an address in an array of registers. -/
def arrIx (a base stride count : Nat) : Option Nat :=
  if base ≤ a ∧ (a - base) % stride = 0 ∧ (a - base) / stride < count then some ((a - base) / stride) else none

/-- The offset of an address in its engine block. -/
def engOff (a : Nat) : Nat := (a - 0x01000000) % 0x400000

/-! ### Writes -/

/-- A register of DMA queue `q`, at offset `o` of its set. -/
def State.dmaqWrite (s : State) (e q o a v : Nat) : State :=
  match o with
  | 0x04 => s.opDmaqCfg e q v
  | 0x08 => s.dmaSetTail e q (v % 65536)
  | 0x14 => s.opDmaqCtrl e q v
  | _ => s.plainWrite a v

/-- ENG_CHK_FAIL_AT[1]: clearing VALID arms the capture again, and its count starts from 0 (08 R231). -/
def State.chkClear (s : State) (e v : Nat) : State :=
  let a := Reg.ENG_CHK_FAIL_AT e 1
  let s1 := s.plainWrite a v
  if s1.flag a Fld.ENG_CHK_FAIL_AT.VALID then s1 else (s1.wr a 0).wr (Reg.ENG_CHK_FAIL_AT e 0) 0

/-- A register of the hub control block (R11). -/
def State.hubWrite (s : State) (e o a v : Nat) : State :=
  if 0x1000 ≤ o ∧ o < 0x1800 then s.dmaqWrite e ((o - 0x1000) / 0x20) ((o - 0x1000) % 0x20) a v
  else match o with
    | 0x0024 => s.chkClear e v
    | 0x0040 => s.opEngReset e v
    | 0x0804 => s.opCanvasCtrl e v
    | 0x0820 => s.opStbyCover e 0 v
    | 0x0824 => s.opStbyCover e 1 v
    | 0x082C => s.opStbyArm e v
    | 0x0900 => s.opSpmPower e v
    | 0x0904 => s.opSpmZero e v
    | 0x0914 => s.opSpmCtrl e v
    | 0x091C => s.opAcntSeti e v
    | 0x2040 => (s.plainWrite a v).memberSyncOf e
    | 0x2044 => if bit v 0 then s.barArrive e else s
    | 0x2050 => if bit v 0 then s.abortOf e else s
    | _ => s.plainWrite a v

/-- A register of matrix die position `m` (04 R107): the cell windows of a die that is not in use discard writes. -/
def State.dieWrite (s : State) (e m o a v : Nat) : State :=
  if 0x10000 ≤ o ∧ o < 0x7C000 then
    match s.dieAt e m with
    | none => s
    | some d =>
      if (o - 0x10000) % 0x200 = 4 then
        s.onCell e d ((o - 0x10000) / 0x200) fun k => { k with flags := Flags.clear k.flags (BitVec.ofNat 5 v) Flags.none }
      else s.plainWrite a v
  else if o = 0x1004 then s.opFabFault e m v
  else s.plainWrite a v

/-- A register of engine `e`. -/
def State.engWrite' (s : State) (e a v : Nat) : State :=
  let o := engOff a
  if o < 0x40000 then s.hubWrite e o a v
  else if o = 0x40004 ∨ o = 0x40104 then s.rstReg a
  else if o = 0x80028 then s.opPtCmd e v
  else if o = 0xC0000 then s.opVsCtrl e v
  else if o = 0xC0010 then s.rstReg a
  else if o = 0xC0020 then s.opStallCtrl e v
  else if 0x100000 ≤ o ∧ o < 0x380000 then s.dieWrite e ((o - 0x100000) / 0x80000) ((o - 0x100000) % 0x80000) a v
  else s.plainWrite a v

/-- A register of the fault block. -/
def State.fltWrite (s : State) (a v : Nat) : State :=
  if a = Reg.FLT_PIN then (s.plainWrite a v).pinRelease
  else if a = Reg.FLT_INJECT then s.opInject v
  else s.plainWrite a v

/-- A register of the power and thermal blocks. -/
def State.pwrWrite (s : State) (a v : Nat) : State :=
  match arrIx a (Reg.PWR_ENG_CTRL 0) 0x40 48, arrIx a (Reg.PWR_ENG_RES 0) 0x40 48, arrIx a (Reg.THM_ENG_STAT 0) 0x40 48 with
  | some e, _, _ => s.opEngCtrl e v
  | _, some e, _ => if s.pwr e = Pw.OFF then s.plainWrite a v else s
  | _, _, some e => s.opThmEngStat e v
  | _, _, _ =>
    if a = Reg.THM_FLOW_CFG then s.opFlowCfg v
    else if a = Reg.THM_FLOW_CNT then s.rstReg a
    else s.plainWrite a v

/-- A register of the clocks and cadence block. -/
def State.cadWrite (s : State) (r : Req) (a v : Nat) : State :=
  if a = Reg.CAD_CTRL then s.opCadCtrl v
  else if a = Reg.CAD_BEAT_CFG then s.opBeatCfg v
  else if a = Reg.CAD_BEAT_PERIOD then s.opBeatPeriod v
  else if a = Reg.CAD_BEAT_CNT then s.wr a 0
  else if 0x400100 ≤ a ∧ a < 0x400200 ∧ a % 0x10 < 0xC then s.opPartGrid r ((a - 0x400100) / 0x10) (a % 0x10 / 4) v
  else match arrIx a (Reg.CAD_ENG_DROOP 0) 0x40 48, arrIx a (Reg.CAD_ENG_MARGIN 0) 0x40 48, arrIx a (Reg.CAD_ENG_CTRL 0) 0x40 48 with
    | some e, _, _ => s.opDroopClear e
    | _, some e, _ => s.opMarginClear e
    | _, _, some e => s.opRealign e v
    | _, _, _ => s.plainWrite a v

/-- HP_WERR[1]: clearing VALID arms the capture again, and its count starts from 0 (13 R361). -/
def State.werrClear (s : State) (p v : Nat) : State :=
  let a := Reg.HP_WERR p 1
  let s1 := s.plainWrite a v
  if s1.flag a Fld.HP_WERR.VALID then s1 else (s1.wr a 0).wr (Reg.HP_WERR p 0) 0

/-- HP_EVT_CFG: DROPPED counts from the last setting of ENABLE (13 R342, R361). -/
def State.evtCfg (s : State) (p f v : Nat) : State :=
  let a := Reg.HP_EVT_CFG p f
  let was := s.flag a Fld.HP_EVT_CFG.ENABLE
  let s1 := s.plainWrite a v
  if s1.flag a Fld.HP_EVT_CFG.ENABLE && !was then s1.setFld (Reg.HP_EVT_TAIL p f) Fld.HP_EVT_TAIL.DROPPED 0 else s1

/-- A register of a host port. -/
def State.hpWrite (s : State) (a v : Nat) : State :=
  let p := (a - 0x500000) / 0x40000
  let o := (a - 0x500000) % 0x40000
  if 2 ≤ p then s
  else if o = 0x14 then s.werrClear p v
  else match hpSet a with
    | none => s.plainWrite a v
    | some f =>
      if o % 0x40 = 0x14 then s.opQcCmd p f v
      else if o % 0x40 = 0x28 then s.evtCfg p f v
      else if o % 0x40 = 0x34 ∧ f = 0 then s
      else s.plainWrite a v

/-- A register of a feed queue. -/
def State.fqWrite (s : State) (a v : Nat) : State :=
  let p := (a - 0x600000) / 0x1000
  let f := (a - 0x600000) % 0x1000 / 0x10
  if 2 ≤ p ∨ 16 ≤ f then s
  else match a % 0x10 with
    | 0x0 => s.opFqCfg p f v
    | 0x8 => s.wr a 0
    | 0xC => s.opFqCtrl p f v
    | _ => s.plainWrite a v

/-- A register of the link block. -/
def State.lnkWrite (s : State) (a v : Nat) : State :=
  let o := a - 0x700000
  if o < 0x200 then
    match o % 0x40 with
    | 0x04 => s.opLnkPortCtrl (o / 0x40) v
    | 0x10 => s.rstReg a
    | 0x14 => s.rstReg a
    | _ => s.plainWrite a v
  else if 0x500 ≤ o ∧ o < 0x540 then s.rstReg a
  else if 0x1000 ≤ o ∧ o < 0x1800 then
    let c := (o - 0x1000) / 0x20
    match o % 0x20 with
    | 0x14 => s.opCollCtrl c v
    | 0x00 => s.opCollCfg c 0 v
    | 0x04 => s.opCollCfg c 1 v
    | 0x08 => s.opCollCfg c 2 v
    | 0x0C => s.opCollCfg c 3 v
    | _ => s.plainWrite a v
  else if a = Reg.LNK_PAIR_CTRL then s.opPairCtrl v
  else match arrIx a (Reg.LNK_EXPEL 0) 4 16 with
    | some i => s.opLnkExpel i v
    | none => s.plainWrite a v

/-- A register of a guest site. -/
def State.skWrite (s : State) (a v : Nat) : State :=
  match arrIx a (Reg.SK_GUEST_CTRL 0) 0x100 4, arrIx a (Reg.SK_GUEST_ERR 0) 0x100 4 with
  | some g, _ => s.opGuestCtrl g v
  | _, some _ => (s.plainWrite a v).setFld a Fld.SK_GUEST_ERR.BAD 0
  | _, _ => s.plainWrite a v

/-- A write of LOG_UTC: word 1 commits the value with the master count of the moment (20 R529). -/
def State.opLogUtc (s : State) (n v : Nat) : State :=
  let s1 := s.plainWrite (Reg.LOG_UTC n) v
  if n = 0 then s1
  else
    let t := s1.ticks
    let s2 := (s1.wr (Reg.LOG_UTC_AT 0) (t % 2 ^ 32)).wr (Reg.LOG_UTC_AT 1) (t / 2 ^ 32)
    { s2 with utc := some (s2.rdN (Reg.LOG_UTC 0) + 2 ^ 32 * s2.rdN (Reg.LOG_UTC 1), t) }

/-- What a write of register `a` does once it has passed its gate. A write to an offset that holds no register is discarded (R12). -/
def State.coreWrite (s : State) (r : Req) (a v : Nat) : State :=
  if inEngine a then s.engWrite' (engineOf a) a v
  else match a / 0x100000 with
    | 0 => if a = Reg.PNL_RESET then s.opPnlReset r v else s.plainWrite a v
    | 1 => if a = Reg.EZ_STEP then s.opEzStep r v else s.plainWrite a v
    | 2 => s.fltWrite a v
    | 3 => s.pwrWrite a v
    | 4 => s.cadWrite r a v
    | 5 => s.hpWrite a v
    | 6 => s.fqWrite a v
    | 7 => s.lnkWrite a v
    | 8 => s.skWrite a v
    | 9 =>
      if a = Reg.LOG_UTC 0 then s.opLogUtc 0 v else if a = Reg.LOG_UTC 1 then s.opLogUtc 1 v else s.plainWrite a v
    | _ => s

/-- A requester's 32-bit write of a register, through its gate. -/
def State.regWrite (s : State) (r : Req) (a v : Nat) : State :=
  if inEngine a ∧ engOff a = 0x80028 then s.ptCmdWrite r (engineOf a) v
  else s.gated r a v fun s => s.coreWrite r a v

/-- The second register of a 64-bit write: its entry in the change record has been made with the first. -/
def State.regWriteHi (s : State) (r : Req) (a v : Nat) : State :=
  let (s1, ok) := s.gateAs r a v false
  if ok then s1.coreWrite r a v else s1

/-- A requester's 64-bit write: the lower address first, and one entry of the change record with the value whole (R8; 20 R528). -/
def State.regWrite64 (s : State) (r : Req) (a v : Nat) : State :=
  let (s1, ok) := s.gateAs r a v (protectedReg a || protectedReg (a + 4))
  let s2 := if ok then s1.coreWrite r a (v % 2 ^ 32) else s1
  if s.reqLive r && s.mayWrite r a && !((protectedReg a || protectedReg (a + 4)) && decide (4032 ≤ s.capture.length))
  then s2.regWriteHi r (a + 4) (v / 2 ^ 32)
  else s2

/-- LOG_UTC_COMMIT (20 R529). -/
def execLogUtcCommit (r : Req) (v : Word) (s : State) : Answer :=
  .next (s.gated r (Reg.LOG_UTC 1) v.toNat fun s => s.opLogUtc 1 v.toNat)

/-! ### Reads -/

/-- CEL_STATE.RUN (04 R108): a cell that has no iteration in progress and has not started shows as waiting. -/
def State.cellRun (s : State) (e d c : Nat) : Nat :=
  let k := s.cell e d c
  let st := s.cvState e
  if k.held then 6
  else if st = Cv.EMPTY ∨ st = Cv.LOADING then 0
  else if k.faulted then 5
  else if k.ended then 4
  else match s.fld (Reg.CEL_STALL_WHY e (s.posOf e d) c) Fld.CEL_STALL_WHY.REASON with
    | 1 => 3
    | 3 => 1
    | 4 => 1
    | 0 => if st = Cv.RUNNING then 1 else 2
    | _ => 2

/-- A register of the cell window of a logical cell, at offset `o` of it. -/
def State.cellRead (s : State) (e d c o a : Nat) : Nat :=
  let k := s.cell e d c
  if o = 0x000 then k.iter % 65536 * 65536 + s.cellRun e d c * 4096 + s.glaze e % 8 * 256 + k.slot % 256
  else if o = 0x004 then k.flags.toNat
  else if 0x040 ≤ o ∧ o < 0x080 then (SMap.getD k.acnt ((o - 0x040) / 4) 0#32).toNat
  else if 0x080 ≤ o ∧ o < 0x100 then (sreg k.sregs ((o - 0x080) / 4)).toNat
  else s.rdN a

/-- The place of a logical cell at a position, as CEL_LMAP shows it: column in bits 4:0, row in bits 9:5. -/
def State.lmapAt (s : State) (e m c : Nat) : Nat :=
  let p := physOf (s.badCells e m) (c % 32) (c / 32)
  p.1 + 32 * p.2

/-- FAB_QOCC: entries of the four vector queues, each saturating at 255 (05 R136). -/
def State.qocc (s : State) (e d c : Nat) : Nat :=
  ((List.range 4).map fun q =>
    let x := s.queue e d c q
    min 255 (x.base.length + x.extN) * 2 ^ (8 * q)).sum

/-- A register of matrix die position `m`. -/
def State.dieRead (s : State) (e m o a : Nat) : Nat :=
  if 0x10000 ≤ o ∧ o < 0x7C000 then
    match s.dieAt e m with
    | none => 0xFFFFFFFF
    | some d => s.cellRead e d ((o - 0x10000) / 0x200) ((o - 0x10000) % 0x200) a
  else if 0x400 ≤ o ∧ o < 0xAC0 then
    let k := (o - 0x400) / 4
    s.lmapAt e m (2 * k) + 65536 * s.lmapAt e m (2 * k + 1)
  else if 0x2000 ≤ o ∧ o < 0x2000 + 4 * 864 then
    match s.dieAt e m with
    | none => 0
    | some d => s.qocc e d ((o - 0x2000) / 4)
  else s.rdN a

/-- NET_RT_POS (11 R298): the outputs of the ground image, and whether the position is down. -/
def State.rtPos (s : State) (e p : Nat) : Nat :=
  bits (s.routeWord e p) 17 0 + 2 ^ 18 * b2n (s.posDown p || (s.eng e).lost.contains p)

/-- NET_RT_REMOTE (11 R281, R298). -/
def State.rtRemote (s : State) (k n : Nat) : Nat :=
  let o := 0x410 + 8 * k
  if n = 0 then leAt s.ground.routes o 4
  else byteAt s.ground.routes (o + 4) % 64 + 2 ^ 31 * (byteAt s.ground.routes (o + 5) % 2)

/-- A register of engine `e` that is up. -/
def State.engRead' (s : State) (e a : Nat) : Nat :=
  let o := engOff a
  if 0x2400 ≤ o ∧ o < 0x2800 then SMap.getD s.edgeFeid ((o - 0x2400) / 4) 0 % 256
  else if 0x2800 ≤ o ∧ o < 0x2900 then s.rtPos e ((o - 0x2800) / 4)
  else if 0x2900 ≤ o ∧ o < 0x2980 then s.rtRemote ((o - 0x2900) / 8) ((o - 0x2900) / 4 % 2)
  else if 0x80044 ≤ o ∧ o < 0x80064 then
    let id := s.fld (Reg.PT_CTX_SEL e) Fld.PT_CTX_SEL.ID
    leAt ((s.ctx e id).bytes id) (o - 0x80044) 4
  else if 0xD0000 ≤ o ∧ o < 0xD4000 then
    if s.flag (Reg.VS_STATUS e) Fld.VS_STATUS.READY then
      leAt ((s.eng e).study.record e ((o - 0xD0000) / 0x400)) ((o - 0xD0000) % 0x400) 4
    else 0
  else if 0x100000 ≤ o ∧ o < 0x380000 then s.dieRead e ((o - 0x100000) / 0x80000) ((o - 0x100000) % 0x80000) a
  else s.rdN a

/-- The 16 bytes of a fault record (18 R468). -/
def FaultRec.bytes (r : FaultRec) : List Byte :=
  leBytes 8 r.time ++ leBytes 1 r.source ++ leBytes 1 r.engine ++ leBytes 1 r.severity ++ leBytes 1 r.cls ++ leBytes 4 r.detail

/-- The record that FLT_LOG_SEL names, if the log holds it (18 R488). -/
def State.logSel (s : State) : Option FaultRec :=
  let n := s.faultLog.length
  let tail := s.fld Reg.FLT_LOG_STAT Fld.FLT_LOG_STAT.TAIL
  let back := (tail + 65536 - s.fld Reg.FLT_LOG_SEL Fld.FLT_LOG_SEL.INDEX) % 512
  let b := if back = 0 then 512 else back
  if b ≤ n then s.faultLog[n - b]? else none

/-- Engines in service. -/
def State.inServiceCount (s : State) : Nat := ((List.range 48).filter fun e => s.engState e == 5).length

/-- The value that a read of register `a` finds (R5, R12, R13). -/
def State.viewRead (s : State) (a : Nat) : Nat :=
  if inEngine a then
    (if s.engineUp (engineOf a) then s.engRead' (engineOf a) a else 0xFFFFFFFF)
  else if a = Reg.PNL_BOOT then putBits (s.rdN a) 15 10 s.inServiceCount
  else if a = Reg.PWR_BUDGET then putBits (s.rdN a) 31 16 s.heldWatts
  else if a = Reg.CAD_MASTER 0 then s.ticks % 2 ^ 32
  else if a = Reg.CAD_MASTER 1 then s.ticks / 2 ^ 32
  else if 0x200328 ≤ a ∧ a < 0x200338 then
    match s.logSel with
    | some x => leAt x.bytes (a - 0x200328) 4
    | none => 0
  else if 0x401000 ≤ a ∧ a < 0x401C00 then
    let e := (a - 0x401000) / 0x40
    match a % 0x40 with
    | 0x10 => s.engTicks e % 2 ^ 32
    | 0x14 => s.engTicks e / 2 ^ 32
    | 0x20 => min (s.lag e) (2 ^ 32 - 1)
    | _ => s.rdN a
  else if a < 0x10000000 then s.rdN a
  else 0

/-- Whether reading a register latches the next one (12 R308, R324; 20 R532). -/
def latchReg (a : Nat) : Bool :=
  a == Reg.CAD_MASTER 0 || a == Reg.CAD_BEAT_LAST 0 || a == Reg.SEC_SIG_INDEX 0 || a == Reg.LOG_SEQ 0 || a == Reg.LOG_UTC_AT 0
    || (arrIx a (Reg.CAD_ENG_COUNT 0 0) 0x40 48).isSome

/-- A read of register `a` with its latch: word 0 of a pair latches word 1 for the next read of it (12 R308). -/
def State.latchRead (s : State) (a : Nat) : State × Nat :=
  match SMap.find? s.latches a with
  | some w => ({ s with latches := SMap.erase s.latches a }, w.toNat)
  | none =>
    let s1 := if latchReg a then { s with latches := SMap.put s.latches (a + 4) (BitVec.ofNat 32 (s.viewRead (a + 4))) } else s
    (s1, s.viewRead a)

end Sys2Proof.Machine
end

