-- ==== Sys2Proof/Machine/Easel.lean ====
section
/-! DEFINITION. Easel's own work (20_easel_security_record R500 to R507, R525 to R531): the load window, takeovers, the change record, the
defect list, telemetry and verdicts. -/
namespace Sys2Proof.Machine

/-- Change the Easel dies' state. -/
def State.onEasel (s : State) (f : Easel → Easel) : State := { s with easel := f s.easel }

/-- Whether Easel's duties run: its firmware runs, has not stopped for want of a standby, and no takeover waits to be resumed (R505, R506). -/
def State.duties (s : State) : Bool := s.easel.running && !s.easel.stopped && s.easel.takeoverAt.isNone

/-! ### Load and shedding (R502) -/

/-- EZ_INFO.SHED. -/
def State.shed (s : State) : Nat := s.fld Reg.EZ_INFO Fld.EZ_INFO.SHED

/-- EASEL_LOAD_WINDOW (R502): the share of busy cycles of the 10 ms window that ends now, in per cent. -/
def execEaselLoadWindow (load : Fin 101) (s : State) : Answer :=
  if !s.duties then .next s
  else if 90 ≤ load.val then
    let s1 := (s.setFld Reg.EZ_INFO Fld.EZ_INFO.SHED (min 3 (s.shed + 1))).onEasel fun x => { x with coolSince := none }
    .next (if s.shed = 0 then s1.fault Src.EASEL_SHED panelScope 0 else s1)
  else if 70 ≤ load.val then .next (s.onEasel fun x => { x with coolSince := none })
  else
    let since := s.easel.coolSince.getD (s.now - 10000000)
    if since + 100000000 ≤ s.now then
      .next ((s.setFld Reg.EZ_INFO Fld.EZ_INFO.SHED (s.shed - 1)).onEasel fun x => { x with coolSince := some s.now })
    else .next (s.onEasel fun x => { x with coolSince := some since })

/-! ### The session (R520) -/

/-- Change the session. -/
def State.onSession (s : State) (f : Session → Session) : State := { s with session := f s.session }

/-- The session closes, with its entry in the change record. -/
def State.sessionClose (s : State) : State :=
  if !s.session.isOpen then s
  else ((s.onSession fun x => { x with isOpen := false, nonce := none }).captureEvent 7 6 0 [] 1).roleShow

/-- SESSION_IDLE (R520): 10 minutes without a frame. -/
def execSessionIdle (s : State) : Answer :=
  if !s.session.isOpen ∨ s.now < s.session.at' + 600000000000 then .next s else .next s.sessionClose

/-! ### Takeovers (R504 to R507) -/

/-- What a takeover does by its t0 + 1 µs: the roles of the dies are exchanged, a delivery and a session end, and unused indices of the
key block are given up (R505, R514, R520). `cause`: 1 heartbeat, 2 die fault, 3 planned. -/
def State.takeoverBegin (s : State) (cause : Nat) : State :=
  let act := 1 - s.fld Reg.EZ_INFO Fld.EZ_INFO.ACTIVE
  let s1 := (s.setFld Reg.EZ_INFO Fld.EZ_INFO.ACTIVE act).setFld Reg.EZ_TAKEOVER Fld.EZ_TAKEOVER.CAUSE cause
  let s2 := s1.satFld Reg.EZ_TAKEOVER (if cause = 3 then Fld.EZ_TAKEOVER.PLANNED else Fld.EZ_TAKEOVER.UNPLANNED) 1
  let s3 := (s2.captureEvent 0x0B cause act [] 1).sessionClose
  { s3 with
    delivery := none
    easel := { s3.easel with takeoverAt := some s3.now, sigNext := s3.flash.journal } }

/-- EASEL_TAKEOVER (R504 to R506): an unplanned takeover by heartbeat (0) or die fault (1); without a standby the duties stop. -/
def execEaselTakeover (cause : Fin 2) (s : State) : Answer :=
  if !s.duties then .next s
  else if !s.flag Reg.EZ_INFO Fld.EZ_INFO.STANDBY_OK then .next (s.onEasel fun x => { x with stopped := true })
  else
    let s1 := (s.takeoverBegin (cause.val + 1)).setFlag Reg.EZ_INFO Fld.EZ_INFO.STANDBY_OK false
    .next ((s1.onEasel fun x => { x with former := true }).fault Src.EASEL_TAKEOVER panelScope 0)

/-! ### The mailbox buffers and the answer (R516, R517) -/

/-- A response: STATUS, RETRY_US, DETAIL and payload. -/
structure MbResp where
  status : Nat
  data : List Byte := []
  detail : Nat := 0
  retry : Nat := 0
  deriving DecidableEq, Repr

/-- The statuses of R517. -/
def Mb.OK : Nat := 0
def Mb.BUSY : Nat := 1
def Mb.BAD_OP : Nat := 2
def Mb.BAD_ARGS : Nat := 3
def Mb.ACCESS : Nat := 4
def Mb.STATE : Nat := 5
def Mb.REJECTED : Nat := 6
def Mb.FLASH : Nat := 7
def Mb.TAKEOVER : Nat := 8
def Mb.AUTH : Nat := 9
def Mb.KEY_EXHAUSTED : Nat := 0xA

/-- The bytes of a response. -/
def MbResp.bytes (x : MbResp) (seq : Nat) : List Byte :=
  leBytes 1 x.status ++ leBytes 1 0 ++ leBytes 2 x.retry ++ leBytes 4 x.detail ++ leBytes 4 x.data.length ++ leBytes 4 seq ++ x.data

/-- Where port `p`'s request and response buffers stand in the store of the mailboxes. -/
def mbReqAt (p : Nat) : Nat := p * 0x10000
def mbRspAt (p : Nat) : Nat := p * 0x10000 + 0x8000

/-- A response is put in a port's buffer, with DONE and the vector. -/
def State.mbDone (s : State) (p seq : Nat) (x : MbResp) : State :=
  let a := Reg.EZ_MB_STAT p
  let s1 : State := { s with mbox := Memory.writeN s.mbox (mbRspAt p) (x.bytes seq) }
  let s2 := ((s1.setFlag a Fld.EZ_MB_STAT.BUSY false).setFlag a Fld.EZ_MB_STAT.DONE true).setFld a Fld.EZ_MB_STAT.STATUS x.status
  let s3 := if x.status = Mb.BUSY then s2.setFld a Fld.EZ_MB_STAT.RETRY_US x.retry else s2
  let c := Reg.EZ_MB_CTRL p
  if s3.flag c Fld.EZ_MB_CTRL.IRQ_EN then s3.signal p 0 (s3.fld c Fld.EZ_MB_CTRL.VECTOR) else s3

/-- The SEQ of the request that stands in a port's buffer. -/
def State.mbSeq (s : State) (p : Nat) : Nat := leNat (Memory.readN s.mbox (mbReqAt p + 8) 4)

/-- EASEL_RESUME (R505): the new active firmware resumes the duties, and answers what was in progress with TAKEOVER. -/
def execEaselResume (s : State) : Answer :=
  if s.easel.takeoverAt.isNone then .next s
  else
    let s1 := s.onEasel fun x => { x with takeoverAt := none }
    .next ([0, 1].foldl (fun (s : State) p =>
      if s.flag (Reg.EZ_MB_STAT p) Fld.EZ_MB_STAT.BUSY then s.mbDone p (s.mbSeq p) { status := Mb.TAKEOVER } else s) s1)

/-! ### The change record (R526 to R531) -/

/-- UTC of an entry (R529). -/
def State.utcOf (s : State) (time : Nat) : Nat :=
  match s.utc with
  | none => 0
  | some (v, t) => ofSigned 64 ((v : Int) + (time : Int) - (t : Int))

/-- Bytes 0 to 95 of an entry (R528). -/
def State.entryHead (s : State) (seq : Nat) (x : CapEntry) : List Byte :=
  leBytes 8 seq ++ leBytes 8 x.time ++ leBytes 8 (s.utcOf x.time) ++ leBytes 1 x.kind ++ leBytes 1 x.origin ++ leBytes 2 x.originId
    ++ leBytes 4 x.result ++ leBytes 8 x.subject ++ leBytes 8 x.value ++ slice x.digest 0 32 ++ leBytes 16 0

/-- What LINK of the next entry covers before it: the last LINK, or the origin value (R530). -/
def Flash.prevLink (f : Flash) : List Byte := if f.seq = 0 then shake (slice Config.deviceKey 0 68) else f.link

/-- One entry reaches flash: it is chained, the slot of the entry 524,288 earlier is overwritten, and an entry whose SEQ ends its 4,096 is
signed; the last 128 signatures are kept (R526, R530). -/
def State.logPut (s : State) (x : CapEntry) : State :=
  let q := s.flash.seq
  let head := s.entryHead q x
  let link := shake (s.flash.prevLink ++ head)
  let s1 := s.onFlash fun f => { f with
    seq := q + 1
    link := link
    record := SMap.put (if 524288 ≤ q then SMap.erase f.record (q - 524288) else f.record) q (head ++ link) }
  if q % 4096 ≠ 4095 then s1
  else
    let (s2, sig) := s1.devSign (shake (leBytes 8 q ++ link))
    match sig with
    | none => s2
    | some g => s2.onFlash fun f =>
      let l := f.checkpoints ++ [⟨q, link, g⟩]
      { f with checkpoints := l.drop (l.length - 128) }

/-- The first `n` entries of the FIFO reach flash. -/
def State.drain (s : State) : Nat → State
  | 0 => s
  | n + 1 => match s.capture with
    | [] => s
    | x :: t => ({ s.logPut x with capture := t }).drain n

/-- When room has returned, one GAP entry tells what was refused and lost (R527). -/
def State.gapEntry (s : State) : State :=
  if 4032 ≤ s.capture.length ∨ (s.gapWrites = 0 ∧ s.gapEvents = 0) then s
  else { s.capPush ⟨s.ticks, 0x0E, 4, 0, 0, s.gapWrites, s.gapEvents, []⟩ with gapWrites := 0, gapEvents := 0 }

/-- LOG_DRAIN (R527, R530): `n` entries of the FIFO, oldest first. -/
def execLogDrain (n : Fin 4097) (s : State) : Answer :=
  if !s.duties then .next s
  else
    let s1 := (s.drain n).seqShow
    .next (s1.setFld Reg.LOG_STAT Fld.LOG_STAT.LEVEL s1.capture.length).gapEntry

/-! ### The defect list and telemetry -/

/-- DEFECT_APPEND (17 R451): the oldest finding that waits is appended, and the list is signed again. -/
def execDefectAppend (s : State) : Answer :=
  match s.defectQ with
  | [] => .next s
  | d :: t => if !s.duties then .next s else .next ({ s with defectQ := t }.appendDefect d)

/-- A register as 4 bytes of a response. -/
def State.regBytes (s : State) (a : Nat) : List Byte := leBytes 4 (s.viewRead a)

/-- A telemetry sample, 1,176 bytes (R518). -/
def State.sample (s : State) : List Byte :=
  leBytes 8 s.ticks
    ++ (List.range 48).flatMap (fun e => s.regBytes (Reg.THM_ENG_TEMP e) ++ s.regBytes (Reg.PWR_ENG_DRAW e) ++ s.regBytes (Reg.CAD_ENG_CLK e)
      ++ s.regBytes (Reg.CAD_ENG_LAG e) ++ s.regBytes (Reg.PWR_ENG_STAT e) ++ s.regBytes (Reg.PNL_ENG_STATE e))
    ++ s.regBytes Reg.THM_COOLANT ++ s.regBytes Reg.THM_FLOW ++ s.regBytes Reg.PWR_INPUT ++ s.regBytes Reg.PWR_BUDGET

/-- TELEMETRY_SAMPLE (R500, R518): every 1 ms, or every 100 ms at shed level 3. The history keeps what its 256 MiB hold (R512). -/
def execTelemetrySample (s : State) : Answer :=
  let gap := if s.shed = 3 then 100000000 else 1000000
  if !s.duties ∨ s.now < s.easel.telemetryAt + gap then .next s
  else
    let x := s.sample
    let s1 := s.onEasel fun y => { y with telemetry := x, telemetryAt := s.now }
    .next (s1.onFlash fun f => { f with history := (f.history ++ [x]).drop (f.history.length + 1 - 228261) })

/-! ### Verdicts (14 R389, R390; R525) -/

/-- The manager set of LNK_QUORUM. -/
def State.managers (s : State) : List Nat :=
  let n := s.fld Reg.LNK_QUORUM Fld.LNK_QUORUM.SIZE
  (List.range (if n = 5 ∨ n = 7 then n else 3)).map fun i =>
    let w := s.rdN (Reg.LNK_QUORUM_MGR (i / 2))
    if i % 2 = 0 then w % 65536 else w / 65536

/-- The TAG of a verdict: over its first 32 bytes under the chain key. -/
def verdictTag (key head : List Byte) : List Byte := kmac key head ("LMY VERDICT".toUTF8.toList.map fun c => BitVec.ofNat 8 c.toNat)

/-- Whether Easel takes a verdict: TAG, MANAGER and EPOCH (R390). -/
def State.verdictOk (s : State) (x : List Byte) : Bool :=
  match s.flash.chainKey with
  | none => false
  | some k =>
    verdictTag k (slice x 0 32) == slice x 32 32 && s.managers.contains (leAt x 2 2)
      && (match SMap.find? s.easel.epochs (leAt x 0 2) with
        | none => true
        | some e => decide (e < leAt x 4 4))

/-- Easel expels a panel: a free LNK_EXPEL entry, the entries of the change record, and what the ports do (R390, R525). -/
def State.expel (s : State) (panel epoch : Nat) : State :=
  let s1 := s.onEasel fun x => { x with
    epochs := SMap.put x.epochs panel epoch
    verdicts := x.verdicts.filter fun (v : Nat × Nat × Nat) => v.1 != panel || decide (epoch < v.2.1) }
  match (List.range 16).find? fun i => !s1.flag (Reg.LNK_EXPEL i) Fld.LNK_EXPEL.VALID with
  | none => s1
  | some i =>
    let w := 2 ^ 31 + panel
    let s2 := (s1.captureEvent 1 (Reg.LNK_EXPEL i) w [] 1).wr (Reg.LNK_EXPEL i) w
    (s2.captureEvent 0x0D panel epoch [] 1).expelPorts panel

/-- VERDICT_CHECK (R390, R525): the oldest verdict that waits. -/
def execVerdictCheck (s : State) : Answer :=
  match s.verdictIn with
  | [] => .next s
  | x :: t =>
    if !s.duties then .next s
    else
      let s1 : State := { s with verdictIn := t }
      if !s1.verdictOk x then .next (s1.satFld Reg.LNK_QUORUM Fld.LNK_QUORUM.BAD 1)
      else
        let v : Nat × Nat × Nat := (leAt x 0 2, leAt x 4 4, leAt x 2 2)
        let l := if s1.easel.verdicts.contains v then s1.easel.verdicts else s1.easel.verdicts ++ [v]
        let s2 := s1.onEasel fun y => { y with verdicts := l }
        let votes := (l.filter fun (u : Nat × Nat × Nat) => u.1 == v.1 && u.2.1 == v.2.1).length
        .next (if s2.managers.length < 2 * votes then s2.expel v.1 v.2.1 else s2)

end Sys2Proof.Machine
end

