-- ==== Sys2Proof/Machine/Mailbox.lean ====
section
/-! DEFINITION. The mailbox operations (20_easel_security_record R507 to R511, R515 to R525, R531): rights, image deliveries, identity,
roles and keys, the record, registers and sessions; over the host mailboxes, the management port and the I3C sideband. -/
namespace Sys2Proof.Machine

/-! ### Rights (R520 to R522) -/

/-- Whether the boot ROM waits for firmware on the management port (R510). -/
def State.romWaits (s : State) : Bool := !s.easel.running && s.bootState == 1

/-- Whether the role of a source allows an operation. -/
def State.mbMay (s : State) (src : MbSrc) (op : Nat) : Bool :=
  let info := [0x01, 0x02, 0x03]
  let log := [0x30, 0x31, 0x32, 0x33]
  let owner := [0x10, 0x11, 0x12, 0x13, 0x14, 0x20, 0x23, 0x24, 0x25, 0x26, 0x40]
  let service := [0x10, 0x11, 0x12, 0x13, 0x14, 0x22, 0x26, 0x40, 0x50, 0x51, 0x60, 0x61, 0x62]
  match src with
  | .port p =>
    info.contains op || log.contains op || (owner.contains op && s.flash.owner == p.val)
      || (op == 0x21 && (match s.easel.handover with
        | none => true
        | some (q, _) => q == p.val))
  | .mgmt =>
    if s.romWaits then [0x10, 0x11, 0x12].contains op
    else if s.session.isOpen then info.contains op || log.contains op || service.contains op
    else info.contains op || op == 0x60 || op == 0x61
  | .i3c => op == 0x01 || op == 0x33

/-- The opcodes of R518. -/
def mbKnown (op : Nat) : Bool :=
  [0x01, 0x02, 0x03, 0x10, 0x11, 0x12, 0x13, 0x14, 0x20, 0x21, 0x22, 0x23, 0x24, 0x25, 0x26, 0x30, 0x31, 0x32, 0x33, 0x40, 0x50, 0x51, 0x60,
    0x61, 0x62].contains op

/-- The requester of a source. -/
def mbReq : MbSrc → Req
  | .port p => .host p 0
  | _ => .service

/-- The number of a source, as a delivery holds it. -/
def mbNo : MbSrc → Nat
  | .port p => p.val
  | .mgmt => 2
  | .i3c => 3

/-- An entry of the change record for a change that a request makes. -/
def State.mbEntry (s : State) (src : MbSrc) (kind subject value : Nat) (digest : List Byte := []) (result : Nat := 0) : State :=
  let o := reqOrigin (mbReq src)
  s.captureEvent kind subject value digest o.1 o.2 result

/-! ### The payloads (R518) -/

/-- Whether a payload has the length and the ranges of its operation. -/
def mbArgsOk (op : Nat) (x : List Byte) : Bool :=
  let n := x.length
  match op with
  | 0x03 => n == 32
  | 0x10 => n == 8 && zeroAt x 1 3 && (match byteAt x 0 with
    | 1 => decide (leAt x 4 4 ≤ 0x100000)
    | 2 => decide (leAt x 4 4 ≤ 0x4000000)
    | 3 => leAt x 4 4 == 2884
    | _ => false)
  | 0x11 => decide (8 ≤ n) && zeroAt x 4 4
  | 0x20 => n == 1 && decide (byteAt x 0 ≤ 1)
  | 0x22 => n == 1 && decide (byteAt x 0 ≤ 1)
  | 0x23 => n == 32
  | 0x24 => n == 72 && decide (1 ≤ byteAt x 0 ∧ byteAt x 0 ≤ 3) && zeroAt x 1 3
  | 0x25 => n == 32
  | 0x30 => n == 10 && decide (1 ≤ leAt x 8 2 ∧ leAt x 8 2 ≤ 255)
  | 0x31 => n == 8
  | 0x32 => n == 6 && decide (1 ≤ leAt x 4 2 ∧ leAt x 4 2 ≤ 2043)
  | 0x40 => n == 9 && zeroAt x 2 2
  | 0x50 => n == 8 && leAt x 0 4 % 4 == 0 && decide (leAt x 0 4 < 0x10000000)
  | 0x51 => n == 8 && leAt x 0 4 % 4 == 0 && decide (leAt x 0 4 < 0x10000000)
  | 0x61 => n == 32
  | _ => n == 0

/-! ### Identity (R513, R515) -/

/-- A 32-byte digest, or zeros. -/
def digest32 (o : Option (List Byte)) : List Byte := slice (o.getD []) 0 32

/-- Per engine 48 bytes of the report. -/
def State.reportEngine (s : State) (e : Nat) : List Byte :=
  let cv := (s.eng e).canvas
  let empty := s.cvState e == Cv.EMPTY
  leBytes 1 (s.engState e) ++ leBytes 1 (s.cvState e) ++ leBytes 6 0 ++ leBytes 8 (if empty then 0 else cv.image)
    ++ (if empty then leBytes 32 0 else slice cv.digest 0 32)

/-- The body of an attestation report, 2,576 bytes. -/
def State.report (s : State) (nonce : List Byte) : List Byte :=
  let f := s.flash
  let fw := SMap.getD f.slots s.easel.slot ⟨0, 0, 0, []⟩
  [0x4C#8, 0x4D#8, 0x41#8, 0x52#8] ++ leBytes 2 0x0100
    ++ leBytes 2 (b2n s.supervised + 2 * b2n s.halted + 4 * b2n (!s.flag Reg.EZ_INFO Fld.EZ_INFO.STANDBY_OK))
    ++ slice nonce 0 32 ++ leBytes 8 Config.serial.toNat ++ leBytes 8 s.ticks
    ++ slice fw.digest 0 32 ++ leBytes 4 fw.svn ++ leBytes 4 f.minSvn
    ++ digest32 (if s.ground.valid then some s.ground.digest else none) ++ digest32 (f.pendingGround.map (·.digest))
    ++ shake s.defectBytes ++ leBytes 4 f.defects.length
    ++ leBytes 1 f.owner ++ leBytes 1 (b2n f.token.isSome + 2 * b2n s.session.isOpen) ++ leBytes 2 0
    ++ leBytes 8 (f.seq - 1) ++ slice f.link 0 32
    ++ shake ((List.range 4).flatMap fun g => slice (SMap.getD f.quals g []) 0 2884)
    ++ (List.range 48).flatMap s.reportEngine

/-- ATTEST: the report with its signature. -/
def State.mbAttest (s : State) (nonce : List Byte) : State × MbResp :=
  let body := s.report nonce
  let (s1, sig) := s.devSign (shake body)
  match sig with
  | none => (s1, { status := Mb.KEY_EXHAUSTED })
  | some g => (s1, { status := Mb.OK, data := body ++ g })

/-! ### Image deliveries (R509 to R511, R519) -/

/-- How far the pieces cover an image without a gap from `pos` on. -/
def covered (cs : List (Nat × List Byte)) : Nat → Nat → Nat
  | 0, pos => pos
  | n + 1, pos =>
    match cs.find? fun (c : Nat × List Byte) => decide (c.1 ≤ pos ∧ pos < c.1 + c.2.length) with
    | none => pos
    | some c => covered cs n (c.1 + c.2.length)

/-- The image that the pieces make. -/
def Delivery.bytes (d : Delivery) : List Byte :=
  d.chunks.foldl (fun b (c : Nat × List Byte) => overlay b c.1 c.2) (List.replicate d.total 0#8)

/-- Whether the pieces cover the image. -/
def Delivery.whole (d : Delivery) : Bool := decide (d.total ≤ covered d.chunks d.chunks.length 0)

/-- BODY_LEN, SVN and MIN_SVN of a firmware image. -/
def fwBody (b : List Byte) : Nat := leAt b 0x10 4
def fwSvn (b : List Byte) : Nat := leAt b 0x08 4
def fwMinSvn (b : List Byte) : Nat := leAt b 0x0C 4

/-- ROLLBACK (R517). -/
def Code.ROLLBACK : Nat := 0x20

/-- The check code of a firmware image (R509, R510). -/
def fwCode (b : List Byte) (minSvn : Nat) : Nat :=
  let n := fwBody b
  firstFail [
    (Code.BAD_HEADER, b.take 4 == [0x4C#8, 0x4D#8, 0x46#8, 0x57#8] && decide (64 ≤ n) && n % 64 == 0 && decide (n ≤ 0x4000000 - 4096)
      && decide (fwMinSvn b ≤ fwSvn b)),
    (Code.BAD_LAYOUT, b.length == n + 2852 && zeroAt b 0x14 44),
    (Code.DIGEST, shake (b.take n) == slice b n 32),
    (Code.SIG_INVALID, Config.xmssVerify Config.vendorKey1 (slice b n 32) (slice b (n + 32) 2820)),
    (Code.ROLLBACK, decide (minSvn ≤ fwSvn b))]

/-- The check code of a qualification record (R511). -/
def qualCode (b : List Byte) : Nat :=
  firstFail [
    (Code.BAD_HEADER, b.take 4 == [0x4C#8, 0x4D#8, 0x51#8, 0x52#8] && decide (byteAt b 4 ≤ 3)),
    (Code.BAD_LAYOUT, zeroAt b 40 24),
    (Code.SIG_INVALID, Config.xmssVerify Config.vendorKey1 (shake (b.take 64)) (slice b 64 2820)),
    (Code.KEY_DENIED, leAt b 16 8 == 0 || leAt b 16 8 == Config.serial.toNat)]

/-- The key that a ground image's KEY_SLOT names, if it is held (R508). -/
def State.groundKey (s : State) (b : List Byte) : Option (List Byte) :=
  if keySlot b = 0 then some Config.vendorKey1 else SMap.find? s.flash.ownerKeys (keySlot b)

/-- The answer to an image: its check code. -/
def imageResp (code : Nat) : MbResp := { status := if code = 0 then Mb.OK else Mb.REJECTED, detail := code }

/-- A whole image of a kind is checked, and written to flash when it passes. -/
def State.mbImage (s : State) (src : MbSrc) (kind : Nat) (b : List Byte) (flashOk : Bool) : State × MbResp :=
  let code := match kind with
    | 1 => groundCode b (s.groundKey b)
    | 2 => fwCode b s.flash.minSvn
    | _ => qualCode b
  if code = 0 ∧ !flashOk then (s, { status := Mb.FLASH })
  else match kind with
    | 1 =>
      let s1 := s.mbEntry src 2 (hImage b) b.length (digestOf b) code
      (if code = 0 then s1.onFlash fun f => { f with pendingGround := some (groundOf b) } else s1, imageResp code)
    | 2 =>
      if code ≠ 0 then (s, imageResp code)
      else
        let k := 1 - s.easel.slot
        let d := slice b (fwBody b) 32
        let s1 := s.onFlash fun f => { f with slots := SMap.put f.slots k ⟨leAt b 4 4, fwSvn b, fwMinSvn b, d⟩ }
        ((s1.mbEntry src 5 k (fwSvn b) d).settings fun f => { f with minSvn := max f.minSvn (fwMinSvn b) }, imageResp 0)
    | _ =>
      if code ≠ 0 then (s, imageResp code)
      else (s.onFlash fun f => { f with quals := SMap.put f.quals (byteAt b 4) b }, imageResp 0)

/-- IMG_BEGIN. -/
def State.mbBegin (s : State) (src : MbSrc) (x : List Byte) : State × MbResp :=
  if s.delivery.isSome then (s, { status := Mb.STATE })
  else if s.romWaits && byteAt x 0 != 2 then (s, { status := Mb.ACCESS })
  else ({ s with delivery := some { src := mbNo src, kind := byteAt x 0, total := leAt x 4 4, at' := s.now } }, { status := Mb.OK })

/-- IMG_CHUNK: a piece beyond the image is an argument out of range. -/
def State.mbChunk (s : State) (src : MbSrc) (x : List Byte) : State × MbResp :=
  match s.delivery with
  | none => (s, { status := Mb.STATE })
  | some d =>
    if d.src ≠ mbNo src then (s, { status := Mb.STATE })
    else if d.total < leAt x 0 4 + (x.length - 8) then (s, { status := Mb.BAD_ARGS })
    else ({ s with delivery := some { d with chunks := d.chunks ++ [(leAt x 0 4, x.drop 8)], at' := s.now } }, { status := Mb.OK })

/-- IMG_END: pieces that do not cover the image leave the delivery open (R519). -/
def State.mbEnd (s : State) (src : MbSrc) (flashOk : Bool) : State × MbResp :=
  match s.delivery with
  | none => (s, { status := Mb.STATE })
  | some d =>
    if d.src ≠ mbNo src then (s, { status := Mb.STATE })
    else if !d.whole then (s, { status := Mb.BAD_ARGS })
    else { s with delivery := none }.mbImage src d.kind d.bytes flashOk

/-- IMG_ABORT. -/
def State.mbAbort (s : State) (src : MbSrc) : State × MbResp :=
  match s.delivery with
  | none => (s, { status := Mb.STATE })
  | some d => if d.src ≠ mbNo src then (s, { status := Mb.STATE }) else ({ s with delivery := none }, { status := Mb.OK })

/-- IMG_IDLE_TIMEOUT (R519). -/
def execImgIdleTimeout (s : State) : Answer :=
  match s.delivery with
  | none => .next s
  | some d => if s.now < d.at' + 60000000000 then .next s else .next { s with delivery := none }

/-- FW_ACTIVATE (R507): `found` is the code with which the standby's own check of the slot ends, 0 where it verifies. -/
def State.mbActivate (s : State) (src : MbSrc) (found : Nat) : State × MbResp :=
  let k := 1 - s.easel.slot
  if !s.flag Reg.EZ_INFO Fld.EZ_INFO.STANDBY_OK then (s, { status := Mb.STATE })
  else match SMap.find? s.flash.slots k with
    | none => (s, { status := Mb.STATE })
    | some w =>
      let code := if found ≠ 0 then found else if w.svn < s.flash.minSvn then Code.ROLLBACK else 0
      if code ≠ 0 then (s, imageResp code)
      else
        let s1 := (s.mbEntry src 5 (k + 256) w.svn w.digest).takeoverBegin 3
        (s1.runSlot k, { status := Mb.OK })

/-! ### Roles and keys (R521 to R524) -/

/-- A change of the settings record with its entry, unless it cannot be signed or written. -/
def State.mbSettings (s : State) (src : MbSrc) (flashOk : Bool) (entry : Nat × Nat) (f : Flash → Flash) : State × MbResp :=
  if 2 ^ 40 ≤ s.easel.sigNext then (s, { status := Mb.KEY_EXHAUSTED })
  else if !flashOk then (s, { status := Mb.FLASH })
  else
    ((s.mbEntry src 7 entry.1 entry.2).settings f, { status := Mb.OK })

/-- HANDOVER: the role is offered to the other port. -/
def State.mbHandover (s : State) (q : Nat) : State × MbResp :=
  if q = s.flash.owner then (s, { status := Mb.BAD_ARGS })
  else ((s.onEasel fun x => { x with handover := some (q, s.now) }).roleShow, { status := Mb.OK })

/-- ACCEPT, within 10 s. -/
def State.mbAccept (s : State) (src : MbSrc) (flashOk : Bool) : State × MbResp :=
  match s.easel.handover with
  | none => (s, { status := Mb.STATE })
  | some (q, t) =>
    if t + 10000000000 < s.now then (s, { status := Mb.STATE })
    else
      let (s1, x) := (s.onEasel fun y => { y with handover := none }).mbSettings src flashOk (1, q) fun f => { f with owner := q }
      if x.status = Mb.OK then (s1, x) else (s, x)

/-- HANDOVER_LAPSE (R524). -/
def execHandoverLapse (s : State) : Answer :=
  match s.easel.handover with
  | none => .next s
  | some (_, t) =>
    if s.now < t + 10000000000 then .next s else .next (s.onEasel fun x => { x with handover := none }).roleShow

/-- A key of all zeros removes what is held. -/
def keyOrNone (x : List Byte) : Option (List Byte) := if x.all (· == 0#8) then none else some x

/-- OWNER_KEY. -/
def putOwnerKey (m : SMap (List Byte)) (slot : Nat) (x : List Byte) : SMap (List Byte) :=
  match keyOrNone x with
  | some k => SMap.put m slot k
  | none => SMap.erase m slot

/-! ### The record, verdicts and registers (R518, R525, R531) -/

/-- The entries from `q` on, up to `n`, that flash holds. -/
def Flash.entries (f : Flash) (q : Nat) : Nat → List Byte
  | 0 => []
  | n + 1 => match SMap.find? f.record q with
    | none => []
    | some x => x ++ f.entries (q + 1) n

/-- LOG_CHECKPOINT. -/
def State.mbCheckpoint (s : State) (q : Nat) : State × MbResp :=
  match s.flash.checkpoints.find? fun (c : Checkpoint) => c.seq == q with
  | none => (s, { status := Mb.BAD_ARGS })
  | some c => (s, { status := Mb.OK, data := leBytes 8 c.seq ++ c.link ++ c.sig })

/-- VERDICT: issued under the chain key on every up chain port; the panel holds its own verdict too. -/
def State.mbVerdict (s : State) (src : MbSrc) (x : List Byte) : State × MbResp :=
  match s.flash.chainKey with
  | none => (s, { status := Mb.STATE })
  | some k =>
    let head := slice x 0 2 ++ leBytes 2 s.panelNo ++ slice x 4 5 ++ leBytes 23 0
    let data := head ++ verdictTag k head
    let s1 := s.mbEntry src 0x0D (leAt x 0 2) (leAt x 4 4)
    (({ s1 with verdictIn := s1.verdictIn ++ [data] }).flood 8 { kind := 0x21, data := data }, { status := Mb.OK })

/-- REG_READ: with its latch; a register the role cannot read is refused, and the mailboxes read 0. -/
def State.mbRegRead (s : State) (a : Nat) : State × MbResp :=
  if !s.mayRead .service a then (s, { status := Mb.ACCESS })
  else if (mailboxOf a).isSome then (s, { status := Mb.OK, data := leBytes 4 0 })
  else
    let (s1, v) := s.latchRead a
    (s1, { status := Mb.OK, data := leBytes 4 v })

/-- REG_WRITE: refused while the capture FIFO takes no protected write. -/
def State.mbRegWrite (s : State) (a v : Nat) : State × MbResp :=
  if !s.mayWrite .service a then (s, { status := Mb.ACCESS })
  else
    let full := protectedReg a && decide (4032 ≤ s.capture.length)
    (s.regWrite .service a v, { status := if full then Mb.ACCESS else Mb.OK })

/-! ### Sessions (R520) -/

/-- The bytes of a customisation string. -/
def label (t : String) : List Byte := t.toUTF8.toList.map fun c => BitVec.ofNat 8 c.toNat

/-- OPEN: a nonce. -/
def State.mbOpen (s : State) : State × MbResp :=
  if s.session.isOpen ∨ s.now < s.session.blocked then (s, { status := Mb.STATE })
  else
    let n := slice (Config.nonce s.session.nonces) 0 32
    (s.onSession fun x => { x with nonce := some n, nonces := x.nonces + 1 }, { status := Mb.OK, data := n })

/-- PROVE: a matching proof of the last nonce under the token opens the session; a failed one blocks OPEN for 10 s. -/
def State.mbProve (s : State) (proof : List Byte) : State × MbResp :=
  if s.session.isOpen then (s, { status := Mb.STATE })
  else
    let good := match s.session.nonce, s.flash.token with
      | some n, some t => kmac t n (label "LMY SERVICE") == proof
      | _, _ => false
    if good then
      (((s.onSession fun x => { x with isOpen := true, rx := 0, tx := 0, at' := s.now }).captureEvent 7 5 0 [] 1).roleShow, { status := Mb.OK })
    else (s.onSession fun x => { x with nonce := none, blocked := s.now + 10000000000 }, { status := Mb.AUTH })

/-! ### One request -/

/-- SUPERVISE_NEXT (R523): the change has its entry as every change of the settings record has; R528 lists no SUBJECT for it: a free value
(log 150). -/
def State.mbSupervise (s : State) (src : MbSrc) (flashOk : Bool) : State × MbResp :=
  let (s1, x) := s.mbSettings src flashOk ((Config.freeWord64 s.freeCtr).toNat, 0) fun f => { f with supervise := true }
  (if x.status = Mb.OK then s1.fresh else s1, x)

/-- A request whose operation, payload and rights have been checked. -/
def State.mbOp (s : State) (src : MbSrc) (op : Nat) (x : List Byte) (found : Nat) (flashOk : Bool) : State × MbResp :=
  match op with
  | 0x01 => (s, { status := Mb.OK, data := s.regBytes Reg.EZ_INFO ++ s.regBytes Reg.EZ_FW_SVN ++ s.regBytes (Reg.SEC_SERIAL 0)
      ++ s.regBytes (Reg.SEC_SERIAL 1) ++ s.regBytes Reg.SEC_ROLE })
  | 0x02 => (s, { status := Mb.OK, data := slice Config.deviceCertificate 0 2948 })
  | 0x03 => s.mbAttest x
  | 0x10 => s.mbBegin src x
  | 0x11 => s.mbChunk src x
  | 0x12 => s.mbEnd src flashOk
  | 0x13 => s.mbAbort src
  | 0x14 => s.mbActivate src found
  | 0x20 => s.mbHandover (byteAt x 0)
  | 0x21 => s.mbAccept src flashOk
  | 0x22 => s.mbSettings src flashOk (1, byteAt x 0) fun f => { f with owner := byteAt x 0 }
  | 0x23 => s.mbSettings src flashOk (2, 0) fun f => { f with token := keyOrNone x }
  | 0x24 => s.mbSettings src flashOk (3, byteAt x 0) fun f => { f with ownerKeys := putOwnerKey f.ownerKeys (byteAt x 0) (x.drop 4) }
  | 0x25 => s.mbSettings src flashOk (4, 0) fun f => { f with chainKey := some x }
  | 0x26 => s.mbSupervise src flashOk
  | 0x30 => (s, { status := Mb.OK, data := s.flash.entries (leAt x 0 8) (leAt x 8 2) })
  | 0x31 => s.mbCheckpoint (leAt x 0 8)
  | 0x32 => (s, { status := Mb.OK, data := Config.defectHeader s.flash.defects.length
      ++ ((s.flash.defects.drop (leAt x 0 4)).take (leAt x 4 2)).flatMap DefectEnt.bytes })
  | 0x33 => if s.easel.telemetry = [] then (s, { status := Mb.STATE }) else (s, { status := Mb.OK, data := s.easel.telemetry })
  | 0x40 => s.mbVerdict src x
  | 0x50 => s.mbRegRead (leAt x 0 4)
  | 0x51 => s.mbRegWrite (leAt x 0 4) (leAt x 4 4)
  | 0x60 => s.mbOpen
  | 0x61 => s.mbProve x
  | 0x62 => (s.sessionClose, { status := Mb.OK })
  | _ => (s, { status := Mb.BAD_OP })

/-- A request as Easel takes it: BUSY does nothing, and the checks stand in the order of R517. -/
def State.mbRequest (s : State) (src : MbSrc) (op : Nat) (x : List Byte) (argsOk : Bool) (how : MbHow) (found : Nat) : State × MbResp :=
  match how with
  | .busy => (s.fresh, { status := Mb.BUSY, retry := 100 + Config.retryHint s.freeCtr % 65436 })
  | .interrupted => (s, { status := Mb.TAKEOVER })
  | .run =>
    if !mbKnown op then (s, { status := Mb.BAD_OP })
    else if !argsOk || !mbArgsOk op x then (s, { status := Mb.BAD_ARGS })
    else if !s.mbMay src op then (s, { status := Mb.ACCESS })
    else s.mbOp src op x found true
  | .flashFails =>
    if !mbKnown op then (s, { status := Mb.BAD_OP })
    else if !argsOk || !mbArgsOk op x then (s, { status := Mb.BAD_ARGS })
    else if !s.mbMay src op then (s, { status := Mb.ACCESS })
    else s.mbOp src op x found false

/-- Whether a source's requests are met at all: Easel's duties run, or the boot ROM takes firmware from the management port (R506, R510). -/
def State.mbServed (s : State) : MbSrc → Bool
  | .mgmt => s.duties || s.romWaits
  | _ => s.duties

/-- The frame of a response on the management port: in a session it carries its tag (R520). -/
def State.mgmtSend (s : State) (inSession : Bool) (frame : List Byte) : State :=
  match inSession, s.session.nonce, s.flash.token with
  | true, some n, some t =>
    let tag := kmac t (n ++ leBytes 8 s.session.tx ++ frame) (label "LMY SESSION")
    (s.onSession fun x => { x with tx := x.tx + 1 }).emit (.mgmt (frame ++ slice tag 0 32))
  | _, _, _ => s.emit (.mgmt frame)

/-- GO: the request in port `p`'s buffer is submitted; while one is running it is discarded (R516). One that finds no duties running stays
unanswered until they resume. -/
def State.mbGo (s : State) (p : HostIx) (how : MbHow) (found : Nat) : State :=
  let a := Reg.EZ_MB_STAT p
  if s.flag a Fld.EZ_MB_STAT.BUSY then s.setFlag a Fld.EZ_MB_STAT.REJ true
  else if !s.duties then s.setFlag a Fld.EZ_MB_STAT.BUSY true
  else
    let h := Memory.readN s.mbox (mbReqAt p) 16
    let n := leAt h 4 4
    let fits := zeroAt h 2 2 && zeroAt h 12 4 && decide (n ≤ 4080)
    let pl := Memory.readN s.mbox (mbReqAt p + 16) (min n 4080)
    let (s1, x) := s.mbRequest (.port p) (leAt h 0 2) pl fits how found
    s1.mbDone p (leAt h 8 4) x

/-- The bytes of a request. -/
def mbBytes (op seq : Nat) (pl : List Byte) : List Byte := leBytes 2 op ++ leBytes 2 0 ++ leBytes 4 pl.length ++ leBytes 4 seq ++ leBytes 4 0 ++ pl

/-- The answer of a sideband. -/
def State.sideSend (s : State) (src : MbSrc) (inSession : Bool) (b : List Byte) : State :=
  match src with
  | .i3c => s.emit (.i3c b)
  | _ => s.mgmtSend inSession b

/-- A request of the management port or the sideband whose frame has been accepted. -/
def State.sideRequest (s : State) (src : MbSrc) (op seq : Nat) (pl : List Byte) (fits : Bool) (how : MbHow) (found : Nat) : State :=
  if !s.mbServed src then s
  else
    let was := s.session.isOpen
    let s1 := match src with
      | .mgmt => if was then s.onSession fun x => { x with rx := x.rx + 1, at' := s.now } else s
      | _ => s
    let (s2, x) := s1.mbRequest src op pl fits how found
    -- an answer that ends its session still carries the session's tag
    let s3 := if was && !s2.session.isOpen then
        ({ s2 with session := { s1.session with nonces := s2.session.nonces } }.sideSend src true (x.bytes seq)).onSession fun _ => s2.session
      else s2.sideSend src was (x.bytes seq)
    s3

/-- A request of a source: a host writes its buffer and GO; the others send a frame. -/
def State.mailbox (s : State) (src : MbSrc) (op : Nat) (seq : Word) (how : MbHow) (pl : List Byte) (found : Nat := 0) : State :=
  match src with
  | .port p =>
    if !s.portUp p then s
    else ({ s with mbox := Memory.writeN s.mbox (mbReqAt p) (mbBytes op seq.toNat pl) }).mbGo p how found
  | _ => s.sideRequest src op seq.toNat pl true how found

/-- INFO (R518). -/
def execInfo (src : MbSrc) (seq : Word) (how : MbHow) (s : State) : Answer := .next (s.mailbox src 0x01 seq how [])

/-- GET_CERT (R513, R518). -/
def execGetCert (src : MbSrc) (seq : Word) (how : MbHow) (s : State) : Answer := .next (s.mailbox src 0x02 seq how [])

/-- ATTEST (R515). -/
def execAttest (src : MbSrc) (seq : Word) (how : MbHow) (nonce : Vector Byte 32) (s : State) : Answer :=
  .next (s.mailbox src 0x03 seq how nonce.toList)

/-- IMG_BEGIN (R519). -/
def execImgBegin (src : MbSrc) (seq : Word) (how : MbHow) (kind : Fin 256) (total : Word) (s : State) : Answer :=
  .next (s.mailbox src 0x10 seq how (leBytes 1 kind ++ leBytes 3 0 ++ leBytes 4 total.toNat))

/-- IMG_CHUNK (R519). -/
def execImgChunk (src : MbSrc) (seq : Word) (how : MbHow) (off : Word) (data : List Byte) (s : State) : Answer :=
  .next (s.mailbox src 0x11 seq how (leBytes 4 off.toNat ++ leBytes 4 0 ++ data.take 4072))

/-- IMG_END (R509 to R511, R519). -/
def execImgEnd (src : MbSrc) (seq : Word) (how : MbHow) (s : State) : Answer := .next (s.mailbox src 0x12 seq how [])

/-- IMG_ABORT (R519). -/
def execImgAbort (src : MbSrc) (seq : Word) (how : MbHow) (s : State) : Answer := .next (s.mailbox src 0x13 seq how [])

/-- FW_ACTIVATE (R507). -/
def execFwActivate (src : MbSrc) (seq : Word) (how : MbHow) (found : Fin 256) (s : State) : Answer :=
  .next (s.mailbox src 0x14 seq how [] found)

/-- HANDOVER (R524). -/
def execHandover (src : MbSrc) (seq : Word) (how : MbHow) (port : Fin 256) (s : State) : Answer :=
  .next (s.mailbox src 0x20 seq how (leBytes 1 port))

/-- ACCEPT (R524). -/
def execAccept (src : MbSrc) (seq : Word) (how : MbHow) (s : State) : Answer := .next (s.mailbox src 0x21 seq how [])

/-- SET_OWNER (R524). -/
def execSetOwner (src : MbSrc) (seq : Word) (how : MbHow) (port : Fin 256) (s : State) : Answer :=
  .next (s.mailbox src 0x22 seq how (leBytes 1 port))

/-- SET_TOKEN (R518, R523). -/
def execSetToken (src : MbSrc) (seq : Word) (how : MbHow) (token : Vector Byte 32) (s : State) : Answer :=
  .next (s.mailbox src 0x23 seq how token.toList)

/-- OWNER_KEY (R508, R523). -/
def execOwnerKey (src : MbSrc) (seq : Word) (how : MbHow) (slot : Fin 256) (key : Vector Byte 68) (s : State) : Answer :=
  .next (s.mailbox src 0x24 seq how (leBytes 1 slot ++ leBytes 3 0 ++ key.toList))

/-- CHAIN_KEY (R523, R525). -/
def execChainKey (src : MbSrc) (seq : Word) (how : MbHow) (key : Vector Byte 32) (s : State) : Answer :=
  .next (s.mailbox src 0x25 seq how key.toList)

/-- SUPERVISE_NEXT (17 R453). -/
def execSuperviseNext (src : MbSrc) (seq : Word) (how : MbHow) (s : State) : Answer := .next (s.mailbox src 0x26 seq how [])

/-- LOG_READ (R531). -/
def execLogRead (src : MbSrc) (seq : Word) (how : MbHow) (first : Word64) (count : Fin 65536) (s : State) : Answer :=
  .next (s.mailbox src 0x30 seq how (leBytes 8 first.toNat ++ leBytes 2 count))

/-- LOG_CHECKPOINT (R530, R531). -/
def execLogCheckpoint (src : MbSrc) (seq : Word) (how : MbHow) (at' : Word64) (s : State) : Answer :=
  .next (s.mailbox src 0x31 seq how (leBytes 8 at'.toNat))

/-- DEFECT_READ (17 R451; R518). -/
def execDefectRead (src : MbSrc) (seq : Word) (how : MbHow) (first : Word) (count : Fin 65536) (s : State) : Answer :=
  .next (s.mailbox src 0x32 seq how (leBytes 4 first.toNat ++ leBytes 2 count))

/-- TELEMETRY (R518). -/
def execTelemetry (src : MbSrc) (seq : Word) (how : MbHow) (s : State) : Answer := .next (s.mailbox src 0x33 seq how [])

/-- VERDICT (R525). -/
def execVerdict (src : MbSrc) (seq : Word) (how : MbHow) (target : Fin 65536) (epoch : Word) (reason : Byte) (s : State) : Answer :=
  .next (s.mailbox src 0x40 seq how (leBytes 2 target ++ leBytes 2 0 ++ leBytes 4 epoch.toNat ++ [reason]))

/-- REG_READ (R518, R522). -/
def execRegRead (src : MbSrc) (seq : Word) (how : MbHow) (off : Word) (s : State) : Answer :=
  .next (s.mailbox src 0x50 seq how (leBytes 4 off.toNat ++ leBytes 4 0))

/-- REG_WRITE (R518, R522). -/
def execRegWrite (src : MbSrc) (seq : Word) (how : MbHow) (off : Word) (v : Word) (s : State) : Answer :=
  .next (s.mailbox src 0x51 seq how (leBytes 4 off.toNat ++ leBytes 4 v.toNat))

/-- OPEN (R520). -/
def execOpen (src : MbSrc) (seq : Word) (how : MbHow) (s : State) : Answer := .next (s.mailbox src 0x60 seq how [])

/-- PROVE (R520). -/
def execProve (src : MbSrc) (seq : Word) (how : MbHow) (proof : Vector Byte 32) (s : State) : Answer :=
  .next (s.mailbox src 0x61 seq how proof.toList)

/-- CLOSE (R520). -/
def execClose (src : MbSrc) (seq : Word) (how : MbHow) (s : State) : Answer := .next (s.mailbox src 0x62 seq how [])

/-- MGMT_FRAME (R520): the bytes of a frame, without its length: outside a session a request; in one a request and its tag, without which
it is discarded. -/
def execMgmtFrame (frame : List Byte) (how : MbHow) (s : State) : Answer :=
  let body := if s.session.isOpen then frame.take (frame.length - 32) else frame
  let good := match s.session.isOpen, s.session.nonce, s.flash.token with
    | true, some n, some t =>
      decide (48 ≤ frame.length)
        && kmac t (n ++ leBytes 8 s.session.rx ++ body) (label "LMY SESSION") == frame.drop (frame.length - 32)
    | true, _, _ => false
    | false, _, _ => decide (16 ≤ frame.length)
  if !good then .next s
  else
    let n := leAt body 4 4
    let fits := zeroAt body 2 2 && zeroAt body 12 4 && decide (n ≤ 4080) && body.length == 16 + n
    .next (s.sideRequest .mgmt (leAt body 0 2) (leAt body 8 4) (body.drop 16) fits how 0)

end Sys2Proof.Machine
end

