-- ==== Sys2Proof/Machine/Control.lean ====
section
/-! DEFINITION. Accesses of the control space, the doorbell pages and the MSI-X tables by their requesters (00_scope R5 to R13; 13_host_ports
R328 to R331, R339, R346; 20_easel R516). -/
namespace Sys2Proof.Machine

/-! ### The mailboxes (20 R516, R532) -/

/-- A write of port `p`'s mailbox: its registers, or its request buffer. -/
def State.mailboxWrite (s : State) (p : HostIx) (a v : Nat) : State :=
  if a = Reg.EZ_MB_CTRL p then
    let s1 := s.plainWrite a v
    if bit v 31 then s1.mbGo p .run 0 else s1
  else if a < 0x110000 then s.plainWrite a v
  else
    let o := (a - 0x110000) % 0x10000
    if o < 0x1000 then { s with mbox := Memory.writeN s.mbox (mbReqAt p + o) (leBytes 4 v) } else s

/-- A word of port `p`'s mailbox. -/
def State.mailboxRead (s : State) (p a : Nat) : Nat :=
  if a < 0x110000 then s.rdN a
  else
    let o := (a - 0x110000) % 0x10000
    if o < 0x1000 ∨ 0x8000 ≤ o then leNat (Memory.readN s.mbox (p * 0x10000 + o) 4) else 0

/-- The port whose physical function a requester is. -/
def pfPort : Req → Option HostIx
  | .host p f => if f.val = 0 then some p else none
  | _ => none

/-- A 32-bit write of the control space. The mailbox of a port takes writes of its own physical function only. -/
def State.ctlWrite (s : State) (r : Req) (a v : Nat) : State :=
  match mailboxOf a, pfPort r with
  | some q, some p => if p.val = q && s.reqLive r then s.mailboxWrite p a v else s
  | some _, none => s
  | none, _ => s.regWrite r a v

/-- A 64-bit write of the control space, the lower address first (R8). -/
def State.ctlWrite64 (s : State) (r : Req) (a v : Nat) : State :=
  match mailboxOf a with
  | some _ => (s.ctlWrite r a (v % 2 ^ 32)).ctlWrite r (a + 4) (v / 2 ^ 32)
  | none => s.regWrite64 r a v

/-- A 32-bit read of the control space by a requester, with its latch; none where it completes with Unsupported Request (R12, R13; 13 R330,
R334; 20 R516). -/
def State.ctlRead (s : State) (r : Req) (a : Nat) : State × Option Nat :=
  match mailboxOf a with
  | some q => (s, some (match pfPort r with
    | some p => if p.val = q then s.mailboxRead q a else 0
    | none => 0))
  | none =>
    if !s.mayRead r a then (s, none)
    else
      let (s1, v) := s.latchRead a
      (s1, some v)

/-! ### The BARs of a function (13 R328 to R331) -/

/-- What an offset of a BAR names: a control-space address, a word of a doorbell page, a word of an MSI-X entry, or nothing. -/
inductive Place where
  | ctl (a : Nat)
  | door (k i : Nat)
  | msix (v i : Nat)
  | none
  deriving DecidableEq, Repr

/-- The place of an offset of BAR4/5 of a physical function (R329). -/
def bar4Place (o : Nat) : Place :=
  if o < 0x40000 then .door (o / 0x1000) (o % 0x1000 / 4)
  else if 0x800000 ≤ o ∧ o < 0x808000 then .msix ((o - 0x800000) / 16) (o % 16 / 4)
  else .none

/-- The place of an offset of BAR0/1 of virtual function `f` of port `p` (R330). -/
def State.vfPlace (s : State) (p f o : Nat) : Place :=
  let blk := 0x01000000 + 0x400000 * s.vfEngine p f
  if o < 0x40 then .ctl (0x501000 + 0x40000 * p + 0x40 * f + o)
  else if 0x8000 ≤ o ∧ o < 0x8400 then .msix ((o - 0x8000) / 16) (o % 16 / 4)
  else if 0x20000 ≤ o ∧ o < 0x30000 then .door ((o - 0x20000) / 0x400) (o % 0x400 / 4)
  else if s.vfEngine p f < 48 ∧ 0x40000 ≤ o ∧ o < 0x80000 then .ctl (blk + (o - 0x40000))
  else if s.vfEngine p f < 48 ∧ 0x80000 ≤ o ∧ o < 0x100000 then .ctl (blk + o)
  else .none

/-- The place that a requester's access names. -/
def State.place (s : State) (r : Req) (bar4 : Bool) (o : Nat) : Place :=
  match r with
  | .host p f =>
    if f.val = 0 then (if bar4 then bar4Place o else .ctl o)
    else if bar4 then .none else s.vfPlace p f o
  | _ => if bar4 then .none else .ctl o

/-- A write of word `i` of entry `v` of a function's MSI-X table: an entry that is unmasked sends its pending message (R339; the base
specification). -/
def State.msixWrite (s : State) (p f v i w : Nat) : State :=
  let k := msixKey p f v
  let s1 : State := { s with msix := SMap.set (if i = 3 then 1#32 else 0#32) s.msix (4 * k + i) (BitVec.ofNat 32 w) }
  if i = 3 && !bit w 0 && s1.msixPend.contains k then { s1 with msixPend := s1.msixPend.erase k }.signal p f v else s1

/-- A 32-bit write of a place. -/
def State.placeWrite (s : State) (r : Req) (x : Place) (v : Nat) : State :=
  match x, r with
  | .ctl a, _ => s.ctlWrite r a v
  | .door k i, .host p f => s.doorWrite p f k i (v % 65536)
  | .msix n i, .host p f => s.msixWrite p f n i v
  | _, _ => s

/-- REGISTER_WRITE (R8, R9, R12): a write of 4 or 8 naturally aligned bytes; any other has no effect. Feed windows are written by
FEED_WRITE. -/
def execRegisterWrite (r : Req) (bar4 : Bool) (off : Fin 0x10000000) (size : Fin 17) (v : Word64) (s : State) : Answer :=
  if !s.reqLive r ∨ (size.val ≠ 4 ∧ size.val ≠ 8) ∨ off.val % size.val ≠ 0 then .next s
  else if size.val = 4 then .next (s.placeWrite r (s.place r bar4 off) (v.toNat % 2 ^ 32))
  else match s.place r bar4 off with
    | .ctl a => .next (s.ctlWrite64 r a v.toNat)
    | x => .next ((s.placeWrite r x (v.toNat % 2 ^ 32)).placeWrite r (s.place r bar4 (off + 4)) (v.toNat / 2 ^ 32))

/-! ### WRITE commands (13 R345 to R347) -/

/-- A write that a command context makes in an engine's block for the function that owns it: the status of the command. -/
def State.cmdWrite (s : State) (r : Req) (a v : Nat) : State × Nat :=
  let e := engineOf a
  if protectedReg a && decide (4032 ≤ s.capture.length) then
    ((({ s with gapWrites := s.gapWrites + 1 }).satFld Reg.LOG_STAT Fld.LOG_STAT.DENIED 1).refuseWrite r a, 2)
  else
    let s1 := if protectedReg a then s.capPush ⟨s.ticks, 1, (reqOrigin r).1, (reqOrigin r).2, 0, a, v, []⟩ else s
    if !s1.engineUp e ∨ (s1.eng e).contained then (s1, 0) else (s1.coreWrite r a v, 0)

/-- CMD_WRITE (R345 to R347): the context's next command is a WRITE, and is carried out. -/
def execCmdWrite (p : HostIx) (k : Fin 64) (s : State) : Answer :=
  match s.cmdReady p k 2 with
  | none => .next s
  | some c =>
    let code := s.cmdCheck p (s.qcOwner p k) c
    if code ≠ 0 then .next ((s.qcEnd p k code c).qcSettle p k)
    else
      let r := Req.host p ⟨s.qcOwner p k % 16, Nat.mod_lt _ (by decide)⟩
      let (s1, st) := s.cmdWrite r (0x01000000 + 0x400000 * byteAt c 2 + leAt c 8 4) (leAt c 0xC 4)
      .next ((s1.qcEnd p k st c).qcSettle p k)

end Sys2Proof.Machine
end

