-- ==== Sys2Proof/Machine/Matrix.lean ====
section
/-! DEFINITION. The matrix unit: M.MMA and its group adds, M.EMIT and its rows, M.MERGE and M.CLR (04_cell R91 to
R98). -/
namespace Sys2Proof.Machine

/-- The matrix operation that a MOP field issues, its registers read at issue (R95). -/
def mOpOf (kind : MKind) (snap : Snap) (w slot : Nat) : MOp :=
  let f := mField w
  let o := (sreg snap.sregs f.oreg).toNat
  { kind := kind, desc := f.desc, k := (sreg snap.sregs f.kreg).toNat % 2 ^ 24, aOff := o % 65536, bOff := o / 65536,
    clr := f.clr, slot := slot }

/-- Queue a matrix operation and let it go as far as it can. -/
def State.queueMop (s : State) (e d c : Nat) (o : MOp) : State :=
  (s.onCell e d c fun k => { k with mops := k.mops ++ [o] }).feed e d c

/-- M.MMA (R95): the operation is queued; its groups are added by MMA_GROUP_ADD. -/
def execMMma (e : EngIx) (d : DieIx) (c : CellIx) (s : State) : Answer :=
  s.field e d c .m 1 fun s snap w => s.queueMop e d c (mOpOf .mma snap w (s.cell e d c).slot)

/-- M.MERGE (R95): the operation is queued; its images are merged as they are taken from the queue. -/
def execMMerge (e : EngIx) (d : DieIx) (c : CellIx) (s : State) : Answer :=
  s.field e d c .m 3 fun s snap w => s.queueMop e d c (mOpOf .merge snap w (s.cell e d c).slot)

/-- M.CLR (R95, R96): the accumulators are cleared once an M.EMIT in progress has read its last row. -/
def execMClr (e : EngIx) (d : DieIx) (c : CellIx) (s : State) : Answer :=
  s.field e d c .m 4 fun s snap w => s.queueMop e d c (mOpOf .clr snap w (s.cell e d c).slot)

/-- M.EMIT (R95): the output stage starts; its rows are delivered by EMIT_ROW. -/
def execMEmit (e : EngIx) (d : DieIx) (c : CellIx) (s : State) : Answer :=
  s.field e d c .m 2 fun s snap w =>
    let f := mField w
    let o := (sreg snap.sregs f.oreg).toNat
    s.onCell e d c fun k => { k with emits := k.emits ++ [{ desc := f.desc, oOff := o % 65536, sOff := o / 65536,
                                                             slot := k.slot }] }

/-! ### Group adds -/

/-- Least significant exponent of a format's values (03 R56, R58; an MXINT8 element has -6). -/
def Fmt.lsbExp (f : Fmt) (mx : Bool) : Int :=
  match f with
  | .int8 => if mx then -6 else 0
  | _ => 1 - f.bias - f.fbits

/-- The factors of one vector-block: `n` elements under a scale byte where the operand is MX-scaled (R37, R39). -/
def factors (f : Fmt) (mx : Bool) (scale : Nat) (vb : List Byte) (n : Nat) : List Factor :=
  (unpackCodes f vb n).map fun w =>
    if mx then ⟨mxVal f scale w, scale == 255⟩ else ⟨decodeVal f w, false⟩

/-- The vectors of a block-tile: their factors and scale exponents. -/
def tileVecs (f : Fmt) (mx : Bool) (scales tile : List Byte) (n : Nat) : List (List Factor × Int) :=
  (List.range 32).map fun i =>
    let sc := byteAt scales i
    (factors f mx sc (slice tile (i * f.vbBytes) f.vbBytes) n, if mx then (sc : Int) - 127 else 0)

/-- One group added to every accumulator (R55): row i of A against row j of B. -/
def addTile (cls : SumClass) (q : Int) (va vb : List (List Factor × Int)) (accs : SMap Acc) : SMap Acc × Flags :=
  let rows := (List.range 32).zip va
  let out := rows.flatMap fun (i, a) =>
    ((List.range 32).zip vb).map fun (j, b) =>
      let k := 32 * i + j
      (k, Acc.addGroup cls (a.2 + b.2 + q) (SMap.getD accs k { }) (List.zipWith product a.1 b.1))
  (out.filterMap (fun p => if p.2.1 = Acc.clear then none else some (p.1, p.2.1)),
    out.foldl (fun f p => f ||| p.2.2) Flags.none)

/-- An operand's scales and block-tile from the scratchpad (R91), with the first uncorrectable address. -/
def State.tileAt (s : State) (e d c : Nat) (f : Fmt) (mx : Bool) (base scale t : Nat) :
    State × List Byte × List Byte × Option Nat :=
  let r := SpRef.cell e d c
  let (s1, tile, b1) := s.spReadBytes r (base + t * 32 * f.vbBytes) (32 * f.vbBytes)
  if mx then
    let (s2, sc, b2) := s1.spReadBytes r (scale + 32 * t) 32
    (s2, sc, tile, b1.or b2)
  else (s1, [], tile, b1)

/-- An operand's scales and block-tile out of the bytes taken from its queue (R92). -/
def bufTile (mx : Bool) (buf : List Byte) : List Byte × List Byte :=
  if mx then (buf.take 32, buf.drop 64) else ([], buf)

/-- MMA_GROUP_ADD (R55, R96): the head M.MMA adds its next group once its operands are there and no M.EMIT reads. -/
def execMmaGroupAdd (e : EngIx) (d : DieIx) (c : CellIx) (s : State) : Answer :=
  let k := s.cell e d c
  match k.mops with
  | [] => .next s
  | o :: _ =>
    let ds := (s.prog e d c).desc o.desc
    let ready := o.kind == .mma && o.started && k.emits == []
      && (ds.asrc == 0 || decide (tileBytes ds.afmt ds.amx ≤ o.aBuf.length))
      && (ds.bsrc == 0 || decide (tileBytes ds.bfmt ds.bmx ≤ o.bBuf.length))
    if !ready then .next s
    else
      let n := min 32 (o.k - 32 * o.next)
      let (s1, asc, at', ba) :=
        if ds.asrc = 0 then s.tileAt e d c ds.afmt ds.amx ds.aBase ds.aScale (o.aOff + o.next)
        else (s, (bufTile ds.amx o.aBuf).1, (bufTile ds.amx o.aBuf).2, none)
      let (s2, bsc, bt, bb) :=
        if ds.bsrc = 0 then s1.tileAt e d c ds.bfmt ds.bmx ds.bBase ds.bScale (o.bOff + o.next)
        else (s1, (bufTile ds.bmx o.bBuf).1, (bufTile ds.bmx o.bBuf).2, none)
      match ba.or bb with
      | some a => .next (((s2.onCell e d c Cell.popMop).faultSpUe e d c a 0 o.slot).feed e d c)
      | none =>
        let q := ds.afmt.lsbExp ds.amx + ds.bfmt.lsbExp ds.bmx
        let (accs, fl) := addTile ds.cls q (tileVecs ds.afmt ds.amx asc at' n) (tileVecs ds.bfmt ds.bmx bsc bt n) k.accs
        let last := groups o.k ≤ o.next + 1
        let s3 := s2.onCell e d c fun k =>
          let k1 := { k with accs := accs, flags := k.flags ||| fl }
          if last then k1.popMop
          else k1.onHead fun o => { o with next := o.next + 1, aBuf := [], bBuf := [] }
        .next (s3.feed e d c)

/-! ### Output rows -/

/-- What one output row holds: its bytes, its scale byte for an MX row, the flags, the generators after, and the values
for the study. -/
structure RowOut where
  bytes : List Byte
  scale : Option Nat
  flags : Flags
  gens : List Word64
  studied : List Studied
  deriving DecidableEq, Repr

/-- ACC_SAT of a saturated accumulator (03 R67, R68, R73). -/
def Acc.satFlag (a : Acc) : Flags :=
  match a.special with
  | .sat _ => Flags.accSat
  | _ => Flags.none

/-- An output row in the form of its descriptor (R65, R93, R97): `accs` the 32 accumulators, `gens` generators 64 to
95. -/
def outRow (ds : Desc) (accs : List Acc) (gens : List Word64) : RowOut :=
  let sat := accs.foldl (fun f a => f ||| a.satFlag) Flags.none
  match ds.oform with
  | 1 =>
    let rs := accs.map fun a => roundVal .fp32 4 0#64 a.outVal
    ⟨packCodes .fp32 (rs.map (·.bits)), none, rs.foldl (fun f r => f ||| r.flags) sat, gens,
      List.zipWith (fun a r => ⟨a.outVal, some (.fp32, r.bits), r.flags.has Flags.overflowClamp⟩) accs rs⟩
  | 2 =>
    let st := accs.map fun a => roundVal .fp32 4 0#64 a.outVal
    let stFl := st.foldl (fun f r => f ||| (r.flags &&& Flags.overflowClamp)) sat
    let vs := st.map fun r => decodeVal .fp32 r.bits
    let q := mxQuantise ds.ofmt ds.ornd vs gens
    let each := mxElements ds.ofmt ds.ornd ((q.scale : Int) - 127) vs gens
    let clamps := if q.scale = 255 then accs.map fun _ => false else each.map fun r => r.flags.has Flags.overflowClamp
    ⟨packCodes ds.ofmt q.codes, some q.scale, stFl ||| q.flags, q.gens,
      List.zipWith (fun (p : Acc × Bool) w => ⟨p.1.outVal, some (ds.ofmt, w), p.2⟩) (accs.zip clamps) q.codes⟩
  | 3 =>
    let rs := accs.map Acc.split
    ⟨rs.flatMap fun r => leBytes 8 r.word.toNat, none, rs.foldl (fun f r => f ||| r.flags) sat, gens,
      List.zipWith (fun a r => ⟨a.outVal, some (.fp32, r.word.toNat % 2 ^ 32), false⟩) accs rs⟩
  | 4 =>
    ⟨accs.flatMap fun a => leBytes 16 a.image, none, Flags.none, gens, accs.map fun a => ⟨a.outVal, none, false⟩⟩
  | _ =>
    let rs := List.zipWith (fun a g => roundVal ds.ofmt ds.ornd g a.outVal) accs gens
    ⟨packCodes ds.ofmt (rs.map (·.bits)), none, rs.foldl (fun f r => f ||| r.flags) sat, rs.map (·.gen),
      List.zipWith (fun a r => ⟨a.outVal, some (ds.ofmt, r.bits), r.flags.has Flags.overflowClamp⟩) accs rs⟩

/-- Change the M.EMIT in progress. -/
def Cell.onEmit (k : Cell) (f : EmitOp → EmitOp) : Cell :=
  match k.emits with
  | [] => k
  | o :: t => { k with emits := f o :: t }

/-- Drop the M.EMIT in progress. -/
def Cell.popEmit (k : Cell) : Cell := { k with emits := k.emits.drop 1 }

/-- Whether the output stage holds the credit that a row needs: for every entry the row completes, as far as the two
entries of a hop go (R96, R115; log 14). -/
def State.rowCredit (s : State) (e d c o entries : Nat) : Bool :=
  s.outRoom e d c 0 o && decide ((s.buf e d c 0 (4 + o)).length + min entries 2 ≤ 2)

/-- Store one row in the scratchpad, its scale byte by a read, merge and write (R95, R102); nothing of the row is
written when that read gives an uncorrectable error. -/
def State.storeRow (s : State) (e d c addr scAddr : Nat) (r : RowOut) : State × Option Nat :=
  match r.scale with
  | none => (s.spWriteWords (.cell e d c) addr r.bytes, none)
  | some b =>
    match s.spMerge (.cell e d c) scAddr [BitVec.ofNat 8 b] with
    | (s1, some a) => (s1, some a)
    | (s1, none) => (s1.spWriteWords (.cell e d c) addr r.bytes, none)

/-- EMIT_ROW (R95 to R97): the next row of the M.EMIT in progress is read, rounded and delivered. -/
def execEmitRow (e : EngIx) (d : DieIx) (c : CellIx) (s : State) : Answer :=
  let k := s.cell e d c
  match k.emits with
  | [] => .next s
  | o :: _ =>
    let ds := (s.prog e d c).desc o.desc
    let accs := (List.range 32).map fun j => SMap.getD k.accs (32 * o.row + j) { }
    let row := outRow ds accs ((List.range 32).map fun j => k.gen (64 + j))
    let after := fun k : Cell => (k.setGens 64 row.gens).raise row.flags
    let next := fun k : Cell => if o.row = 31 then k.popEmit else k.onEmit fun o => { o with row := o.row + 1 }
    if ds.odst = 0 then
      match s.storeRow e d c (ds.oBase + 8 * o.oOff + o.row * ds.oStride) (ds.oScale + 32 * o.sOff + o.row) row with
      | (s1, some a) => .next (((s1.onCell e d c Cell.popEmit).faultSpUe e d c a 0 o.slot).feed e d c)
      | (s1, none) => .next (((s1.onCell e d c fun k => next (after k)).study e ds.vs row.studied).feed e d c)
    else
      let bs := o.part ++ row.bytes
      let n := bs.length / 64
      if !s.rowCredit e d c (ds.odst - 1) n then .next s
      else
        let xs := (chunks 64 n bs).map fun b => ({ data := leNat b } : FEntry)
        let s1 := s.send e d c 0 (ds.odst - 1) xs
        let s2 := s1.onCell e d c fun k => next (after (k.onEmit fun o => { o with part := bs.drop (64 * n) }))
        .next ((s2.study e ds.vs row.studied).feed e d c)

end Sys2Proof.Machine
end

