-- ==== Sys2Proof/Machine/Physical.lean ====
section
/-! DEFINITION. The rear-face and cable inputs, the link cages and AUX 3.3 V (21_physical R535, R542, R546, R547; 18_faults R482). -/
namespace Sys2Proof.Machine

/-- MATE_ASSERT (R546): MATE_N has held for 10 ms. -/
def execMateAssert (s : State) : Answer := .next (s.setFlag Reg.PNL_PHYS Fld.PNL_PHYS.MATE true)

/-- MATE_BREAK (R546): MATE_N was deasserted for `ns`: a break of 1 µs or more is a loss of module input power. -/
def execMateBreak (ns : Fin 0x100000000) (s : State) : Answer :=
  if !s.flag Reg.PNL_PHYS Fld.PNL_PHYS.MATE then .next s
  else if ns.val < 1000 then .next (s.satFld Reg.PNL_PHYS Fld.PNL_PHYS.MATE_NARROW 1)
  else .next ((s.setFlag Reg.PNL_PHYS Fld.PNL_PHYS.MATE false).sendPairFail).inputLost

/-- Put bit `p` of PNL_PHYS.CPRSNT. -/
def State.setCprsnt (s : State) (p : Nat) (b : Bool) : State :=
  let f : Fld := ⟨29 + p, 29 + p⟩
  s.setFlag Reg.PNL_PHYS f b

/-- CPRSNT_ASSERT (R547): CPRSNT_N of a port has held for 10 ms; the port then trains. -/
def execCprsntAssert (p : HostIx) (s : State) : Answer :=
  let s1 := s.setCprsnt p true
  .next (if s.portDie p && s.portState p == 0 then s1.setPortState p 1 else s1)

/-- CPRSNT_DEASSERT (R547): CPRSNT_N of a port was deasserted for `ns`: 1 µs or more is a surprise down. -/
def execCprsntDeassert (p : HostIx) (ns : Fin 0x100000000) (s : State) : Answer :=
  if !bit (s.fld Reg.PNL_PHYS Fld.PNL_PHYS.CPRSNT) p then .next s
  else if ns.val < 1000 then .next (s.satFld Reg.PNL_PHYS Fld.PNL_PHYS.CPRSNT_NARROW 1)
  else .next ((s.setCprsnt p false).surpriseDown p)

/-- CAGE_OVERPOWER (R542): a module that draws more than 30 W has its cage power switched off; the port stays at step 1 of its training until
the module is replaced. -/
def execCageOverpower (p : LinkIx) (s : State) : Answer :=
  if !(s.link p).present then .next s
  else
    let st := s.linkState p
    let s1 := s.onLink p fun l => { l with present := false, overpower := true }
    let s2 := if st = 2 ∨ st = 3 ∨ st = 4 then s1.linkGone p 1 else ((s1.setLinkState p 1).setLanes p 0).linkDropAll p
    .next (s2.emit (.pin (.cagePower p) false))

/-- AUX_3V3_LOSS (18 R482): the loss of AUX counts as a loss of module input power, so PAIR_FAIL is sent; then the always-on domain is down, and
only the flash and what has been sent remain. -/
def execAux3v3Loss (s : State) : Answer :=
  let s1 := s.sendPairFail
  .next { State.reset with
    flash := s1.flash, freeCtr := s1.freeCtr, session := { nonces := s1.session.nonces }, out := s1.out, pending := s1.pending }

end Sys2Proof.Machine
end

