-- ==== Sys2Proof/Machine/Scalar.lean ====
section
/-! DEFINITION. The scalar unit and the end of a glaze in a cell (04_cell R84, R103 to R105). -/
namespace Sys2Proof.Machine

/-- Write the destination of a scalar operation. -/
def State.scalar (s : State) (e d c w : Nat) (v : Word) : State := s.onCell e d c fun k => k.setS (sField w).sd v

/-- A scalar operation on sa and sb. -/
def State.scalar2 (s : State) (e d c : Nat) (snap : Snap) (w : Nat) (op : Word → Word → Word) : State :=
  let f := sField w
  s.scalar e d c w (op (sreg snap.sregs f.sa) (sreg snap.sregs f.sb))

/-- S.ADD (R103). -/
def execSAdd (e : EngIx) (d : DieIx) (c : CellIx) (s : State) : Answer :=
  s.field e d c .s 0x01 fun s snap w => s.scalar2 e d c snap w (· + ·)

/-- S.SUB (R103). -/
def execSSub (e : EngIx) (d : DieIx) (c : CellIx) (s : State) : Answer :=
  s.field e d c .s 0x02 fun s snap w => s.scalar2 e d c snap w (· - ·)

/-- S.AND (R103). -/
def execSAnd (e : EngIx) (d : DieIx) (c : CellIx) (s : State) : Answer :=
  s.field e d c .s 0x03 fun s snap w => s.scalar2 e d c snap w (· &&& ·)

/-- S.OR (R103). -/
def execSOr (e : EngIx) (d : DieIx) (c : CellIx) (s : State) : Answer :=
  s.field e d c .s 0x04 fun s snap w => s.scalar2 e d c snap w (· ||| ·)

/-- S.XOR (R103). -/
def execSXor (e : EngIx) (d : DieIx) (c : CellIx) (s : State) : Answer :=
  s.field e d c .s 0x05 fun s snap w => s.scalar2 e d c snap w (· ^^^ ·)

/-- S.SHL (R103): by s[SB][4:0]. -/
def execSShl (e : EngIx) (d : DieIx) (c : CellIx) (s : State) : Answer :=
  s.field e d c .s 0x06 fun s snap w => s.scalar2 e d c snap w fun a b => a <<< (b.toNat % 32)

/-- S.SHR (R103). -/
def execSShr (e : EngIx) (d : DieIx) (c : CellIx) (s : State) : Answer :=
  s.field e d c .s 0x07 fun s snap w => s.scalar2 e d c snap w fun a b => a >>> (b.toNat % 32)

/-- S.SRA (R103). -/
def execSSra (e : EngIx) (d : DieIx) (c : CellIx) (s : State) : Answer :=
  s.field e d c .s 0x08 fun s snap w => s.scalar2 e d c snap w fun a b => a.sshiftRight (b.toNat % 32)

/-- S.MUL (R103): the low 32 bits. -/
def execSMul (e : EngIx) (d : DieIx) (c : CellIx) (s : State) : Answer :=
  s.field e d c .s 0x09 fun s snap w => s.scalar2 e d c snap w (· * ·)

/-- S.MIN (R103): signed. -/
def execSMin (e : EngIx) (d : DieIx) (c : CellIx) (s : State) : Answer :=
  s.field e d c .s 0x0A fun s snap w => s.scalar2 e d c snap w fun a b => if b.toInt < a.toInt then b else a

/-- S.MAX (R103): signed. -/
def execSMax (e : EngIx) (d : DieIx) (c : CellIx) (s : State) : Answer :=
  s.field e d c .s 0x0B fun s snap w => s.scalar2 e d c snap w fun a b => if a.toInt < b.toInt then b else a

/-- S.ADDI (R103). -/
def execSAddi (e : EngIx) (d : DieIx) (c : CellIx) (s : State) : Answer :=
  s.field e d c .s 0x0C fun s snap w => s.scalar2 e d c snap w fun a _ => a + BitVec.ofInt 32 (sField w).simm

/-- S.LUI (R103): IMM[22:0] shifted left 9. -/
def execSLui (e : EngIx) (d : DieIx) (c : CellIx) (s : State) : Answer :=
  s.field e d c .s 0x0D fun s _ w => s.scalar e d c w (BitVec.ofNat 32 ((sField w).imm <<< 9))

/-- A condition code of R103; codes 6 and 7 are reserved and refused at load (R94). -/
def condition (code : Nat) (a b : Word) : Bool :=
  match code with
  | 0 => a == b
  | 1 => a != b
  | 2 => a.toInt < b.toInt
  | 3 => b.toInt ≤ a.toInt
  | 4 => a.toNat < b.toNat
  | 5 => b.toNat ≤ a.toNat
  | _ => false

/-- S.CMP (R103). -/
def execSCmp (e : EngIx) (d : DieIx) (c : CellIx) (s : State) : Answer :=
  s.field e d c .s 0x0E fun s snap w =>
    let f := sField w
    s.onCell e d c fun k =>
      k.setP (f.sd % 8) (condition (f.imm % 8) (sreg snap.sregs f.sa) (sreg snap.sregs f.sb))

/-- S.CMPI (R103). -/
def execSCmpi (e : EngIx) (d : DieIx) (c : CellIx) (s : State) : Answer :=
  s.field e d c .s 0x0F fun s snap w =>
    let f := sField w
    s.onCell e d c fun k =>
      k.setP (f.sd % 8) (condition (bits f.imm 22 20) (sreg snap.sregs f.sa) (BitVec.ofInt 32 (toSigned 20 f.imm)))

/-- S.BR (R103, R104): the slot that follows is IMM[7:0]. -/
def execSBr (e : EngIx) (d : DieIx) (c : CellIx) (s : State) : Answer :=
  s.field e d c .s 0x10 fun s _ w =>
    s.onCell e d c fun k => { k with issue := k.issue.map fun i => { i with target := some ((sField w).imm % 256) } }

/-- S.LD (R103). -/
def execSLd (e : EngIx) (d : DieIx) (c : CellIx) (s : State) : Answer :=
  s.field e d c .s 0x11 fun s snap w =>
    let (s1, bs, bad) := s.spReadBytes (.cell e d c) (sAddr snap.sregs (sField w)).toNat 4
    match bad with
    | some a => s1.faultSpUe e d c a 2 (s.cell e d c).slot
    | none => s1.scalar e d c w (BitVec.ofNat 32 (leNat bs))

/-- S.ST (R103; 07 R179): an indivisible read, merge and write of the enclosing word. -/
def execSSt (e : EngIx) (d : DieIx) (c : CellIx) (s : State) : Answer :=
  s.field e d c .s 0x12 fun s snap w =>
    let f := sField w
    match s.spMerge (.cell e d c) (sAddr snap.sregs f).toNat (leBytes 4 (sreg snap.sregs f.sb).toNat) with
    | (s1, some a) => s1.faultSpUe e d c a 2 (s.cell e d c).slot
    | (s1, none) => s1

/-- Take an entry from a queue into sd; a parity error raises NET_PAR and writes nothing (R106). -/
def State.recvTo (s : State) (e d c w q : Nat) : State :=
  match s.queueTake e d c q with
  | (s1, none) => s1
  | (s1, some x) =>
    if x.parBad then s1.faultNetPar e d c (s.cell e d c).slot else s1.scalar e d c w (BitVec.ofNat 32 x.data)

/-- S.RECV (R103). -/
def execSRecv (e : EngIx) (d : DieIx) (c : CellIx) (s : State) : Answer :=
  s.field e d c .s 0x13 fun s _ w => s.recvTo e d c w (4 + (sField w).imm % 4)

/-- S.SEND (R103). -/
def execSSend (e : EngIx) (d : DieIx) (c : CellIx) (s : State) : Answer :=
  s.field e d c .s 0x14 fun s snap w =>
    s.send e d c 1 ((sField w).imm % 2) [{ data := (sreg snap.sregs (sField w).sa).toNat }]

/-- S.TOKR (R103): a token, zero-extended. -/
def execSTokr (e : EngIx) (d : DieIx) (c : CellIx) (s : State) : Answer :=
  s.field e d c .s 0x15 fun s _ w => s.recvTo e d c w (8 + (sField w).imm % 4)

/-- S.TOKS (R103): s[SA][7:0]. -/
def execSToks (e : EngIx) (d : DieIx) (c : CellIx) (s : State) : Answer :=
  s.field e d c .s 0x16 fun s snap w =>
    s.send e d c 2 ((sField w).imm % 2) [{ data := (sreg snap.sregs (sField w).sa).toNat % 256 }]

/-- S.WAIT (R103; 07 R194): the slot issues only once the counter has reached sa, so performing it does nothing
more. -/
def execSWait (e : EngIx) (d : DieIx) (c : CellIx) (s : State) : Answer :=
  s.field e d c .s 0x18 fun s _ _ => s

/-- S.ACNT (R103). -/
def execSAcnt (e : EngIx) (d : DieIx) (c : CellIx) (s : State) : Answer :=
  s.field e d c .s 0x19 fun s _ w => s.scalar e d c w ((s.cell e d c).acntOf ((sField w).imm % 16))

/-- S.ASET (R103, R105). -/
def execSAset (e : EngIx) (d : DieIx) (c : CellIx) (s : State) : Answer :=
  s.field e d c .s 0x1A fun s snap w =>
    s.onCell e d c fun k => k.setAcnt ((sField w).imm % 16) (sreg snap.sregs (sField w).sa)

/-- S.FLG (R103): the flags as they stood at issue. -/
def execSFlg (e : EngIx) (d : DieIx) (c : CellIx) (s : State) : Answer :=
  s.field e d c .s 0x1C fun s snap w => s.scalar e d c w (BitVec.ofNat 32 snap.flags.toNat)

/-- S.FLGC (R103, R105): the flags named are cleared, but a flag that the slot's other fields have set since issue
stays. -/
def execSFlgc (e : EngIx) (d : DieIx) (c : CellIx) (s : State) : Answer :=
  s.field e d c .s 0x1D fun s snap w =>
    let named : Flags := BitVec.ofNat 5 (sreg snap.sregs (sField w).sa).toNat
    s.onCell e d c fun k => { k with flags := k.flags.clear named (k.flags &&& ~~~snap.flags) }

/-- S.TIME (R103): the low 32 bits of the engine's cadence count in ticks. -/
def execSTime (e : EngIx) (d : DieIx) (c : CellIx) (s : State) : Answer :=
  s.field e d c .s 0x1E fun s _ w => s.scalar e d c w (BitVec.ofNat 32 ((s.eng e).count / 2 ^ 24))

/-- S.GETL (R103): lane IMM[5:0] of register IMM[11:6]. -/
def execSGetl (e : EngIx) (d : DieIx) (c : CellIx) (s : State) : Answer :=
  s.field e d c .s 0x1F fun s snap w =>
    let f := sField w
    s.scalar e d c w (SMap.getD snap.vregs (bits f.imm 11 6 * 64 + bits f.imm 5 0) 0#32)

/-- S.GEND (R103): the glaze ends after this slot. -/
def execSGend (e : EngIx) (d : DieIx) (c : CellIx) (s : State) : Answer :=
  s.field e d c .s 0x20 fun s _ _ =>
    s.onCell e d c fun k => { k with issue := k.issue.map fun i => { i with gend := true } }

/-- CELL_GLAZE_END (R84): a cell whose ITER count of iterations is complete ends its glaze. -/
def execCellGlazeEnd (e : EngIx) (d : DieIx) (c : CellIx) (s : State) : Answer :=
  let s0 := s.skipIdle e d c 256
  let k := s0.cell e d c
  let p := s0.prog e d c
  if s0.cellsRun e && decide (0 < p.n) && decide (0 < p.iter) && decide (p.iter ≤ k.iter) && k.issue == none
      && !k.faulted && !k.held && !k.ended then
    .next (s0.onCell e d c fun k => { k with ended := true })
  else .next s0

end Sys2Proof.Machine
end

