-- ==== Sys2Proof/Machine/Vector.lean ====
section
/-! DEFINITION. The vector unit: lane arithmetic, special functions, scratchpad forms and the vector network (04_cell
R99 to R102). -/
namespace Sys2Proof.Machine

/-- Give a lane-wise operation's result: vd, the flags of every lane, and the generators (R99). -/
def State.lanes (s : State) (e d c vd : Nat) (rs : List LaneOut) : State :=
  s.onCell e d c fun k =>
    ((k.setV vd (rs.map (·.w))).raise (rs.foldl (fun f r => f ||| r.flags) Flags.none)).setGens 0 (rs.map (·.gen))

/-- Give a lane-wise result that sets no flag. -/
def State.plain (s : State) (e d c vd : Nat) (ws : List Word) : State := s.onCell e d c fun k => k.setV vd ws

/-- The generators of the 64 lanes. -/
def Cell.laneGens (k : Cell) : List Word64 := (List.range 64).map k.gen

/-- A rounded operation on three registers, lane by lane. -/
def State.lane3 (s : State) (e d c : Nat) (snap : Snap) (w : Nat)
    (op : Nat → Word64 → Word → Word → Word → LaneOut) : State :=
  let f := vField w
  let abc := (vreg snap.vregs f.va).zip ((vreg snap.vregs f.vb).zip (vreg snap.vregs f.vc))
  s.lanes e d c f.vd (List.zipWith (fun x g => op f.rnd g x.1 x.2.1 x.2.2) abc (s.cell e d c).laneGens)

/-- An operation on three registers that neither rounds nor sets a flag. -/
def State.lane3p (s : State) (e d c : Nat) (snap : Snap) (w : Nat) (op : Word → Word → Word → Word) : State :=
  let f := vField w
  s.plain e d c f.vd (List.zipWith (fun a (p : Word × Word) => op a p.1 p.2) (vreg snap.vregs f.va)
    ((vreg snap.vregs f.vb).zip (vreg snap.vregs f.vc)))

/-- A special function, lane by lane. -/
def State.special (s : State) (e d c : Nat) (snap : Snap) (w : Nat) (op : Word → Word × Flags) : State :=
  let f := vField w
  let rs := (vreg snap.vregs f.va).map op
  s.onCell e d c fun k => (k.setV f.vd (rs.map (·.1))).raise (rs.foldl (fun a r => a ||| r.2) Flags.none)

/-- V.MOV (R100). -/
def execVMov (e : EngIx) (d : DieIx) (c : CellIx) (s : State) : Answer :=
  s.field e d c .v 0x01 fun s snap w => s.lane3p e d c snap w fun a _ _ => a

/-- V.ADD (R100). -/
def execVAdd (e : EngIx) (d : DieIx) (c : CellIx) (s : State) : Answer :=
  s.field e d c .v 0x02 fun s snap w => s.lane3 e d c snap w fun m g a b _ => fadd m g a b

/-- V.SUB (R100). -/
def execVSub (e : EngIx) (d : DieIx) (c : CellIx) (s : State) : Answer :=
  s.field e d c .v 0x03 fun s snap w => s.lane3 e d c snap w fun m g a b _ => fsub m g a b

/-- V.MUL (R100). -/
def execVMul (e : EngIx) (d : DieIx) (c : CellIx) (s : State) : Answer :=
  s.field e d c .v 0x04 fun s snap w => s.lane3 e d c snap w fun m g a b _ => fmul m g a b

/-- V.FMA (R100, R101). -/
def execVFma (e : EngIx) (d : DieIx) (c : CellIx) (s : State) : Answer :=
  s.field e d c .v 0x05 fun s snap w => s.lane3 e d c snap w fun m g a b x => ffma m g a b x

/-- V.MAX (R100, R101). -/
def execVMax (e : EngIx) (d : DieIx) (c : CellIx) (s : State) : Answer :=
  s.field e d c .v 0x06 fun s snap w => s.lane3p e d c snap w fun a b _ => fmax a b

/-- V.MIN (R100, R101). -/
def execVMin (e : EngIx) (d : DieIx) (c : CellIx) (s : State) : Answer :=
  s.field e d c .v 0x07 fun s snap w => s.lane3p e d c snap w fun a b _ => fmin a b

/-- V.CMPLT (R100, R101). -/
def execVCmplt (e : EngIx) (d : DieIx) (c : CellIx) (s : State) : Answer :=
  s.field e d c .v 0x08 fun s snap w => s.lane3p e d c snap w fun a b _ => fcmplt a b

/-- V.CMPEQ (R100, R101). -/
def execVCmpeq (e : EngIx) (d : DieIx) (c : CellIx) (s : State) : Answer :=
  s.field e d c .v 0x09 fun s snap w => s.lane3p e d c snap w fun a b _ => fcmpeq a b

/-- V.SEL (R100): va where the vc lane's bit pattern is non-zero. -/
def execVSel (e : EngIx) (d : DieIx) (c : CellIx) (s : State) : Answer :=
  s.field e d c .v 0x0A fun s snap w => s.lane3p e d c snap w fun a b x => if x = 0#32 then b else a

/-- V.BRD (R100). -/
def execVBrd (e : EngIx) (d : DieIx) (c : CellIx) (s : State) : Answer :=
  s.field e d c .v 0x0B fun s snap w =>
    let f := vField w
    s.plain e d c f.vd (List.replicate 64 (sreg snap.sregs f.sa))

/-- One lane of V.RND: rounded to a format and returned as FP32 (R100). -/
def rndLane (fmt : Fmt) (mode : Nat) (g : Word64) (a : Word) : LaneOut :=
  let r := convert .fp32 fmt mode g a.toNat
  ⟨BitVec.ofNat 32 (convert fmt .fp32 0 0#64 r.bits).bits, r.flags, r.gen⟩

/-- V.RND (R100). -/
def execVRnd (e : EngIx) (d : DieIx) (c : CellIx) (s : State) : Answer :=
  s.field e d c .v 0x0C fun s snap w => s.lane3 e d c snap w fun m g a _ _ => rndLane (Fmt.ofCode (vField w).fmt) m g a

/-- One level of the fixed tree: lane L with lane L + n for L below n (R101). -/
def redLevel (n : Nat) (op : Word64 → Word → Word → LaneOut) (ws : List Word) (gs : List Word64) :
    List Word × List Word64 × Flags :=
  let rs := List.zipWith (fun (p : Word × Word) g => op g p.1 p.2) ((ws.take n).zip (ws.drop n)) gs
  (rs.map (·.w), rs.map (·.gen) ++ gs.drop n, rs.foldl (fun f r => f ||| r.flags) Flags.none)

/-- The fixed tree from 64 lanes down to one (R101). -/
def redTree (op : Word64 → Word → Word → LaneOut) (ws : List Word) (gs : List Word64) : Word × List Word64 × Flags :=
  let r := [32, 16, 8, 4, 2, 1].foldl (fun (acc : List Word × List Word64 × Flags) n =>
    let (a, b, f) := redLevel n op acc.1 acc.2.1
    (a, b, acc.2.2 ||| f)) (ws, gs, Flags.none)
  (r.1.headD 0#32, r.2.1, r.2.2)

/-- V.RED (R100, R101): FMT 0 the sum, FMT 1 the maximum. -/
def execVRed (e : EngIx) (d : DieIx) (c : CellIx) (s : State) : Answer :=
  s.field e d c .v 0x0D fun s snap w =>
    let f := vField w
    let op := fun g a b => if f.fmt = 0 then fadd f.rnd g a b else ⟨fmax a b, Flags.none, g⟩
    let (x, gs, fl) := redTree op (vreg snap.vregs f.va) (s.cell e d c).laneGens
    s.onCell e d c fun k => ((k.setV f.vd (List.replicate 64 x)).raise fl).setGens 0 gs

/-- V.EXP2 (R100, R101). -/
def execVExp2 (e : EngIx) (d : DieIx) (c : CellIx) (s : State) : Answer :=
  s.field e d c .v 0x10 fun s snap w => s.special e d c snap w fexp2

/-- V.LOG2 (R100, R101). -/
def execVLog2 (e : EngIx) (d : DieIx) (c : CellIx) (s : State) : Answer :=
  s.field e d c .v 0x11 fun s snap w => s.special e d c snap w flog2

/-- V.RCP (R100, R101). -/
def execVRcp (e : EngIx) (d : DieIx) (c : CellIx) (s : State) : Answer :=
  s.field e d c .v 0x12 fun s snap w => s.special e d c snap w frcp

/-- V.RSQ (R100, R101). -/
def execVRsq (e : EngIx) (d : DieIx) (c : CellIx) (s : State) : Answer :=
  s.field e d c .v 0x13 fun s snap w => s.special e d c snap w frsq

/-! ### Scratchpad forms -/

/-- Read `n` bytes for a V.LD form. Where the slot also stores with S.ST, the first 64-byte beat is read as it stood at
issue, and later beats after the store (R88; log 15). -/
def State.vecRead (s : State) (e d c : Nat) (snap : Snap) (w a n : Nat) : State × List Byte × Option Nat :=
  let r := SpRef.cell e d c
  if (sField w).opc = 0x12 then
    let live := s.sp r
    let n0 := min 64 n
    let (s1, b0, x0) := (s.setSp r snap.sp).spReadBytes r a n0
    let (s2, b1, x1) := (s1.setSp r live).spReadBytes r (a + n0) (n - n0)
    (s2, b0 ++ b1, x0.or x1)
  else s.spReadBytes r a n

/-- V.LD (R100): 64 elements converted exactly to FP32. -/
def execVLd (e : EngIx) (d : DieIx) (c : CellIx) (s : State) : Answer :=
  s.field e d c .v 0x18 fun s snap w =>
    let f := vField w
    let fmt := Fmt.ofCode f.fmt
    let (s1, bs, bad) := s.vecRead e d c snap w (vAddr snap.sregs f) fmt.vecBytes
    match bad with
    | some a => s1.faultSpUe e d c a 1 (s.cell e d c).slot
    | none =>
      s1.plain e d c f.vd ((unpackCodes fmt bs 64).map fun x => BitVec.ofNat 32 (convert fmt .fp32 0 0#64 x).bits)

/-- One lane of V.LDMX (R100, R101). -/
def ldmxLane (fmt : Fmt) (mode scale : Nat) (g : Word64) (w : Nat) : LaneOut :=
  if scale = 255 then ⟨nan32, Flags.invalid, g⟩ else (roundVal .fp32 mode g (mxVal fmt scale w)).lane

/-- V.LDMX (R100, R101). -/
def execVLdmx (e : EngIx) (d : DieIx) (c : CellIx) (s : State) : Answer :=
  s.field e d c .v 0x19 fun s snap w =>
    let f := vField w
    let fmt := Fmt.ofCode f.fmt
    let (s1, bs, bad) := s.vecRead e d c snap w (vAddr snap.sregs f) fmt.vecBytes
    let (s2, sc, bad2) := s1.spReadBytes (.cell e d c) (sreg snap.sregs f.sb).toNat 2
    match bad.or bad2 with
    | some a => s2.faultSpUe e d c a 1 (s.cell e d c).slot
    | none =>
      let xs := unpackCodes fmt bs 64
      let scs := List.replicate 32 (byteAt sc 0) ++ List.replicate 32 (byteAt sc 1)
      s2.lanes e d c f.vd
        (List.zipWith (fun (p : Nat × Nat) g => ldmxLane fmt f.rnd p.1 g p.2) (scs.zip xs) (s2.cell e d c).laneGens)

/-- V.ST (R100): lanes converted and stored. -/
def execVSt (e : EngIx) (d : DieIx) (c : CellIx) (s : State) : Answer :=
  s.field e d c .v 0x1A fun s snap w =>
    let f := vField w
    let fmt := Fmt.ofCode f.fmt
    let ws := vreg snap.vregs f.vd
    let rs := List.zipWith (fun (a : Word) g => convert .fp32 fmt f.rnd g a.toNat) ws (s.cell e d c).laneGens
    let s1 := s.spWriteWords (.cell e d c) (vAddr snap.sregs f) (packCodes fmt (rs.map (·.bits)))
    let s2 := s1.onCell e d c fun k =>
      (k.raise (rs.foldl (fun a r => a ||| r.flags) Flags.none)).setGens 0 (rs.map (·.gen))
    s2.study e f.vs
      (List.zipWith (fun a r => ⟨fp a, some (fmt, r.bits), r.flags.has Flags.overflowClamp⟩) ws rs)

/-- The studied values of one quantised block. -/
def studyBlock (fmt : Fmt) (mode : Nat) (q : MxBlock) (ws : List Word) (gens : List Word64) : List Studied :=
  let each := mxElements fmt mode ((q.scale : Int) - 127) (ws.map fp) gens
  let clamps := if q.scale = 255 then ws.map fun _ => false else each.map fun r => r.flags.has Flags.overflowClamp
  List.zipWith (fun (p : Word × Bool) x => ⟨fp p.1, some (fmt, x), p.2⟩) (ws.zip clamps) q.codes

/-- V.STMX (R100, R102): two blocks and their scales; nothing is written when a scale's word cannot be read. -/
def execVStmx (e : EngIx) (d : DieIx) (c : CellIx) (s : State) : Answer :=
  s.field e d c .v 0x1B fun s snap w =>
    let f := vField w
    let fmt := Fmt.ofCode f.fmt
    let r := SpRef.cell e d c
    let ws := vreg snap.vregs f.vd
    let gs := (s.cell e d c).laneGens
    let lo := mxQuantise fmt f.rnd ((ws.take 32).map fp) (gs.take 32)
    let hi := mxQuantise fmt f.rnd ((ws.drop 32).map fp) (gs.drop 32)
    let a := vAddr snap.sregs f
    let sc := (sreg snap.sregs f.sb).toNat
    let (s0, _, bad) := s.spReadBytes r sc 2
    match bad with
    | some x => s0.faultSpUe e d c x 1 (s.cell e d c).slot
    | none =>
      let s1 := s0.spWriteWords r a (packCodes fmt (lo.codes ++ hi.codes))
      match s1.spMerge r sc [BitVec.ofNat 8 lo.scale] with
      | (s2, some x) => s2.faultSpUe e d c x 1 (s.cell e d c).slot
      | (s2, none) =>
        match s2.spMerge r (sc + 1) [BitVec.ofNat 8 hi.scale] with
        | (s3, some x) => s3.faultSpUe e d c x 1 (s.cell e d c).slot
        | (s3, none) =>
          let s4 := s3.onCell e d c fun k => (k.raise (lo.flags ||| hi.flags)).setGens 0 (lo.gens ++ hi.gens)
          s4.study e f.vs (studyBlock fmt f.rnd lo (ws.take 32) (gs.take 32)
            ++ studyBlock fmt f.rnd hi (ws.drop 32) (gs.drop 32))

/-! ### The vector network -/

/-- V.RECV (R100): four entries of VQ[Q], taken as they come. -/
def execVRecv (e : EngIx) (d : DieIx) (c : CellIx) (s : State) : Answer :=
  s.field e d c .v 0x1C fun s _ w =>
    let f := vField w
    (s.onCell e d c fun k => { k with vrecv := some { vd := f.vd, q := f.q, slot := k.slot } }).feed e d c

/-- V.SEND (R100): four entries to VO[Q], entry e holding lanes 16e to 16e + 15. -/
def execVSend (e : EngIx) (d : DieIx) (c : CellIx) (s : State) : Answer :=
  s.field e d c .v 0x1D fun s snap w =>
    let f := vField w
    let bs := (vreg snap.vregs f.vd).flatMap fun x => leBytes 4 x.toNat
    s.send e d c 0 (f.q % 2) ((chunks 64 4 bs).map fun b => ({ data := leNat b } : FEntry))

end Sys2Proof.Machine
end

