-- ==== Sys2Proof/Machine/Dispatch.lean ====
section
/-! DEFINITION. The meaning of every command: one arm per constructor of `Instr`. -/
namespace Sys2Proof.Machine

def exec (i : Instr) (s : State) : Host.Outcome State Fault Refusal :=
  match i with
  | .registerWrite r bar4 off size v => Sys2Proof.Machine.execRegisterWrite r bar4 off size v s
  | .mMma e d c => Sys2Proof.Machine.execMMma e d c s
  | .mmaGroupAdd e d c => Sys2Proof.Machine.execMmaGroupAdd e d c s
  | .mEmit e d c => Sys2Proof.Machine.execMEmit e d c s
  | .emitRow e d c => Sys2Proof.Machine.execEmitRow e d c s
  | .mMerge e d c => Sys2Proof.Machine.execMMerge e d c s
  | .mClr e d c => Sys2Proof.Machine.execMClr e d c s
  | .vMov e d c => Sys2Proof.Machine.execVMov e d c s
  | .vAdd e d c => Sys2Proof.Machine.execVAdd e d c s
  | .vSub e d c => Sys2Proof.Machine.execVSub e d c s
  | .vMul e d c => Sys2Proof.Machine.execVMul e d c s
  | .vFma e d c => Sys2Proof.Machine.execVFma e d c s
  | .vMax e d c => Sys2Proof.Machine.execVMax e d c s
  | .vMin e d c => Sys2Proof.Machine.execVMin e d c s
  | .vCmplt e d c => Sys2Proof.Machine.execVCmplt e d c s
  | .vCmpeq e d c => Sys2Proof.Machine.execVCmpeq e d c s
  | .vSel e d c => Sys2Proof.Machine.execVSel e d c s
  | .vBrd e d c => Sys2Proof.Machine.execVBrd e d c s
  | .vRnd e d c => Sys2Proof.Machine.execVRnd e d c s
  | .vRed e d c => Sys2Proof.Machine.execVRed e d c s
  | .vExp2 e d c => Sys2Proof.Machine.execVExp2 e d c s
  | .vLog2 e d c => Sys2Proof.Machine.execVLog2 e d c s
  | .vRcp e d c => Sys2Proof.Machine.execVRcp e d c s
  | .vRsq e d c => Sys2Proof.Machine.execVRsq e d c s
  | .vLd e d c => Sys2Proof.Machine.execVLd e d c s
  | .vLdmx e d c => Sys2Proof.Machine.execVLdmx e d c s
  | .vSt e d c => Sys2Proof.Machine.execVSt e d c s
  | .vStmx e d c => Sys2Proof.Machine.execVStmx e d c s
  | .vRecv e d c => Sys2Proof.Machine.execVRecv e d c s
  | .vSend e d c => Sys2Proof.Machine.execVSend e d c s
  | .sAdd e d c => Sys2Proof.Machine.execSAdd e d c s
  | .sSub e d c => Sys2Proof.Machine.execSSub e d c s
  | .sAnd e d c => Sys2Proof.Machine.execSAnd e d c s
  | .sOr e d c => Sys2Proof.Machine.execSOr e d c s
  | .sXor e d c => Sys2Proof.Machine.execSXor e d c s
  | .sShl e d c => Sys2Proof.Machine.execSShl e d c s
  | .sShr e d c => Sys2Proof.Machine.execSShr e d c s
  | .sSra e d c => Sys2Proof.Machine.execSSra e d c s
  | .sMul e d c => Sys2Proof.Machine.execSMul e d c s
  | .sMin e d c => Sys2Proof.Machine.execSMin e d c s
  | .sMax e d c => Sys2Proof.Machine.execSMax e d c s
  | .sAddi e d c => Sys2Proof.Machine.execSAddi e d c s
  | .sLui e d c => Sys2Proof.Machine.execSLui e d c s
  | .sCmp e d c => Sys2Proof.Machine.execSCmp e d c s
  | .sCmpi e d c => Sys2Proof.Machine.execSCmpi e d c s
  | .sBr e d c => Sys2Proof.Machine.execSBr e d c s
  | .sLd e d c => Sys2Proof.Machine.execSLd e d c s
  | .sSt e d c => Sys2Proof.Machine.execSSt e d c s
  | .sRecv e d c => Sys2Proof.Machine.execSRecv e d c s
  | .sSend e d c => Sys2Proof.Machine.execSSend e d c s
  | .sTokr e d c => Sys2Proof.Machine.execSTokr e d c s
  | .sToks e d c => Sys2Proof.Machine.execSToks e d c s
  | .sWait e d c => Sys2Proof.Machine.execSWait e d c s
  | .sAcnt e d c => Sys2Proof.Machine.execSAcnt e d c s
  | .sAset e d c => Sys2Proof.Machine.execSAset e d c s
  | .sFlg e d c => Sys2Proof.Machine.execSFlg e d c s
  | .sFlgc e d c => Sys2Proof.Machine.execSFlgc e d c s
  | .sTime e d c => Sys2Proof.Machine.execSTime e d c s
  | .sGetl e d c => Sys2Proof.Machine.execSGetl e d c s
  | .sGend e d c => Sys2Proof.Machine.execSGend e d c s
  | .cellGlazeEnd e d c => Sys2Proof.Machine.execCellGlazeEnd e d c s
  | .routeHop e d c net pt => Sys2Proof.Machine.execRouteHop e d c net pt s
  | .steerFire e d c unit => Sys2Proof.Machine.execSteerFire e d c unit s
  | .stallQuietBite e d => Sys2Proof.Machine.execStallQuietBite e d s
  | .stallAgeBite e d => Sys2Proof.Machine.execStallAgeBite e d s
  | .fabFaultClear r e m v => Sys2Proof.Machine.execFabFaultClear r e m v s
  | .canvasLoad r e => Sys2Proof.Machine.execCanvasLoad r e s
  | .canvasLoadStandby r e => Sys2Proof.Machine.execCanvasLoadStandby r e s
  | .canvasHeaderCheck e => Sys2Proof.Machine.execCanvasHeaderCheck e s
  | .canvasSectionApply e => Sys2Proof.Machine.execCanvasSectionApply e s
  | .cellDataWrite e d => Sys2Proof.Machine.execCellDataWrite e d s
  | .canvasBlockCheckFail e => Sys2Proof.Machine.execCanvasBlockCheckFail e s
  | .canvasLoadComplete e => Sys2Proof.Machine.execCanvasLoadComplete e s
  | .canvasStart r e => Sys2Proof.Machine.execCanvasStart r e s
  | .canvasStop r e => Sys2Proof.Machine.execCanvasStop r e s
  | .canvasUnload r e => Sys2Proof.Machine.execCanvasUnload r e s
  | .glazeSwitch e => Sys2Proof.Machine.execGlazeSwitch e s
  | .stbyArm r e v => Sys2Proof.Machine.execStbyArm r e v s
  | .stbyArmReply e => Sys2Proof.Machine.execStbyArmReply e s
  | .stbyDisarm r e v => Sys2Proof.Machine.execStbyDisarm r e v s
  | .stbyCoverWrite r e n v => Sys2Proof.Machine.execStbyCoverWrite r e n v s
  | .varnishCommit e => Sys2Proof.Machine.execVarnishCommit e s
  | .standbyActivate e => Sys2Proof.Machine.execStandbyActivate e s
  | .standbyRestoreDone e => Sys2Proof.Machine.execStandbyRestoreDone e s
  | .spmPowerRequest r e v => Sys2Proof.Machine.execSpmPowerRequest r e v s
  | .spmPowerDone e b => Sys2Proof.Machine.execSpmPowerDone e b s
  | .spmZeroStart r e v => Sys2Proof.Machine.execSpmZeroStart r e v s
  | .spmZeroDone e b => Sys2Proof.Machine.execSpmZeroDone e b s
  | .cellZeroFillDone e d => Sys2Proof.Machine.execCellZeroFillDone e d s
  | .remoteWrite e sp a counter data => Sys2Proof.Machine.execRemoteWrite e sp a counter data s
  | .remoteRead e sp a n by' => Sys2Proof.Machine.execRemoteRead e sp a n by' s
  | .correctedWriteback e sp b => Sys2Proof.Machine.execCorrectedWriteback e sp b s
  | .ceClr r e v => Sys2Proof.Machine.execCeClr r e v s
  | .acntSeti r e v => Sys2Proof.Machine.execAcntSeti r e v s
  | .hbmAccess e st j write corrected parity fails => Sys2Proof.Machine.execHbmAccess e st j write corrected parity fails s
  | .stackTempRead e st temp => Sys2Proof.Machine.execStackTempRead e st temp s
  | .hubBlockWrite e st j data => Sys2Proof.Machine.execHubBlockWrite e st j data s
  | .hubBlockRead e st j by' => Sys2Proof.Machine.execHubBlockRead e st j by' s
  | .partialWriteHold e st j off data => Sys2Proof.Machine.execPartialWriteHold e st j off data s
  | .assemblyTimeout e st j => Sys2Proof.Machine.execAssemblyTimeout e st j s
  | .scrubBlock e => Sys2Proof.Machine.execScrubBlock e s
  | .dmaqTailWrite r e q v => Sys2Proof.Machine.execDmaqTailWrite r e q v s
  | .dmaDescStart e q => Sys2Proof.Machine.execDmaDescStart e q s
  | .dmaCopy e q ix code data => Sys2Proof.Machine.execDmaCopy e q ix code data s
  | .dmaFill e q ix => Sys2Proof.Machine.execDmaFill e q ix s
  | .dmaNop e q ix => Sys2Proof.Machine.execDmaNop e q ix s
  | .dmaPieceAck e q ix code => Sys2Proof.Machine.execDmaPieceAck e q ix code s
  | .dmaDescComplete e q ix => Sys2Proof.Machine.execDmaDescComplete e q ix s
  | .dmaqResume r e q => Sys2Proof.Machine.execDmaqResume r e q s
  | .dmaqSkip r e q => Sys2Proof.Machine.execDmaqSkip r e q s
  | .dmaqClear r e q => Sys2Proof.Machine.execDmaqClear r e q s
  | .streamReadEntry e ix code data => Sys2Proof.Machine.execStreamReadEntry e ix code data s
  | .streamWriteEntry e ix => Sys2Proof.Machine.execStreamWriteEntry e ix s
  | .streamDoorbell e ix => Sys2Proof.Machine.execStreamDoorbell e ix s
  | .mergeWindowClose e line => Sys2Proof.Machine.execMergeWindowClose e line s
  | .mcErrClear r e st v => Sys2Proof.Machine.execMcErrClear r e st v s
  | .pagedGather e q ix => Sys2Proof.Machine.execPagedGather e q ix s
  | .pagedScatter e q ix code data => Sys2Proof.Machine.execPagedScatter e q ix code data s
  | .bind e src => Sys2Proof.Machine.execBind e src s
  | .extend e src => Sys2Proof.Machine.execExtend e src s
  | .shrink e src => Sys2Proof.Machine.execShrink e src s
  | .unbind e src => Sys2Proof.Machine.execUnbind e src s
  | .refresh e src => Sys2Proof.Machine.execRefresh e src s
  | .ctxopDrainDone e => Sys2Proof.Machine.execCtxopDrainDone e s
  | .walk e q ix => Sys2Proof.Machine.execWalk e q ix s
  | .walkMissFill e id line => Sys2Proof.Machine.execWalkMissFill e id line s
  | .vsSnap r e v => Sys2Proof.Machine.execVsSnap r e v s
  | .vsReady e => Sys2Proof.Machine.execVsReady e s
  | .vsExportDone e => Sys2Proof.Machine.execVsExportDone e s
  | .vsMissedClear r e v => Sys2Proof.Machine.execVsMissedClear r e v s
  | .stallClear r e v => Sys2Proof.Machine.execStallClear r e v s
  | .torusHop ix credit => Sys2Proof.Machine.execTorusHop ix credit s
  | .flitReplay e n => Sys2Proof.Machine.execFlitReplay e n s
  | .laneGroupFail e n reply group => Sys2Proof.Machine.execLaneGroupFail e n reply group s
  | .ringForward ix credit => Sys2Proof.Machine.execRingForward ix credit s
  | .positionDown p => Sys2Proof.Machine.execPositionDown p s
  | .positionUp p => Sys2Proof.Machine.execPositionUp p s
  | .adoptionBroadcast => Sys2Proof.Machine.execAdoptionBroadcast s
  | .resourceWdogBite e net port ix => Sys2Proof.Machine.execResourceWdogBite e net port ix s
  | .injectAdmit e net dst spread bytes reply => Sys2Proof.Machine.execInjectAdmit e net dst spread bytes reply s
  | .syncMismatch e => Sys2Proof.Machine.execSyncMismatch e s
  | .netBarArrive r e v => Sys2Proof.Machine.execNetBarArrive r e v s
  | .barrierRelease p => Sys2Proof.Machine.execBarrierRelease p s
  | .netAbortAssert r e v => Sys2Proof.Machine.execNetAbortAssert r e v s
  | .abortLine e => Sys2Proof.Machine.execAbortLine e s
  | .refSourceSwitch e primary alternate => Sys2Proof.Machine.execRefSourceSwitch e primary alternate s
  | .refSourceReturn e primary alternate => Sys2Proof.Machine.execRefSourceReturn e primary alternate s
  | .oscStretch e mhz => Sys2Proof.Machine.execOscStretch e mhz s
  | .marginWarn e m path n => Sys2Proof.Machine.execMarginWarn e m path n s
  | .marginLost e m path n => Sys2Proof.Machine.execMarginLost e m path n s
  | .syncEdge lost => Sys2Proof.Machine.execSyncEdge lost s
  | .syncMiss e => Sys2Proof.Machine.execSyncMiss e s
  | .cadSet r v => Sys2Proof.Machine.execCadSet r v s
  | .beatCfgWrite r v => Sys2Proof.Machine.execBeatCfgWrite r v s
  | .beatAccept wide time => Sys2Proof.Machine.execBeatAccept wide time s
  | .beatMissing => Sys2Proof.Machine.execBeatMissing s
  | .beatStuck => Sys2Proof.Machine.execBeatStuck s
  | .ptmDialogue reply => Sys2Proof.Machine.execPtmDialogue reply s
  | .partGridWrite r p ix v => Sys2Proof.Machine.execPartGridWrite r p ix v s
  | .phaseBoundary e => Sys2Proof.Machine.execPhaseBoundary e s
  | .schedLost e => Sys2Proof.Machine.execSchedLost e s
  | .realign r e v => Sys2Proof.Machine.execRealign r e v s
  | .hostLinkUp p width rate reversed => Sys2Proof.Machine.execHostLinkUp p width rate reversed s
  | .configRequest p fn dw write => Sys2Proof.Machine.execConfigRequest p fn dw write s
  | .apertureAccess p fn off n write => Sys2Proof.Machine.execApertureAccess p fn off n write s
  | .hostReqTimeout p => Sys2Proof.Machine.execHostReqTimeout p s
  | .hostMemRequest e q ix code data => Sys2Proof.Machine.execHostMemRequest e q ix code data s
  | .eventRecord e => Sys2Proof.Machine.execEventRecord e s
  | .qcCreate r p fn v => Sys2Proof.Machine.execQcCreate r p fn v s
  | .qcDestroy r p fn v => Sys2Proof.Machine.execQcDestroy r p fn v s
  | .qcResume r p fn v => Sys2Proof.Machine.execQcResume r p fn v s
  | .qcSkip r p fn v => Sys2Proof.Machine.execQcSkip r p fn v s
  | .cmdTailWrite p fn k v => Sys2Proof.Machine.execCmdTailWrite p fn k v s
  | .cmdFetch p k ok data => Sys2Proof.Machine.execCmdFetch p k ok data s
  | .cmdSubmit p k => Sys2Proof.Machine.execCmdSubmit p k s
  | .cmdWrite p k => Sys2Proof.Machine.execCmdWrite p k s
  | .cmdNop p k => Sys2Proof.Machine.execCmdNop p k s
  | .queueStuck p k => Sys2Proof.Machine.execQueueStuck p k s
  | .feedData p fn f off data enabled => Sys2Proof.Machine.execFeedData p fn f off data enabled s
  | .feedEnd p fn f v => Sys2Proof.Machine.execFeedEnd p fn f v s
  | .feedPortRead e from' => Sys2Proof.Machine.execFeedPortRead e from' s
  | .feedDeliver p f corrected bad => Sys2Proof.Machine.execFeedDeliver p f corrected bad s
  | .flush r p f v => Sys2Proof.Machine.execFlush r p f v s
  | .fqCfgWrite r p f v => Sys2Proof.Machine.execFqCfgWrite r p f v s
  | .fqErrClear r p f v => Sys2Proof.Machine.execFqErrClear r p f v s
  | .perstAssert p asserted narrow => Sys2Proof.Machine.execPerstAssert p asserted narrow s
  | .perstStuck p => Sys2Proof.Machine.execPerstStuck p s
  | .portReset p surprise => Sys2Proof.Machine.execPortReset p surprise s
  | .portResetDrainEnd p => Sys2Proof.Machine.execPortResetDrainEnd p s
  | .functionLevelReset p fn => Sys2Proof.Machine.execFunctionLevelReset p fn s
  | .linkPresence p present => Sys2Proof.Machine.execLinkPresence p present s
  | .linkTrain p locked failed version panel port delay => Sys2Proof.Machine.execLinkTrain p locked failed version panel port delay s
  | .linkRetrain p => Sys2Proof.Machine.execLinkRetrain p s
  | .retrain r p v => Sys2Proof.Machine.execRetrain r p v s
  | .linkPacketRx p ack bad data => Sys2Proof.Machine.execLinkPacketRx p ack bad data s
  | .linkNakReplay p ack => Sys2Proof.Machine.execLinkNakReplay p ack s
  | .linkLaneFail p lane => Sys2Proof.Machine.execLinkLaneFail p lane s
  | .linkWidthChange p failed => Sys2Proof.Machine.execLinkWidthChange p failed s
  | .linkHoldTimeout p => Sys2Proof.Machine.execLinkHoldTimeout p s
  | .linkForward p => Sys2Proof.Machine.execLinkForward p s
  | .linkReqTimeout e q ix => Sys2Proof.Machine.execLinkReqTimeout e q ix s
  | .resetNotice p => Sys2Proof.Machine.execResetNotice p s
  | .beatTx p => Sys2Proof.Machine.execBeatTx p s
  | .collData p => Sys2Proof.Machine.execCollData p s
  | .collResult p => Sys2Proof.Machine.execCollResult p s
  | .collAbort c p => Sys2Proof.Machine.execCollAbort c p s
  | .collTimeout c => Sys2Proof.Machine.execCollTimeout c s
  | .collAbortCmd r c v => Sys2Proof.Machine.execCollAbortCmd r c v s
  | .collReset r c v => Sys2Proof.Machine.execCollReset r c v s
  | .verdictRx p => Sys2Proof.Machine.execVerdictRx p s
  | .expelClear r ix v => Sys2Proof.Machine.execExpelClear r ix v s
  | .pairEnable r v partner => Sys2Proof.Machine.execPairEnable r v partner s
  | .mirror dest data => Sys2Proof.Machine.execMirror dest data s
  | .pairCommit period copied => Sys2Proof.Machine.execPairCommit period copied s
  | .pairApplyDone => Sys2Proof.Machine.execPairApplyDone s
  | .pairBeat => Sys2Proof.Machine.execPairBeat s
  | .pairFail p => Sys2Proof.Machine.execPairFail p s
  | .pairSplit => Sys2Proof.Machine.execPairSplit s
  | .takeover r v => Sys2Proof.Machine.execTakeover r v s
  | .adopt p => Sys2Proof.Machine.execAdopt p s
  | .skLinkUp port failed record => Sys2Proof.Machine.execSkLinkUp port failed record s
  | .skLaneFail port m lane => Sys2Proof.Machine.execSkLaneFail port m lane s
  | .skPortDown e n => Sys2Proof.Machine.execSkPortDown e n s
  | .guestPresence g present => Sys2Proof.Machine.execGuestPresence g present s
  | .guestTrip g => Sys2Proof.Machine.execGuestTrip g s
  | .admitSite r g v => Sys2Proof.Machine.execAdmitSite r g v s
  | .revoke r g v => Sys2Proof.Machine.execRevoke r g v s
  | .guestReset r g v => Sys2Proof.Machine.execGuestReset r g v s
  | .release r g v => Sys2Proof.Machine.execRelease r g v s
  | .guestPacket g edge data => Sys2Proof.Machine.execGuestPacket g edge data s
  | .guestWindowRequest g e off n write => Sys2Proof.Machine.execGuestWindowRequest g e off n write s
  | .guestTimeout g => Sys2Proof.Machine.execGuestTimeout g s
  | .vstageUpdate e min die => Sys2Proof.Machine.execVstageUpdate e min die s
  | .regStageFail e die stage => Sys2Proof.Machine.execRegStageFail e die stage s
  | .phaseFail e phase => Sys2Proof.Machine.execPhaseFail e phase s
  | .inputSample decivolt amps draws buses edge => Sys2Proof.Machine.execInputSample decivolt amps draws buses edge s
  | .inputLost => Sys2Proof.Machine.execInputLost s
  | .throttleStep => Sys2Proof.Machine.execThrottleStep s
  | .breakerTrip e cause => Sys2Proof.Machine.execBreakerTrip e cause s
  | .on r e v => Sys2Proof.Machine.execOn r e v s
  | .rampStart e => Sys2Proof.Machine.execRampStart e s
  | .rampPause e mv => Sys2Proof.Machine.execRampPause e mv s
  | .rampResume e mv => Sys2Proof.Machine.execRampResume e mv s
  | .rampAbort e => Sys2Proof.Machine.execRampAbort e s
  | .rampDone e => Sys2Proof.Machine.execRampDone e s
  | .off r e v => Sys2Proof.Machine.execOff r e v s
  | .edgeUv => Sys2Proof.Machine.execEdgeUv s
  | .pwrgdAccept => Sys2Proof.Machine.execPwrgdAccept s
  | .pwrgdLoss ns => Sys2Proof.Machine.execPwrgdLoss ns s
  | .mrstAssert asserted ns => Sys2Proof.Machine.execMrstAssert asserted ns s
  | .mrstStuck => Sys2Proof.Machine.execMrstStuck s
  | .alwaysOnUp mode supervised tray => Sys2Proof.Machine.execAlwaysOnUp mode supervised tray s
  | .easelBoot bad standby => Sys2Proof.Machine.execEaselBoot bad standby s
  | .groundVerify bad => Sys2Proof.Machine.execGroundVerify bad s
  | .edgeUp clear => Sys2Proof.Machine.execEdgeUp clear s
  | .gessoWave => Sys2Proof.Machine.execGessoWave s
  | .engClockLock e => Sys2Proof.Machine.execEngClockLock e s
  | .engTrainTest e trained links findings => Sys2Proof.Machine.execEngTrainTest e trained links findings s
  | .engDefectUpdate e => Sys2Proof.Machine.execEngDefectUpdate e s
  | .engEnterService e => Sys2Proof.Machine.execEngEnterService e s
  | .panelReady => Sys2Proof.Machine.execPanelReady s
  | .verify r => Sys2Proof.Machine.execVerify r s
  | .edge r => Sys2Proof.Machine.execEdge r s
  | .power r => Sys2Proof.Machine.execPower r s
  | .clock r => Sys2Proof.Machine.execClock r s
  | .train r => Sys2Proof.Machine.execTrain r s
  | .test r => Sys2Proof.Machine.execTest r s
  | .defects r => Sys2Proof.Machine.execDefects r s
  | .service r => Sys2Proof.Machine.execService r s
  | .stepOff r => Sys2Proof.Machine.execStepOff r s
  | .ready r => Sys2Proof.Machine.execReady r s
  | .cellReset r e v => Sys2Proof.Machine.execCellReset r e v s
  | .dieReset r e v => Sys2Proof.Machine.execDieReset r e v s
  | .engineReset r v => Sys2Proof.Machine.execEngineReset r v s
  | .engineResetMc e => Sys2Proof.Machine.execEngineResetMc e s
  | .engineResetDone e => Sys2Proof.Machine.execEngineResetDone e s
  | .partitionReset r v => Sys2Proof.Machine.execPartitionReset r v s
  | .computeReset r v => Sys2Proof.Machine.execComputeReset r v s
  | .fullReset r v => Sys2Proof.Machine.execFullReset r v s
  | .fullResetApply mode supervised tray passes bad => Sys2Proof.Machine.execFullResetApply mode supervised tray passes bad s
  | .faultReport src scope detail consumer => Sys2Proof.Machine.execFaultReport src scope detail consumer s
  | .faultPulseEnd => Sys2Proof.Machine.execFaultPulseEnd s
  | .faultInject r v => Sys2Proof.Machine.execFaultInject r v s
  | .junctionSample e temps => Sys2Proof.Machine.execJunctionSample e temps s
  | .thermalLevelStep e => Sys2Proof.Machine.execThermalLevelStep e s
  | .coolantSample inlet inlet2 outlet outlet2 => Sys2Proof.Machine.execCoolantSample inlet inlet2 outlet outlet2 s
  | .flowPulse ns => Sys2Proof.Machine.execFlowPulse ns s
  | .flowUpdate => Sys2Proof.Machine.execFlowUpdate s
  | .flowZero => Sys2Proof.Machine.execFlowZero s
  | .flowStuck => Sys2Proof.Machine.execFlowStuck s
  | .rearm r v => Sys2Proof.Machine.execRearm r v s
  | .shutdownLinkOff => Sys2Proof.Machine.execShutdownLinkOff s
  | .thermalCycleSample e => Sys2Proof.Machine.execThermalCycleSample e s
  | .thermalCycleSave => Sys2Proof.Machine.execThermalCycleSave s
  | .easelLoadWindow load => Sys2Proof.Machine.execEaselLoadWindow load s
  | .easelTakeover cause => Sys2Proof.Machine.execEaselTakeover cause s
  | .easelResume => Sys2Proof.Machine.execEaselResume s
  | .info src seq how => Sys2Proof.Machine.execInfo src seq how s
  | .getCert src seq how => Sys2Proof.Machine.execGetCert src seq how s
  | .attest src seq how nonce => Sys2Proof.Machine.execAttest src seq how nonce s
  | .imgBegin src seq how kind total => Sys2Proof.Machine.execImgBegin src seq how kind total s
  | .imgChunk src seq how off data => Sys2Proof.Machine.execImgChunk src seq how off data s
  | .imgEnd src seq how => Sys2Proof.Machine.execImgEnd src seq how s
  | .imgAbort src seq how => Sys2Proof.Machine.execImgAbort src seq how s
  | .imgIdleTimeout => Sys2Proof.Machine.execImgIdleTimeout s
  | .fwActivate src seq how found => Sys2Proof.Machine.execFwActivate src seq how found s
  | .handover src seq how port => Sys2Proof.Machine.execHandover src seq how port s
  | .accept src seq how => Sys2Proof.Machine.execAccept src seq how s
  | .handoverLapse => Sys2Proof.Machine.execHandoverLapse s
  | .setOwner src seq how port => Sys2Proof.Machine.execSetOwner src seq how port s
  | .setToken src seq how token => Sys2Proof.Machine.execSetToken src seq how token s
  | .ownerKey src seq how slot key => Sys2Proof.Machine.execOwnerKey src seq how slot key s
  | .chainKey src seq how key => Sys2Proof.Machine.execChainKey src seq how key s
  | .superviseNext src seq how => Sys2Proof.Machine.execSuperviseNext src seq how s
  | .logRead src seq how first count => Sys2Proof.Machine.execLogRead src seq how first count s
  | .logCheckpoint src seq how at' => Sys2Proof.Machine.execLogCheckpoint src seq how at' s
  | .defectRead src seq how first count => Sys2Proof.Machine.execDefectRead src seq how first count s
  | .telemetry src seq how => Sys2Proof.Machine.execTelemetry src seq how s
  | .verdict src seq how target epoch reason => Sys2Proof.Machine.execVerdict src seq how target epoch reason s
  | .verdictCheck => Sys2Proof.Machine.execVerdictCheck s
  | .regRead src seq how off => Sys2Proof.Machine.execRegRead src seq how off s
  | .regWrite src seq how off v => Sys2Proof.Machine.execRegWrite src seq how off v s
  | .open src seq how => Sys2Proof.Machine.execOpen src seq how s
  | .prove src seq how proof => Sys2Proof.Machine.execProve src seq how proof s
  | .close src seq how => Sys2Proof.Machine.execClose src seq how s
  | .sessionIdle => Sys2Proof.Machine.execSessionIdle s
  | .mgmtFrame frame how => Sys2Proof.Machine.execMgmtFrame frame how s
  | .logDrain n => Sys2Proof.Machine.execLogDrain n s
  | .logUtcCommit r v => Sys2Proof.Machine.execLogUtcCommit r v s
  | .defectAppend => Sys2Proof.Machine.execDefectAppend s
  | .mateAssert => Sys2Proof.Machine.execMateAssert s
  | .mateBreak ns => Sys2Proof.Machine.execMateBreak ns s
  | .cprsntAssert p => Sys2Proof.Machine.execCprsntAssert p s
  | .cprsntDeassert p ns => Sys2Proof.Machine.execCprsntDeassert p ns s
  | .cageOverpower p => Sys2Proof.Machine.execCageOverpower p s
  | .aux3v3Loss => Sys2Proof.Machine.execAux3v3Loss s
  | .noLock e => Sys2Proof.Machine.execNoLock e s
  | .telemetrySample => Sys2Proof.Machine.execTelemetrySample s
  | .cadEngDroopClear r e v => Sys2Proof.Machine.execCadEngDroopClear r e v s
  | .cadEngMarginClear r e v => Sys2Proof.Machine.execCadEngMarginClear r e v s
  | .cadBeatCntClear r v => Sys2Proof.Machine.execCadBeatCntClear r v s
  | .lnkPortCntClear r p n v => Sys2Proof.Machine.execLnkPortCntClear r p n v s
  | .lnkRedirClear r ix v => Sys2Proof.Machine.execLnkRedirClear r ix v s
  | .skGuestErrClear r g v => Sys2Proof.Machine.execSkGuestErrClear r g v s
  | .thmFlowCntClear r v => Sys2Proof.Machine.execThmFlowCntClear r v s
  | .thmEngStatWrite r e v => Sys2Proof.Machine.execThmEngStatWrite r e v s
  | .dmaqEnable r e q v => Sys2Proof.Machine.execDmaqEnable r e q v s
  | .collEnable r c v => Sys2Proof.Machine.execCollEnable r c v s

end Sys2Proof.Machine
end

