-- ==== Sys2Proof/Machine/Tick.lean ====
section
/-! DEFINITION. What the block does while no command waits (log 66). -/
namespace Sys2Proof.Machine

/-- One tick of the reference with nothing commanded: time and the counts advance, and cell and die resets in progress end (12 R304, R305;
17 R459). -/
def State.tick (s : State) : State := s.tickCounts.releaseHeld

end Sys2Proof.Machine
end

