-- ==== Sys2Proof/Safety.lean ====
section
/-! DEFINITION. What a safe run of the block is: no step stops it, and its stores keep their one canonical form, so that equal contents are equal
data; and the frames in which the statements say what a command leaves alone. -/
namespace Sys2Proof.Safety
open Sys2Proof.Machine

/-- The byte stores of the panel, the stacks and the mailbox buffers, are in canonical form. -/
def StoresWf (s : State) : Prop := Memory.wf s.hbm = true ∧ Memory.wf s.mbox = true

/-- An outcome that goes on. -/
def GoesOn (o : Host.Outcome State Fault Refusal) : Prop := ∃ t, o = .next t

/-- `n` steps, none of which stops the block. -/
def SafeRun : Nat → State → Prop
  | 0, _ => True
  | n + 1, s => ∃ t, step s = .next t ∧ SafeRun n t

/-! ### Frames -/

/-- `t` agrees with `s` in everything but the cells, the fabrics, the stacks, the number of the next free value, and what recording a
fault and its actions writes (18 R468 to R479): registers, the engines' containment and abort marks, the log and parity counts, the capture FIFO,
events, the FAULT_N pulse, announcements, links, collectives, pending vectors and what is sent out. -/
structure Quiet (s t : State) : Prop where
  now : t.now = s.now
  master : t.master = s.master
  limit : t.limit = s.limit
  edgeDown : t.edgeDown = s.edgeDown
  edgeFeid : t.edgeFeid = s.edgeFeid
  primary : t.primary = s.primary
  ground : t.ground = s.ground
  armCopies : t.armCopies = s.armCopies
  gapWrites : t.gapWrites = s.gapWrites
  annUp : t.annUp = s.annUp
  adoptQ : t.adoptQ = s.adoptQ
  members : t.members = s.members
  packets : t.packets = s.packets
  linkIn : t.linkIn = s.linkIn
  collIn : t.collIn = s.collIn
  verdictSeen : t.verdictSeen = s.verdictSeen
  verdictIn : t.verdictIn = s.verdictIn
  pair : t.pair = s.pair
  adoptLost : t.adoptLost = s.adoptLost
  ports : t.ports = s.ports
  qctx : t.qctx = s.qctx
  feeds : t.feeds = s.feeds
  cfgSpace : t.cfgSpace = s.cfgSpace
  msix : t.msix = s.msix
  beat : t.beat = s.beat
  setPend : t.setPend = s.setPend
  edgeMark : t.edgeMark = s.edgeMark
  stages : t.stages = s.stages
  skFail : t.skFail = s.skFail
  guestWaits : t.guestWaits = s.guestWaits
  guestTag : t.guestTag = s.guestTag
  guestHeld : t.guestHeld = s.guestHeld
  rampQ : t.rampQ = s.rampQ
  input : t.input = s.input
  flow : t.flow = s.flow
  boot : t.boot = s.boot
  flash : t.flash = s.flash
  delivery : t.delivery = s.delivery
  session : t.session = s.session
  mbox : t.mbox = s.mbox
  latches : t.latches = s.latches
  utc : t.utc = s.utc
  easel : t.easel = s.easel
  pending : t.pending = s.pending

/-- `t` differs from `s` at most in what recording a fault and its actions writes. -/
structure FaultFrame (s t : State) : Prop where
  quiet : Quiet s t
  cells : t.cells = s.cells
  fabs : t.fabs = s.fabs
  freeCtr : t.freeCtr = s.freeCtr
  hbm : t.hbm = s.hbm

/-! ### Frames by part -/

/-- The parts of the state. -/
inductive Part where
  | now | master | freeCtr | defectQ | regs | hbm | limit | edgeDown | edgeFeid | primary | engines | cells | fabs | ground
  | faultLog | cellParity | armCopies | halted | capture | gapWrites | gapEvents | events | pulseStart | annDown | annUp | adoptQ
  | members | packets | links | linkIn | colls | collIn | verdictSeen | verdictIn | pair | adoptLost | ports | qctx | feeds
  | cfgSpace | msix | msixPend | beat | setPend | edgeMark | stages | skFail | guestWaits | guestTag | guestHeld | rampQ | input
  | flow | boot | flash | delivery | session | mbox | latches | utc | easel | out | pending
  deriving DecidableEq, Repr

/-- `t` agrees with `s` in one part. -/
def Same (s t : State) : Part → Prop
  | .now => t.now = s.now
  | .master => t.master = s.master
  | .freeCtr => t.freeCtr = s.freeCtr
  | .defectQ => t.defectQ = s.defectQ
  | .regs => t.regs = s.regs
  | .hbm => t.hbm = s.hbm
  | .limit => t.limit = s.limit
  | .edgeDown => t.edgeDown = s.edgeDown
  | .edgeFeid => t.edgeFeid = s.edgeFeid
  | .primary => t.primary = s.primary
  | .engines => t.engines = s.engines
  | .cells => t.cells = s.cells
  | .fabs => t.fabs = s.fabs
  | .ground => t.ground = s.ground
  | .faultLog => t.faultLog = s.faultLog
  | .cellParity => t.cellParity = s.cellParity
  | .armCopies => t.armCopies = s.armCopies
  | .halted => t.halted = s.halted
  | .capture => t.capture = s.capture
  | .gapWrites => t.gapWrites = s.gapWrites
  | .gapEvents => t.gapEvents = s.gapEvents
  | .events => t.events = s.events
  | .pulseStart => t.pulseStart = s.pulseStart
  | .annDown => t.annDown = s.annDown
  | .annUp => t.annUp = s.annUp
  | .adoptQ => t.adoptQ = s.adoptQ
  | .members => t.members = s.members
  | .packets => t.packets = s.packets
  | .links => t.links = s.links
  | .linkIn => t.linkIn = s.linkIn
  | .colls => t.colls = s.colls
  | .collIn => t.collIn = s.collIn
  | .verdictSeen => t.verdictSeen = s.verdictSeen
  | .verdictIn => t.verdictIn = s.verdictIn
  | .pair => t.pair = s.pair
  | .adoptLost => t.adoptLost = s.adoptLost
  | .ports => t.ports = s.ports
  | .qctx => t.qctx = s.qctx
  | .feeds => t.feeds = s.feeds
  | .cfgSpace => t.cfgSpace = s.cfgSpace
  | .msix => t.msix = s.msix
  | .msixPend => t.msixPend = s.msixPend
  | .beat => t.beat = s.beat
  | .setPend => t.setPend = s.setPend
  | .edgeMark => t.edgeMark = s.edgeMark
  | .stages => t.stages = s.stages
  | .skFail => t.skFail = s.skFail
  | .guestWaits => t.guestWaits = s.guestWaits
  | .guestTag => t.guestTag = s.guestTag
  | .guestHeld => t.guestHeld = s.guestHeld
  | .rampQ => t.rampQ = s.rampQ
  | .input => t.input = s.input
  | .flow => t.flow = s.flow
  | .boot => t.boot = s.boot
  | .flash => t.flash = s.flash
  | .delivery => t.delivery = s.delivery
  | .session => t.session = s.session
  | .mbox => t.mbox = s.mbox
  | .latches => t.latches = s.latches
  | .utc => t.utc = s.utc
  | .easel => t.easel = s.easel
  | .out => t.out = s.out
  | .pending => t.pending = s.pending

/-- `t` differs from `s` at most in the parts named. -/
def Only (ps : List Part) (s t : State) : Prop := ∀ p, p ∉ ps → Same s t p

/-- The registers that `t` changes of `s` are among those named. -/
def RegsBut (as : List Nat) (s t : State) : Prop := ∀ a, a ∉ as → t.rd a = s.rd a

/-- Only engine `e` differs. -/
def EngsBut (e : Nat) (s t : State) : Prop := ∀ x, x ≠ e → t.eng x = s.eng x

/-- The parts that recording a fault and its actions may write (18_faults R468 to R479). -/
def faultParts : List Part :=
  [.defectQ, .regs, .engines, .faultLog, .cellParity, .halted, .capture, .gapEvents, .events, .pulseStart, .annDown, .links, .colls, .msixPend, .out]

/-! ### Cells -/

/-- A cell but for its place in the program and whether it has stopped: what only the fields of its slots change. -/
def work (k : Cell) : Cell := { k with slot := 0, iter := 0, ended := false, faulted := false, issue := none }

/-- From `s` to `t` cell `c` of die `d` of engine `e` has at most moved on in its program, been counted in its stall counters or been stopped by
a fault; every other cell, the fabrics and the stacks stand as they were. -/
structure SlotFrame (s t : State) (e d c : Nat) : Prop where
  quiet : Quiet s t
  own : work (t.cell e d c) = work (s.cell e d c)
  others : ∀ e' d' c', cellKey e' d' c' ≠ cellKey e d c → t.cell e' d' c' = s.cell e' d' c'
  fabs : t.fabs = s.fabs
  freeCtr : t.freeCtr = s.freeCtr
  hbm : t.hbm = s.hbm

/-- The cell stands at a slot that it has issued as `i` with the field of unit `u`, of opcode `opc`, still to be performed, and the
field need not wait for the slot's S.LD or S.ST (04_cell R87, R88). -/
def AtField (s : State) (e d c : Nat) (u : SlotUnit) (opc : Nat) (i : Issue) : Prop :=
  (s.cell e d c).issue = some i ∧ i.todo u = true ∧ unitOpc (s.curSlot e d c) u = opc ∧ behindScalar i (s.curSlot e d c) u = false

/-- The command `i` performs its field: the state it leads to is `m`, in which the field has had its effect, with the field done; and that last
part touches nothing but the cell's place, its stall counters and a fault of its next slot. -/
def Performs (cmd : Sys2Proof.Instr) (s m : State) (e d c : Nat) (u : SlotUnit) (i : Issue) : Prop :=
  exec cmd s = .next (m.fieldDone e d c u i) ∧ SlotFrame m (m.fieldDone e d c u i) e d c

/-- Lane `l` of vector register `v` of a register set. -/
def lane (m : SMap Word) (v l : Nat) : Word := SMap.getD m (v * 64 + l) 0#32

/-- The 64 lanes of `vd` take lane results, whose flags the cell raises and whose generators it keeps (04_cell R99). -/
def rounded (s : State) (e d c vd : Nat) (op : Nat → LaneOut) : State :=
  let rs := (List.range 64).map op
  s.onCell e d c fun k => ((k.setV vd (rs.map (·.w))).raise (rs.foldl (fun f r => f ||| r.flags) Flags.none)).setGens 0 (rs.map (·.gen))

/-- The 64 lanes of `vd` take values that set no flag. -/
def lanewise (s : State) (e d c vd : Nat) (op : Nat → Word) : State := s.onCell e d c fun k => k.setV vd ((List.range 64).map op)

/-- Scalar register `sd` takes a value; s0 takes none (04_cell R78). -/
def scalarTo (s : State) (e d c sd : Nat) (v : Word) : State := s.onCell e d c fun k => k.setS sd v

/-- The commands that perform a field of a slot, with the unit and the opcode of the field (04_cell R95, R100, R103). -/
def fieldCommands (e : Sys2Proof.EngIx) (d : Sys2Proof.DieIx) (c : Sys2Proof.CellIx) : List (Sys2Proof.Instr × SlotUnit × Nat) :=
  [(.mMma e d c, .m, 1), (.mEmit e d c, .m, 2), (.mMerge e d c, .m, 3), (.mClr e d c, .m, 4)] ++
  [(.vMov e d c, .v, 0x01), (.vAdd e d c, .v, 0x02), (.vSub e d c, .v, 0x03), (.vMul e d c, .v, 0x04), (.vFma e d c, .v, 0x05),
    (.vMax e d c, .v, 0x06), (.vMin e d c, .v, 0x07), (.vCmplt e d c, .v, 0x08), (.vCmpeq e d c, .v, 0x09), (.vSel e d c, .v, 0x0A),
    (.vBrd e d c, .v, 0x0B), (.vRnd e d c, .v, 0x0C), (.vRed e d c, .v, 0x0D), (.vExp2 e d c, .v, 0x10), (.vLog2 e d c, .v, 0x11),
    (.vRcp e d c, .v, 0x12), (.vRsq e d c, .v, 0x13), (.vLd e d c, .v, 0x18), (.vLdmx e d c, .v, 0x19), (.vSt e d c, .v, 0x1A),
    (.vStmx e d c, .v, 0x1B), (.vRecv e d c, .v, 0x1C), (.vSend e d c, .v, 0x1D)] ++
  [(.sAdd e d c, .s, 0x01), (.sSub e d c, .s, 0x02), (.sAnd e d c, .s, 0x03), (.sOr e d c, .s, 0x04), (.sXor e d c, .s, 0x05),
    (.sShl e d c, .s, 0x06), (.sShr e d c, .s, 0x07), (.sSra e d c, .s, 0x08), (.sMul e d c, .s, 0x09), (.sMin e d c, .s, 0x0A),
    (.sMax e d c, .s, 0x0B), (.sAddi e d c, .s, 0x0C), (.sLui e d c, .s, 0x0D), (.sCmp e d c, .s, 0x0E), (.sCmpi e d c, .s, 0x0F),
    (.sBr e d c, .s, 0x10), (.sLd e d c, .s, 0x11), (.sSt e d c, .s, 0x12), (.sRecv e d c, .s, 0x13), (.sSend e d c, .s, 0x14),
    (.sTokr e d c, .s, 0x15), (.sToks e d c, .s, 0x16), (.sWait e d c, .s, 0x18), (.sAcnt e d c, .s, 0x19), (.sAset e d c, .s, 0x1A),
    (.sFlg e d c, .s, 0x1C), (.sFlgc e d c, .s, 0x1D), (.sTime e d c, .s, 0x1E), (.sGetl e d c, .s, 0x1F), (.sGend e d c, .s, 0x20)]

/-- A live cell stands at a slot that has not issued and of which unit `u`'s field, of opcode `opc`, is to be performed under its predicate
(04_cell R84, R87). -/
def BeforeField (s : State) (e d c : Nat) (u : SlotUnit) (opc : Nat) : Prop :=
  s.cellLive e d c = true ∧ (s.cell e d c).issue = none ∧ unitOpc (s.curSlot e d c) u = opc ∧
    (match u, performs (s.cell e d c).preds (s.curSlot e d c) with
     | .m, (p, _, _) => p = true
     | .v, (_, p, _) => p = true
     | .s, (_, _, p) => p = true)

/-- What keeps the slot of a cell from issuing, if anything (10_value_studies R268). -/
def waits (s : State) (e d c : Nat) : Option (Nat × Nat) :=
  let p := performs (s.cell e d c).preds (s.curSlot e d c)
  s.waitReason e d c (s.prog e d c) (s.curSlot e d c) p.1 p.2.1 p.2.2

/-- The unit and address of the first field of the slot that breaks an address rule, if any (04_cell R102, R103, R106). -/
def badAddress (s : State) (e d c : Nat) : Option (Nat × Nat) :=
  let p := performs (s.cell e d c).preds (s.curSlot e d c)
  s.addrFault e d c (s.prog e d c) (s.curSlot e d c) p.1 p.2.1 p.2.2

/-- Whether the slot, or the descriptor that its MOP field names, has bad parity (04_cell R106). -/
def badSlot (s : State) (e d c : Nat) : Bool :=
  let k := s.cell e d c
  k.slotBad.contains (s.glaze e * 256 + k.slot) ||
    ((performs k.preds (s.curSlot e d c)).1 && k.descBad.contains (s.glaze e * 16 + (mField (s.curSlot e d c)).desc))

/-- The reply with a status that takes a request packet's place (11_panel_networks R286). -/
def answered (p : Packet) (st : Nat) : Packet :=
  { p with net := 1, src := p.dst, dst := p.src, bytes := 0, spread := none, status := st, vc1 := false, rows := false, alt := false }

/-! ### Writes of the control space -/

/-- A write of value `v` to register `a` by `r` passes its gate: the requester may make it, the capture FIFO takes its entry, and the block of
the register answers (00_scope R13; 13_host_ports R333, R334; 20_easel R526). -/
def Passes (s : State) (r : Sys2Proof.Req) (a v : Nat) : Prop := (s.gate r a v).2 = true

/-- The state in which such a write acts: its entry is in the capture FIFO where the register is protected. -/
def entered (s : State) (r : Sys2Proof.Req) (a v : Nat) : State := (s.gate r a v).1

/-! ### The mailbox -/

/-- The state in which a request of port `p` stands in its buffer (20_easel R516). -/
def filed (s : State) (p op seq : Nat) (pl : List Byte) : State := { s with mbox := Memory.writeN s.mbox (mbReqAt p) (mbBytes op seq pl) }

/-! ### Addresses -/

/-- Whether an address leads to a guest (15_sekaen R414). -/
def toGuest (s : State) (a : Nat) : Bool :=
  match s.target a with
  | .guest _ _ => true
  | _ => false

end Sys2Proof.Safety
end

