-- ==== Sys2Proof/Certificates/Slice0/Obligations.lean ====
section
/-! DEFINITION. The statements for the provers: what the numbered rules of the spec say the commands do. -/
section
open Sys2Proof Sys2Proof.Machine Sys2Proof.Safety

/-! ### Cells: the scalar unit (04_cell R84, R87, R103 to R106) -/

/-- R103: the two-operand and immediate operations, on the values that the registers held when the slot issued (R87).
R103, R104, R84: a compare sets a predicate, a branch sets the slot that follows, S.GEND ends the glaze after its slot.
R103, R106: loads and stores of the scratchpad and the entries of the scalar and control networks; an uncorrectable word or an entry with
bad parity stops the cell and leaves the destination.
R103, R105: arrival counters, flags, the cadence count and lanes.
The model's own choices it rests on: log 11, 13, 14. -/
def Obligations.ScalarFieldsComplete : Prop :=
  (∀ (s : State) (e : EngIx) (d : DieIx) (c : CellIx) (i : Issue),
      let f := sField (s.curSlot e d c)
      let a := sreg i.snap.sregs f.sa
      let b := sreg i.snap.sregs f.sb
      let gives := fun (cmd : Instr) (opc : Nat) (v : Word) =>
        AtField s e d c .s opc i → Performs cmd s (scalarTo s e d c f.sd v) e d c .s i
      gives (.sAdd e d c) 0x01 (BitVec.ofNat 32 (a.toNat + b.toNat)) ∧
      gives (.sSub e d c) 0x02 (BitVec.ofInt 32 (a.toInt - b.toInt)) ∧
      gives (.sAnd e d c) 0x03 (BitVec.ofNat 32 (Nat.land a.toNat b.toNat)) ∧
      gives (.sOr e d c) 0x04 (BitVec.ofNat 32 (Nat.lor a.toNat b.toNat)) ∧
      gives (.sXor e d c) 0x05 (BitVec.ofNat 32 (Nat.xor a.toNat b.toNat)) ∧
      gives (.sShl e d c) 0x06 (BitVec.ofNat 32 (a.toNat * 2 ^ (b.toNat % 32))) ∧
      gives (.sShr e d c) 0x07 (BitVec.ofNat 32 (a.toNat / 2 ^ (b.toNat % 32))) ∧
      gives (.sSra e d c) 0x08 (BitVec.ofInt 32 (a.toInt / 2 ^ (b.toNat % 32))) ∧
      gives (.sMul e d c) 0x09 (BitVec.ofNat 32 (a.toNat * b.toNat)) ∧
      gives (.sMin e d c) 0x0A (BitVec.ofInt 32 (min a.toInt b.toInt)) ∧
      gives (.sMax e d c) 0x0B (BitVec.ofInt 32 (max a.toInt b.toInt)) ∧
      gives (.sAddi e d c) 0x0C (BitVec.ofInt 32 (a.toInt + toSigned 23 f.imm)) ∧
      gives (.sLui e d c) 0x0D (BitVec.ofNat 32 (f.imm * 512))) ∧
  (∀ (s : State) (e : EngIx) (d : DieIx) (c : CellIx) (i : Issue),
      let f := sField (s.curSlot e d c)
      let a := sreg i.snap.sregs f.sa
      let b := sreg i.snap.sregs f.sb
      let imm := BitVec.ofInt 32 (toSigned 20 f.imm)
      let holds := fun (code : Nat) (x y : Word) =>
        (code = 0 ∧ x = y) ∨ (code = 1 ∧ x ≠ y) ∨ (code = 2 ∧ x.toInt < y.toInt) ∨ (code = 3 ∧ y.toInt ≤ x.toInt) ∨
        (code = 4 ∧ x.toNat < y.toNat) ∨ (code = 5 ∧ y.toNat ≤ x.toNat)
      (AtField s e d c .s 0x0E i → ∃ p : Bool, (p = true ↔ holds (f.imm % 8) a b) ∧
        Performs (.sCmp e d c) s (s.onCell e d c fun k => k.setP (f.sd % 8) p) e d c .s i) ∧
      (AtField s e d c .s 0x0F i → ∃ p : Bool, (p = true ↔ holds (bits f.imm 22 20) a imm) ∧
        Performs (.sCmpi e d c) s (s.onCell e d c fun k => k.setP (f.sd % 8) p) e d c .s i) ∧
      (AtField s e d c .s 0x10 i →
        Performs (.sBr e d c) s (s.onCell e d c fun k => { k with issue := some { i with target := some (f.imm % 256) } }) e d c .s i) ∧
      (AtField s e d c .s 0x20 i →
        Performs (.sGend e d c) s (s.onCell e d c fun k => { k with issue := some { i with gend := true } }) e d c .s i)) ∧
  (∀ (s : State) (e : EngIx) (d : DieIx) (c : CellIx) (i : Issue),
      let f := sField (s.curSlot e d c)
      let a := sreg i.snap.sregs f.sa
      let b := sreg i.snap.sregs f.sb
      let addr := ((a.toNat : Int) + toSigned 23 f.imm).toNat
      let slot := (s.cell e d c).slot
      let rd := s.spReadBytes (.cell e d c) addr 4
      let wr := s.spMerge (.cell e d c) addr (leBytes 4 b.toNat)
      let takes := fun (cmd : Instr) (q : Nat) =>
        (∀ t x, s.queueTake e d c q = (t, some x) →
          Performs cmd s (if x.parBad then t.faultNetPar e d c slot else scalarTo t e d c f.sd (BitVec.ofNat 32 x.data)) e d c .s i)
      (AtField s e d c .s 0x11 i → Performs (.sLd e d c) s
        (match rd.2.2 with
         | none => scalarTo rd.1 e d c f.sd (BitVec.ofNat 32 (leNat rd.2.1))
         | some bad => rd.1.faultSpUe e d c bad 2 slot) e d c .s i) ∧
      (AtField s e d c .s 0x12 i → Performs (.sSt e d c) s
        (match wr.2 with
         | none => wr.1
         | some bad => wr.1.faultSpUe e d c bad 2 slot) e d c .s i) ∧
      (AtField s e d c .s 0x13 i → takes (.sRecv e d c) (4 + f.imm % 4)) ∧
      (AtField s e d c .s 0x15 i → takes (.sTokr e d c) (8 + f.imm % 4)) ∧
      (AtField s e d c .s 0x14 i → Performs (.sSend e d c) s (s.send e d c 1 (f.imm % 2) [{ data := a.toNat }]) e d c .s i) ∧
      (AtField s e d c .s 0x16 i → Performs (.sToks e d c) s (s.send e d c 2 (f.imm % 2) [{ data := a.toNat % 256 }]) e d c .s i)) ∧
  (∀ (s : State) (e : EngIx) (d : DieIx) (c : CellIx) (i : Issue),
      let f := sField (s.curSlot e d c)
      let a := sreg i.snap.sregs f.sa
      let k := s.cell e d c
      let gives := fun (cmd : Instr) (opc : Nat) (v : Word) =>
        AtField s e d c .s opc i → Performs cmd s (scalarTo s e d c f.sd v) e d c .s i
      (AtField s e d c .s 0x18 i → Performs (.sWait e d c) s s e d c .s i) ∧
      gives (.sAcnt e d c) 0x19 (SMap.getD k.acnt (f.imm % 16) 0#32) ∧
      (AtField s e d c .s 0x1A i →
        Performs (.sAset e d c) s (s.onCell e d c fun k => { k with acnt := SMap.set 0#32 k.acnt (f.imm % 16) a }) e d c .s i) ∧
      gives (.sFlg e d c) 0x1C (i.snap.flags.setWidth 32) ∧
      (AtField s e d c .s 0x1D i → ∃ fl : Flags,
        (∀ n < 5, fl.getLsbD n = (k.flags.getLsbD n && (!a.getLsbD n || !i.snap.flags.getLsbD n))) ∧
        Performs (.sFlgc e d c) s (s.onCell e d c fun k => { k with flags := fl }) e d c .s i) ∧
      gives (.sTime e d c) 0x1E (BitVec.ofNat 32 ((s.eng e).count / 2 ^ 24)) ∧
      gives (.sGetl e d c) 0x1F (lane i.snap.vregs (bits f.imm 11 6) (bits f.imm 5 0)))

/-! ### Cells: the vector unit (04_cell R99 to R102) -/

/-- R99, R100, R101: the lane operations that round; lane L rounds under RND with generator L and raises its flags. V.RED's FMT 0 is the sum in
the fixed tree, FMT 1 the maximum, and its result goes to every lane.
R100, R101: the lane operations that move, order, compare and select; none rounds or raises a flag. V.SEL takes va where the bit pattern
of the vc lane is non-zero.
R100, R101: a special function gives its lanes and raises the flags of all of them.
R101: the special cases of the special functions, and the arithmetic of V.FMA on 0 × ∞, on every operand of their kind.
The model's own choices it rests on: log 2, 7, 9, 10, 11. -/
def Obligations.VectorFieldsComplete : Prop :=
  (∀ (s : State) (e : EngIx) (d : DieIx) (c : CellIx) (i : Issue),
      let f := vField (s.curSlot e d c)
      let k := s.cell e d c
      let va := lane i.snap.vregs f.va
      let vb := lane i.snap.vregs f.vb
      let vc := lane i.snap.vregs f.vc
      let gives := fun (cmd : Instr) (opc : Nat) (op : Nat → LaneOut) =>
        AtField s e d c .v opc i → Performs cmd s (rounded s e d c f.vd op) e d c .v i
      gives (.vAdd e d c) 0x02 (fun l => fadd f.rnd (k.gen l) (va l) (vb l)) ∧
      gives (.vSub e d c) 0x03 (fun l => fsub f.rnd (k.gen l) (va l) (vb l)) ∧
      gives (.vMul e d c) 0x04 (fun l => fmul f.rnd (k.gen l) (va l) (vb l)) ∧
      gives (.vFma e d c) 0x05 (fun l => ffma f.rnd (k.gen l) (va l) (vb l) (vc l)) ∧
      gives (.vRnd e d c) 0x0C (fun l => rndLane (Fmt.ofCode f.fmt) f.rnd (k.gen l) (va l)) ∧
      (AtField s e d c .v 0x0D i →
        let tree := redTree (fun g a b => if f.fmt = 0 then fadd f.rnd g a b else ⟨fmax a b, Flags.none, g⟩)
          ((List.range 64).map va) ((List.range 64).map k.gen)
        Performs (.vRed e d c) s
          (s.onCell e d c fun k => ((k.setV f.vd (List.replicate 64 tree.1)).raise tree.2.2).setGens 0 tree.2.1) e d c .v i)) ∧
  (∀ (s : State) (e : EngIx) (d : DieIx) (c : CellIx) (i : Issue),
      let f := vField (s.curSlot e d c)
      let va := lane i.snap.vregs f.va
      let vb := lane i.snap.vregs f.vb
      let vc := lane i.snap.vregs f.vc
      let gives := fun (cmd : Instr) (opc : Nat) (op : Nat → Word) =>
        AtField s e d c .v opc i → Performs cmd s (lanewise s e d c f.vd op) e d c .v i
      gives (.vMov e d c) 0x01 va ∧
      gives (.vMax e d c) 0x06 (fun l => if fp (va l) = .nan ∨ fp (vb l) = .nan then nan32
        else if orderKey (va l) < orderKey (vb l) then vb l else va l) ∧
      gives (.vMin e d c) 0x07 (fun l => if fp (va l) = .nan ∨ fp (vb l) = .nan then nan32
        else if orderKey (vb l) < orderKey (va l) then vb l else va l) ∧
      gives (.vCmplt e d c) 0x08 (fun l => if fp (va l) ≠ .nan ∧ fp (vb l) ≠ .nan ∧ valueKey (va l) < valueKey (vb l)
        then 0xFFFFFFFF#32 else 0#32) ∧
      gives (.vCmpeq e d c) 0x09 (fun l => if fp (va l) ≠ .nan ∧ fp (vb l) ≠ .nan ∧ valueKey (va l) = valueKey (vb l)
        then 0xFFFFFFFF#32 else 0#32) ∧
      gives (.vSel e d c) 0x0A (fun l => if vc l ≠ 0#32 then va l else vb l) ∧
      gives (.vBrd e d c) 0x0B (fun _ => sreg i.snap.sregs f.sa)) ∧
  (∀ (s : State) (e : EngIx) (d : DieIx) (c : CellIx) (i : Issue),
      let f := vField (s.curSlot e d c)
      let va := lane i.snap.vregs f.va
      let gives := fun (cmd : Instr) (opc : Nat) (op : Word → Word × Flags) =>
        AtField s e d c .v opc i → Performs cmd s
          (s.onCell e d c fun k => (k.setV f.vd ((List.range 64).map fun l => (op (va l)).1)).raise
            ((List.range 64).foldl (fun fl l => fl ||| (op (va l)).2) Flags.none)) e d c .v i
      gives (.vExp2 e d c) 0x10 fexp2 ∧ gives (.vLog2 e d c) 0x11 flog2 ∧ gives (.vRcp e d c) 0x12 frcp ∧
        gives (.vRsq e d c) 0x13 frsq) ∧
  ((∀ neg : Bool, frcp (zero32 neg) = (inf32 neg, Flags.none) ∧ frcp (inf32 neg) = (zero32 neg, Flags.none) ∧
      frsq (zero32 neg) = (inf32 neg, Flags.none) ∧ flog2 (zero32 neg) = (inf32 true, Flags.none)) ∧
    frsq (inf32 false) = (0#32, Flags.none) ∧ flog2 (inf32 false) = (inf32 false, Flags.none) ∧
    fexp2 (inf32 true) = (0#32, Flags.none) ∧ fexp2 (inf32 false) = (inf32 false, Flags.none) ∧
    (∀ (x : Word) (m : Nat) (k : Int), fp x = .fin true m k → m ≠ 0 →
      flog2 x = (nan32, Flags.invalid) ∧ frsq x = (nan32, Flags.invalid)) ∧
    (∀ x : Word, fp x = .nan → frsq x = (nan32, Flags.invalid)) ∧
    (∀ (mode : Nat) (g : Word64) (n z : Bool) (a c : Word) (k : Int), fp a = .fin z 0 k →
      ffma mode g a (inf32 n) c = ⟨nan32, Flags.invalid, g⟩) ∧
    (∀ x y : Word, fp x = .nan ∨ fp y = .nan → fmax x y = nan32 ∧ fmin x y = nan32 ∧ fcmplt x y = 0#32) ∧
    fmax (zero32 true) (zero32 false) = zero32 false ∧ fmin (zero32 false) (zero32 true) = zero32 true ∧
    fcmpeq (zero32 true) (zero32 false) = 0xFFFFFFFF#32)

/-- R100, R102, R179: vector loads and stores of the scratchpad; a word that cannot be read stops the cell and leaves the destination, and an
MX store whose scale's word cannot be read stores nothing.
R100: V.RECV takes four entries of VQ[Q] as they come; V.SEND puts four entries in VO[Q], entry n holding lanes 16n to 16n + 15.
The model's own choices it rests on: log 1, 14, 15, 17. -/
def Obligations.VectorMemoryAndNetworkForms : Prop :=
  (∀ (s : State) (e : EngIx) (d : DieIx) (c : CellIx) (i : Issue),
      let w := s.curSlot e d c
      let f := vField w
      let fmt := Fmt.ofCode f.fmt
      let k := s.cell e d c
      let addr := (sreg i.snap.sregs f.sa).toNat + 8 * f.off
      let sc := (sreg i.snap.sregs f.sb).toNat
      let regs := vreg i.snap.vregs f.vd
      let gens := (List.range 64).map k.gen
      let rd := s.vecRead e d c i.snap w addr (8 * fmt.width)
      let scales := rd.1.spReadBytes (.cell e d c) sc 2
      let codes := unpackCodes fmt rd.2.1 64
      let out := List.zipWith (fun (a : Word) g => convert .fp32 fmt f.rnd g a.toNat) regs gens
      let lo := mxQuantise fmt f.rnd ((regs.take 32).map fp) (gens.take 32)
      let hi := mxQuantise fmt f.rnd ((regs.drop 32).map fp) (gens.drop 32)
      (AtField s e d c .v 0x18 i → Performs (.vLd e d c) s
        (match rd.2.2 with
         | none => rd.1.onCell e d c fun k => k.setV f.vd (codes.map fun x => BitVec.ofNat 32 (convert fmt .fp32 0 0#64 x).bits)
         | some bad => rd.1.faultSpUe e d c bad 1 k.slot) e d c .v i) ∧
      (AtField s e d c .v 0x19 i → Performs (.vLdmx e d c) s
        (match rd.2.2.or scales.2.2 with
         | none => scales.1.lanes e d c f.vd (List.zipWith (fun (p : Nat × Nat) g => ldmxLane fmt f.rnd p.1 g p.2)
             ((List.replicate 32 (byteAt scales.2.1 0) ++ List.replicate 32 (byteAt scales.2.1 1)).zip codes) (scales.1.cell e d c).laneGens)
         | some bad => scales.1.faultSpUe e d c bad 1 k.slot) e d c .v i) ∧
      (AtField s e d c .v 0x1A i → Performs (.vSt e d c) s
        (((s.spWriteWords (.cell e d c) addr (packCodes fmt (out.map (·.bits)))).onCell e d c fun k =>
          (k.raise (out.foldl (fun a r => a ||| r.flags) Flags.none)).setGens 0 (out.map (·.gen))).study e f.vs
            (List.zipWith (fun a r => ⟨fp a, some (fmt, r.bits), r.flags.has Flags.overflowClamp⟩) regs out)) e d c .v i) ∧
      (AtField s e d c .v 0x1B i → ∀ s0 bs s1 s2,
        s.spReadBytes (.cell e d c) sc 2 = (s0, bs, none) →
        (s0.spWriteWords (.cell e d c) addr (packCodes fmt (lo.codes ++ hi.codes))).spMerge (.cell e d c) sc [BitVec.ofNat 8 lo.scale] = (s1, none) →
        s1.spMerge (.cell e d c) (sc + 1) [BitVec.ofNat 8 hi.scale] = (s2, none) →
        Performs (.vStmx e d c) s ((s2.onCell e d c fun k => (k.raise (lo.flags ||| hi.flags)).setGens 0 (lo.gens ++ hi.gens)).study e f.vs
          (studyBlock fmt f.rnd lo (regs.take 32) (gens.take 32) ++ studyBlock fmt f.rnd hi (regs.drop 32) (gens.drop 32))) e d c .v i) ∧
      (AtField s e d c .v 0x1B i → ∀ s0 bs bad, s.spReadBytes (.cell e d c) sc 2 = (s0, bs, some bad) →
        Performs (.vStmx e d c) s (s0.faultSpUe e d c bad 1 k.slot) e d c .v i)) ∧
  (∀ (s : State) (e : EngIx) (d : DieIx) (c : CellIx) (i : Issue),
      let f := vField (s.curSlot e d c)
      let entry := fun n => ({ data := leNat (((List.range 16).map fun m => lane i.snap.vregs f.vd (16 * n + m)).flatMap fun x => leBytes 4 x.toNat) } : FEntry)
      (AtField s e d c .v 0x1C i → Performs (.vRecv e d c) s
        ((s.onCell e d c fun k => { k with vrecv := some { vd := f.vd, q := f.q, slot := k.slot } }).feed e d c) e d c .v i) ∧
      (AtField s e d c .v 0x1D i → Performs (.vSend e d c) s
        (s.setBuf e d c 0 (4 + f.q % 2) (s.buf e d c 0 (4 + f.q % 2) ++ [entry 0, entry 1, entry 2, entry 3])) e d c .v i))

/-! ### Cells: the matrix unit and the course of a slot (04_cell R84, R87, R92, R95 to R98, R106) -/

/-- R95, R96: a matrix operation takes its registers when its slot issues and waits behind the operations before it; M.EMIT starts the
output stage.
R95, R97: a row of the M.EMIT in progress is rounded in the form of its descriptor, raises its flags, keeps its generators, and goes to the
scratchpad, or to the vector output once the credit is there; the last row ends the operation.
The model's own choices it rests on: log 14, 17, 18. -/
def Obligations.MatrixOperationsQueueAndEmit : Prop :=
  (∀ (s : State) (e : EngIx) (d : DieIx) (c : CellIx) (i : Issue),
      let f := mField (s.curSlot e d c)
      let o := (sreg i.snap.sregs f.oreg).toNat
      let slot := (s.cell e d c).slot
      let mop := fun (kind : MKind) => ({ kind := kind, desc := f.desc, k := (sreg i.snap.sregs f.kreg).toNat % 2 ^ 24, aOff := o % 65536, bOff := o / 65536, clr := f.clr, slot := slot } : MOp)
      let queued := fun kind => (s.onCell e d c fun k => { k with mops := k.mops ++ [mop kind] }).feed e d c
      (AtField s e d c .m 1 i → Performs (.mMma e d c) s (queued .mma) e d c .m i) ∧
      (AtField s e d c .m 3 i → Performs (.mMerge e d c) s (queued .merge) e d c .m i) ∧
      (AtField s e d c .m 4 i → Performs (.mClr e d c) s (queued .clr) e d c .m i) ∧
      (AtField s e d c .m 2 i → Performs (.mEmit e d c) s
        (s.onCell e d c fun k => { k with emits := k.emits ++ [{ desc := f.desc, oOff := o % 65536, sOff := o / 65536, slot := k.slot }] })
        e d c .m i)) ∧
  (∀ (s : State) (e : EngIx) (d : DieIx) (c : CellIx) (o : EmitOp) (rest : List EmitOp),
      let k := s.cell e d c
      let ds := (s.prog e d c).desc o.desc
      let row := outRow ds ((List.range 32).map fun j => SMap.getD k.accs (32 * o.row + j) Acc.clear) ((List.range 32).map fun j => k.gen (64 + j))
      let after := fun k : Cell => (k.setGens 64 row.gens).raise row.flags
      let next := fun k : Cell => if o.row = 31 then k.popEmit else k.onEmit fun o => { o with row := o.row + 1 }
      let bytes := o.part ++ row.bytes
      k.emits = o :: rest →
      (ds.odst = 0 → ∀ s1, s.storeRow e d c (ds.oBase + 8 * o.oOff + o.row * ds.oStride) (ds.oScale + 32 * o.sOff + o.row) row = (s1, none) →
        exec (.emitRow e d c) s = .next (((s1.onCell e d c fun k => next (after k)).study e ds.vs row.studied).feed e d c)) ∧
      (ds.odst ≠ 0 → s.rowCredit e d c (ds.odst - 1) (bytes.length / 64) = true →
        exec (.emitRow e d c) s = .next ((((s.send e d c 0 (ds.odst - 1)
            ((chunks 64 (bytes.length / 64) bytes).map fun b => ({ data := leNat b } : FEntry))).onCell e d c fun k =>
          next (after (k.onEmit fun o => { o with part := bytes.drop (64 * (bytes.length / 64)) }))).study e ds.vs row.studied).feed e d c)))

/-- R55, R96: a group add of the M.MMA at the head adds row i of A against row j of B to accumulator (i, j) once no M.EMIT reads, and the
last group ends the operation. Operands here come from the scratchpad (ASRC and BSRC 0) or from what has been taken from their queues.
R55: a group reaches every one of the 1,024 accumulators, each with its own row of A and row of B.
The model's own choices it rests on: log 8, 17, 18, 168, 170. -/
def Obligations.MatrixGroupsAdd : Prop :=
  (∀ (s : State) (e : EngIx) (d : DieIx) (c : CellIx) (o : MOp) (rest : List MOp),
      let k := s.cell e d c
      let ds := (s.prog e d c).desc o.desc
      let n := min 32 (o.k - 32 * o.next)
      k.mops = o :: rest → o.kind = .mma → o.started = true → k.emits = [] →
      (ds.asrc ≠ 0 → tileBytes ds.afmt ds.amx ≤ o.aBuf.length) → (ds.bsrc ≠ 0 → tileBytes ds.bfmt ds.bmx ≤ o.bBuf.length) →
      ∀ s1 asc av s2 bsc bv,
        (if ds.asrc = 0 then s.tileAt e d c ds.afmt ds.amx ds.aBase ds.aScale (o.aOff + o.next)
          else (s, (bufTile ds.amx o.aBuf).1, (bufTile ds.amx o.aBuf).2, none)) = (s1, asc, av, none) →
        (if ds.bsrc = 0 then s1.tileAt e d c ds.bfmt ds.bmx ds.bBase ds.bScale (o.bOff + o.next)
          else (s1, (bufTile ds.bmx o.bBuf).1, (bufTile ds.bmx o.bBuf).2, none)) = (s2, bsc, bv, none) →
        let add := addTile ds.cls (ds.afmt.lsbExp ds.amx + ds.bfmt.lsbExp ds.bmx) (tileVecs ds.afmt ds.amx asc av n)
          (tileVecs ds.bfmt ds.bmx bsc bv n) k.accs
        exec (.mmaGroupAdd e d c) s = .next ((s2.onCell e d c fun k =>
          let k1 := { k with accs := add.1, flags := k.flags ||| add.2 }
          if groups o.k ≤ o.next + 1 then k1.popMop else k1.onHead fun o => { o with next := o.next + 1, aBuf := [], bBuf := [] }).feed e d c)) ∧
  (∀ (cls : SumClass) (q : Int) (va vb : List (List Factor × Int)) (accs : SMap Acc) (i j : Nat), va.length = 32 → vb.length = 32 →
      i < 32 → j < 32 → ∀ a b, va[i]? = some a → vb[j]? = some b →
        SMap.getD (addTile cls q va vb accs).1 (32 * i + j) Acc.clear =
          (Acc.addGroup cls (a.2 + b.2 + q) (SMap.getD accs (32 * i + j) Acc.clear) (List.zipWith product a.1 b.1)).1)

/-- R84, R89: a live cell whose ITER count of iterations is complete ends its glaze, and keeps its registers, accumulators, counters, flags,
generators and scratchpad.
The model's own choices it rests on: log 11, 16. -/
def Obligations.CellEndsGlazeAfterIterations : Prop :=
  ∀ (s : State) (e : EngIx) (d : DieIx) (c : CellIx),
    let k := s.cell e d c
    let p := s.prog e d c
    s.cellsRun e = true → 0 < p.n → 0 < p.iter → p.iter ≤ k.iter → k.issue = none → k.faulted = false → k.held = false → k.ended = false →
    ∃ t, exec (.cellGlazeEnd e d c) s = .next t ∧ t.cell e d c = { k with ended := true } ∧ SlotFrame s t e d c

/-- R87: a slot issues whole once nothing keeps it waiting, its parity is good and its addresses are; the field is then performed on the
registers, predicates, flags and scratchpad as they stood at issue. A slot that waits is counted and left; a bad address stops the cell and
performs none of the three fields (R106).
The model's own choices it rests on: log 11, 15, 16, 19, 133. -/
def Obligations.SlotIssuesWaitsOrFaults : Prop :=
  ∀ (s : State) (e : EngIx) (d : DieIx) (c : CellIx), ∀ row ∈ fieldCommands e d c,
    BeforeField s e d c row.2.1 row.2.2 →
    let k := s.cell e d c
    let p := performs k.preds (s.curSlot e d c)
    (waits s e d c = none → badSlot s e d c = false → badAddress s e d c = none →
      ∃ t, (t.cell e d c).issue = some { snap := ⟨k.sregs, k.preds, k.vregs, k.flags, k.sp⟩, todoM := p.1, todoV := p.2.1, todoS := p.2.2 } ∧
        SlotFrame s t e d c ∧ exec row.1 s = exec row.1 t) ∧
    (∀ cls det, waits s e d c = some (cls, det) → exec row.1 s = .next (s.stall e d c cls 1 det)) ∧
    (∀ u a, waits s e d c = none → badSlot s e d c = false → badAddress s e d c = some (u, a) →
      ∃ t, exec row.1 s = .next t ∧ (t.cell e d c).faulted = true ∧ (t.cell e d c).issue = none ∧ SlotFrame s t e d c)

/-! ### The switch fabric (05_switch_fabric) -/

/-- R115 to R118, R126, R128, R550: the head of a buffer moves to every branch of its route at once when each has room, the head of a port
output crosses to the next die or to the hub, and an entry without room stays.
The model's own choices it rests on: log 13. -/
def Obligations.FabricEntryHops : Prop :=
  ∀ (s : State) (e : EngIx) (d : DieIx) (c : CellIx) (net : NetIx) (pt : Fin 12) (x : FEntry) (rest : List FEntry),
    s.buf e d c net pt = x :: rest →
    (∀ c' ds, pt.val ≠ 11 → s.branches e d c net pt = some (c', ds) → ds ≠ [] → (∀ y ∈ ds, s.destRoom e d c' net y = true) →
      exec (.routeHop e d c net pt) s = .next (ds.foldl (fun s y => s.destPut e d c' net x y) (s.setBuf e d c net pt rest))) ∧
    (∀ d' c', pt.val = 11 → crossing d c = some (.inl (d', c')) → s.canCross e d c net = true →
      exec (.routeHop e d c net pt) s = .next ((s.setBuf e d c net 11 rest).setBuf e d' c' net 10 (s.buf e d' c' net 10 ++ [x]))) ∧
    (∀ p k, pt.val = 11 → crossing d c = some (.inr (p, k)) → s.canCross e d c net = true →
      ∃ t, exec (.routeHop e d c net pt) s = .next t ∧ t.buf e d c net 11 = rest ∧
        SMap.getD (t.eng e).hubIn (hubKey d p k net) [] = SMap.getD (s.eng e).hubIn (hubKey d p k net) [] ++ [x] ∧
        t.cells = s.cells ∧ t.regs = s.regs ∧ t.hbm = s.hbm) ∧
    (pt.val ≠ 11 → s.canHop e d c net pt = false → exec (.routeHop e d c net pt) s = .next s) ∧
    (pt.val = 11 → s.canCross e d c net = false → exec (.routeHop e d c net pt) s = .next s)

/-- R121, R122: what a steering unit does under the token at its head: SELECT takes both inputs and passes one, MERGE takes the input named,
SPLIT sends A to X, to Y, to both or to neither; it waits until the data and the room it needs are there.
R121, R122: a firing takes the entries its plan names, puts the one it passes on each output, and consumes the token after as many firings
as its repeat field says. -/
def Obligations.SteeringPlansAndFires : Prop :=
  (∀ (s : State) (e d c u : Nat) (t : FEntry) (ts : List FEntry),
      let a := (s.queue e d c (steerA u)).base
      let b := (s.queue e d c (steerA u + 1)).base
      let room := fun o => (s.buf e d c (steerNet u) (6 + 2 * (u % 2) + o)).length < 2 ∧
        fedBy ((s.prog e d c).route (steerNet u)) (steerNet u) (7 + 2 * (u % 2) + o) ≠ []
      (s.queue e d c (steerA u + 2)).base = t :: ts →
      (s.steerMode e d c u = 1 → a ≠ [] → b ≠ [] → room 0 → s.steerPlan e d c u = some (true, true, [0], t.data % 2)) ∧
      (s.steerMode e d c u = 2 → t.data % 2 = 0 → a ≠ [] → room 0 → s.steerPlan e d c u = some (true, false, [0], 0)) ∧
      (s.steerMode e d c u = 2 → t.data % 2 = 1 → b ≠ [] → room 0 → s.steerPlan e d c u = some (false, true, [0], 1)) ∧
      (s.steerMode e d c u = 3 → t.data % 4 = 0 → a ≠ [] → s.steerPlan e d c u = some (true, false, [], 0)) ∧
      (s.steerMode e d c u = 3 → t.data % 4 = 1 → a ≠ [] → room 0 → s.steerPlan e d c u = some (true, false, [0], 0)) ∧
      (s.steerMode e d c u = 3 → t.data % 4 = 2 → a ≠ [] → room 1 → s.steerPlan e d c u = some (true, false, [1], 0)) ∧
      (s.steerMode e d c u = 3 → t.data % 4 = 3 → a ≠ [] → room 0 → room 1 → s.steerPlan e d c u = some (true, false, [0, 1], 0)) ∧
      (s.steerMode e d c u ≠ 0 → a = [] → b = [] → s.steerPlan e d c u = none)) ∧
  (∀ (s : State) (e : EngIx) (d : DieIx) (c : CellIx) (u : Fin 4) (takeA takeB : Bool) (outs : List Nat) (pick : Nat),
      s.steerPlan e d c u = some (takeA, takeB, outs, pick) →
      ∀ s1 a s2 b,
        (if takeA then s.queueTake e d c (steerA u) else (s, none)) = (s1, a) →
        (if takeB then s1.queueTake e d c (steerA u + 1) else (s1, none)) = (s2, b) →
        ∀ x, (if pick = 0 then a else b) = some x →
        let s3 := s2.steerPut e d c u x outs
        let tk := c.val * 4 + u.val
        ∀ t ts, (s3.queue e d c (steerA u + 2)).base = t :: ts →
        let left := (SMap.find? (s3.fab e d).toks tk).getD (t.data / 4 % 64 + 1)
        (left ≤ 1 → exec (.steerFire e d c u) s =
          .next ((s3.queueTake e d c (steerA u + 2)).1.onFab e d fun f => { f with toks := SMap.erase f.toks tk })) ∧
        (1 < left → exec (.steerFire e d c u) s = .next (s3.onFab e d fun f => { f with toks := SMap.put f.toks tk (left - 1) })))

/-- R134, R135, R136: a check of the stall watchdog that is enabled and has not bitten bites on the first blocked transfer, once; clearing its bit
in FAB_FAULT lets it bite again.
The model's own choices it rests on: log 90. -/
def Obligations.StallWatchdogBitesOnce : Prop :=
  ∀ (s : State) (e : EngIx) (d : DieIx),
    (∀ c net pt, s.flag (Reg.FAB_WDOG e (s.posOf e d)) Fld.FAB_WDOG.ENABLE = true → s.firstBlocked e d = some (c, net, pt) →
      ((s.fab e d).bitQuiet = false → ∃ t, exec (.stallQuietBite e d) s = .next t ∧ (t.fab e d).bitQuiet = true ∧
        FaultFrame (s.onFab e d fun f => { f with bitQuiet := true }) t ∧
        t = (s.onFab e d fun f => { f with bitQuiet := true }).fabFault e d 1 c net pt) ∧
      ((s.fab e d).bitAge = false → ∃ t, exec (.stallAgeBite e d) s = .next t ∧ (t.fab e d).bitAge = true ∧
        FaultFrame (s.onFab e d fun f => { f with bitAge := true }) t ∧
        t = (s.onFab e d fun f => { f with bitAge := true }).fabFault e d 2 c net pt)) ∧
    ((s.fab e d).bitQuiet = true → exec (.stallQuietBite e d) s = .next s) ∧
    ((s.fab e d).bitAge = true → exec (.stallAgeBite e d) s = .next s) ∧
    (∀ (r : Req) (m : PosIx) (v : Word), Passes s r (Reg.FAB_FAULT e m) v.toNat →
      let s1 := (entered s r (Reg.FAB_FAULT e m) v.toNat).plainWrite (Reg.FAB_FAULT e m) v.toNat
      ∃ t, exec (.fabFaultClear r e m v) s = .next t ∧ t.rd (Reg.FAB_FAULT e m) = s1.rd (Reg.FAB_FAULT e m) ∧
        ∀ d', s1.dieAt e m = some d' →
          (t.fab e d').bitQuiet = ((s1.fab e d').bitQuiet && s1.flag (Reg.FAB_FAULT e m) Fld.FAB_FAULT.STALL_QUIET) ∧
          (t.fab e d').bitAge = ((s1.fab e d').bitAge && s1.flag (Reg.FAB_FAULT e m) Fld.FAB_FAULT.STALL_AGE))

/-! ### Canvases, glazes and standby engines (06_canvases_glazes) -/

/-- R161, R164: LOAD starts a load from EMPTY, READY or DONE: STATE shows LOADING with no code, the previous canvas and the entries of its
fabric are gone, and the container is read from ENG_CANVAS_ADDR. In any other state it is refused.
R157, R158, R164, R165: START runs the sequence from READY or DONE, at once without a period plan; STOP moves RUNNING to STOPPING, or to DONE at a switch that
failed its queue check; UNLOAD discards the canvas of READY, DONE or STANDBY, disarming what the standby covers, and has no effect in EMPTY. In any other state each is
refused, and so is a write of more than one command bit: CMD_REJ is all that changes. STOPPING ends at the next glaze switch. -/
def Obligations.CanvasStartsStopsAndLoads : Prop :=
  (∀ (s : State) (r : Req) (e : EngIx) (standby : Bool),
      let v := if standby then 0x11 else 0x01
      let cmd := if standby then Instr.canvasLoadStandby r e else Instr.canvasLoad r e
      let a := entered s r (Reg.ENG_CANVAS_CTRL e) v
      Passes s r (Reg.ENG_CANVAS_CTRL e) v →
      ((a.cvState e = Cv.EMPTY ∨ a.cvState e = Cv.READY ∨ a.cvState e = Cv.DONE) →
        ∃ t, exec cmd s = .next t ∧ t.cvState e = Cv.LOADING ∧ t.fld (Reg.ENG_CANVAS_STATUS e) Fld.ENG_CANVAS_STATUS.CODE = 0 ∧
          (t.eng e).canvas = { standby := standby, loadAddr := a.rdN (Reg.ENG_CANVAS_ADDR e) * 65536, loadStart := s.now } ∧
          (t.eng e).hubIn = [] ∧ (∀ d, d < 4 → (t.fab e d).bufs = [] ∧ (t.fab e d).queues = [] ∧ (t.fab e d).toks = []) ∧
          t.cells = s.cells ∧ t.hbm = s.hbm) ∧
      (¬ (a.cvState e = Cv.EMPTY ∨ a.cvState e = Cv.READY ∨ a.cvState e = Cv.DONE) →
        exec cmd s = .next (a.setFlag (Reg.ENG_CANVAS_STATUS e) Fld.ENG_CANVAS_STATUS.CMD_REJ true))) ∧
  (∀ (s : State) (r : Req) (e : EngIx),
      let ctrl := Reg.ENG_CANVAS_CTRL e
      let at' := fun (v : Nat) (l : List Nat) => (entered s r ctrl v).cvState e ∈ l
      let refused := fun (v : Nat) => Host.Outcome.next ((entered s r ctrl v).setFlag (Reg.ENG_CANVAS_STATUS e) Fld.ENG_CANVAS_STATUS.CMD_REJ true)
      (Passes s r ctrl 2 → at' 2 [Cv.READY, Cv.DONE] →
        ∃ t, exec (.canvasStart r e) s = .next t ∧ t.cvState e = Cv.RUNNING ∧ t.hbm = s.hbm ∧
          ((s.plan e).isNone → (t.eng e).canvas.running = true ∧
            t.rdN (Reg.ENG_CANVAS_POS e) = ((((s.eng e).canvas.step 0).2 - 1) * 2 ^ 16 + ((s.eng e).canvas.step 0).1 * 2 ^ 8) % 2 ^ 32 ∧
            ∀ d : DieIx, ∀ c : CellIx, t.cell e d c = { s.cell e d c with slot := 0, iter := 0, ended := false, issue := none }) ∧
          ((s.plan e).isSome → (t.eng e).canvas.running = false ∧ (t.eng e).canvas.waitPeriod = true ∧ t.cells = s.cells)) ∧
      (Passes s r ctrl 2 → ¬ at' 2 [Cv.READY, Cv.DONE] → exec (.canvasStart r e) s = refused 2) ∧
      (Passes s r ctrl 4 → at' 4 [Cv.RUNNING] →
        ∃ t, exec (.canvasStop r e) s = .next t ∧ t.cells = s.cells ∧ t.hbm = s.hbm ∧
          t.cvState e = if (s.eng e).canvas.switchStuck then Cv.DONE else Cv.STOPPING) ∧
      (Passes s r ctrl 4 → ¬ at' 4 [Cv.RUNNING] → exec (.canvasStop r e) s = refused 4) ∧
      (Passes s r ctrl 8 → at' 8 [Cv.READY, Cv.DONE, Cv.STANDBY] →
        ∃ t, exec (.canvasUnload r e) s = .next t ∧ t.cvState e = Cv.EMPTY ∧ (t.eng e).canvas = { } ∧ t.cells = s.cells ∧ t.hbm = s.hbm ∧
          (at' 8 [Cv.STANDBY] → ∀ x : EngIx, SMap.find? s.armCopies x = some e.val → SMap.find? t.armCopies x = none ∧
            t.flag (Reg.ENG_STBY_ARM x) Fld.ENG_STBY_ARM.ARMED = false ∧ t.fld (Reg.ENG_STBY_ARM x) Fld.ENG_STBY_ARM.ARM_CODE = 7)) ∧
      (Passes s r ctrl 8 → at' 8 [Cv.EMPTY] → exec (.canvasUnload r e) s = .next (entered s r ctrl 8)) ∧
      (Passes s r ctrl 8 → ¬ at' 8 [Cv.EMPTY, Cv.READY, Cv.DONE, Cv.STANDBY] → exec (.canvasUnload r e) s = refused 8) ∧
      (∀ (off : Fin 0x10000000) (v : Word64), off.val = ctrl → (∀ q f, r = .host q f → f.val = 0) → Passes s r ctrl (v.toNat % 2 ^ 32) →
        v.toNat % 16 ∉ [0, 1, 2, 4, 8] → exec (.registerWrite r false off 4 v) s = refused (v.toNat % 2 ^ 32)) ∧
      (s.cvState e = Cv.STOPPING → s.cellsRun e = true → (s.eng e).canvas.switchStuck = false → s.delivered e = true → s.allEnded e = true →
        ∃ t, exec (.glazeSwitch e) s = .next t ∧ t.cvState e = Cv.DONE))

/-- R162: the header and directory pass stage 1, or the first check that fails ends the load with its code; a block that fails its check ends
the load with BLOCK_CHECK. A load that fails leaves STATE EMPTY and no canvas.
The model's own choices it rests on: log 21, 94, 138, 166. -/
def Obligations.CanvasHeaderAndBlockChecks : Prop :=
  ∀ (s s1 : State) (e : EngIx) (b : List Byte),
    let cv := (s.eng e).canvas
    let status := Reg.ENG_CANVAS_STATUS e
    let code := firstFail [(Code.BAD_ADDR, s.viewHolds cv.loadAddr (hTotal b)), (Code.BAD_HEADER, headerOk 1 b), (Code.BAD_LAYOUT, layoutOk b)]
    s.cvState e = Cv.LOADING → s.viewHolds cv.loadAddr headBytes = true →
    (cv.headerOk = false → s.loadHead e = (s1, St.OK, b) → code = 0 →
      ∃ t, exec (.canvasHeaderCheck e) s = .next t ∧ t.cvState e = s1.cvState e ∧
        (t.eng e).canvas = { (s1.eng e).canvas with image := hImage b, headerOk := true }) ∧
    (cv.headerOk = false → s.loadHead e = (s1, St.OK, b) → code ≠ 0 →
      ∃ t, exec (.canvasHeaderCheck e) s = .next t ∧ t.cvState e = Cv.EMPTY ∧
        t.fld status Fld.ENG_CANVAS_STATUS.CODE = code ∧ (t.eng e).canvas = { }) ∧
    (∀ st, st ≠ St.OK → (if cv.headerOk then s.loadAll e else s.loadHead e) = (s1, st, b) → s1.cvState e = Cv.LOADING →
      ∃ t, exec (.canvasBlockCheckFail e) s = .next t ∧ t.cvState e = Cv.EMPTY ∧
        t.fld status Fld.ENG_CANVAS_STATUS.CODE = Code.BLOCK_CHECK ∧ (t.eng e).canvas = { })

/-- R161; 07 R186: the sections arrive in the order of the directory, a BANK_POWER section that fills a bank waits for its fill, and the
CELL_DATA of a die waits for the fill of that die.
R161, R162: when every section has arrived and been written, the remaining checks decide: READY, STANDBY for a standby load, or EMPTY with the
code of the first check that fails.
The model's own choices it rests on: log 4, 22, 91, 94, 100, 138, 171, 172. -/
def Obligations.CanvasSectionsApplyAndComplete : Prop :=
  (∀ (s : State) (e : EngIx) (d : DieIx),
      let cv := (s.eng e).canvas
      s.cvState e = Cv.LOADING →
      (∀ s1 h x s2 body, cv.headerOk = true → s.loadHead e = (s1, St.OK, h) → (directory h)[cv.applied]? = some x →
        s1.readRange (cv.loadAddr + x.off) x.len (some e.val) = (s2, St.OK, body) →
        ∃ t, exec (.canvasSectionApply e) s = .next t ∧ (t.eng e).canvas.applied = (s2.eng e).canvas.applied + 1 ∧
          (1 ≤ x.ty → x.ty ≤ 12 → (t.eng e).canvas.secs = (s2.eng e).canvas.secs ++ [⟨x.ty, x.glaze, x.die, body⟩]) ∧
          ((x.ty = 0 ∨ 12 < x.ty) → (t.eng e).canvas.secs = (s2.eng e).canvas.secs) ∧
          (x.ty = 7 → (t.eng e).canvas.dataWait = (s2.eng e).canvas.dataWait ++ [x.die]) ∧
          (x.ty = 0xB → fillsAny body = true → (t.eng e).canvas.zeroWait = (s2.eng e).canvas.zeroWait ++ [x.die]) ∧ t.hbm = s2.hbm) ∧
      (cv.zeroWait.contains d.val = true →
        ∃ t, exec (.cellZeroFillDone e d) s = .next t ∧ (t.eng e).canvas = { cv with zeroWait := cv.zeroWait.filter (· != d.val) } ∧
          t = (s.onEng e fun g => { g with canvas := { g.canvas with zeroWait := g.canvas.zeroWait.filter (· != d.val) } }).cellsZero e d
            ((cv.body 0xB 0xFF d).getD []) ∧ t.regs = s.regs ∧ t.hbm = s.hbm) ∧
      (cv.dataWait.contains d.val = true → cv.zeroWait.contains d.val = false →
        ∃ t, exec (.cellDataWrite e d) s = .next t ∧ (t.eng e).canvas = { cv with dataWait := cv.dataWait.filter (· != d.val) } ∧
          t = (s.onEng e fun g => { g with canvas := { g.canvas with dataWait := g.canvas.dataWait.filter (· != d.val) } }).dataWrite e d
            ((cv.body 7 0xFF d).getD []) ∧ t.regs = s.regs ∧ t.hbm = s.hbm)) ∧
  (∀ (s s1 : State) (e : EngIx) (b : List Byte),
      let cv := (s.eng e).canvas
      let code := canvasCode b cv.standby s.ground.policy (s.gridPeriod e) (s.eng e).cellOff (s.keyFor e b).1 (s.keyFor e b).2
      s.cvState e = Cv.LOADING → cv.headerOk = true → cv.zeroWait = [] → cv.dataWait = [] → s.loadAll e = (s1, St.OK, b) →
      hSections b ≤ cv.applied →
      (code = Code.OK → ∃ t, exec (.canvasLoadComplete e) s = .next t ∧
        t.cvState e = (if (s1.eng e).canvas.standby then Cv.STANDBY else Cv.READY) ∧ (t.eng e).canvas.digest = digestOf b ∧
        t.fld (Reg.ENG_CANVAS_STATUS e) Fld.ENG_CANVAS_STATUS.CODE = Code.OK ∧
        ∀ d : DieIx, ∀ c : CellIx, (t.cell e d c).accs = [] ∧ (t.cell e d c).preds = 1 ∧ (t.cell e d c).flags = Flags.none ∧ (t.cell e d c).acnt = []) ∧
      (code ≠ Code.OK → ∃ t, exec (.canvasLoadComplete e) s = .next t ∧ t.cvState e = Cv.EMPTY ∧ (t.eng e).canvas = { } ∧
        t.fld (Reg.ENG_CANVAS_STATUS e) Fld.ENG_CANVAS_STATUS.CODE = code))

/-- R156 to R158, R89: once every cell has ended and every entry has been delivered, the hub switches to the next run: the same glaze while
repeats are left, then the next step; every cell starts at slot 0 and keeps its registers, accumulators, counters, flags and scratchpad. After the
last run, or when STOPPING, the sequence is DONE.
The model's own choices it rests on: log 16, 90, 106, 107, 108. -/
def Obligations.GlazeSwitchesToTheNextRun : Prop :=
  ∀ (s : State) (e : EngIx),
    let cv := (s.eng e).canvas
    let step := s.fld (Reg.ENG_CANVAS_POS e) Fld.ENG_CANVAS_POS.STEP
    let left := s.fld (Reg.ENG_CANVAS_POS e) Fld.ENG_CANVAS_POS.REPEAT_LEFT
    let g' := if left ≠ 0 then s.glaze e else (cv.step (step + 1)).1
    let step' := if left ≠ 0 then step else step + 1
    let left' := if left ≠ 0 then left - 1 else (cv.step (step + 1)).2 - 1
    s.cellsRun e = true → cv.switchStuck = false → s.delivered e = true → s.allEnded e = true →
    (s.cvState e = Cv.RUNNING → (left ≠ 0 ∨ step + 1 < cv.steps) → (s.queueCheck e (s.glaze e) g').2 = true →
      ∃ t, exec (.glazeSwitch e) s = .next t ∧ t.cvState e = Cv.RUNNING ∧ t.hbm = s.hbm ∧
        t.rdN (Reg.ENG_CANVAS_POS e) = (left' * 2 ^ 16 + g' * 2 ^ 8 + step') % 2 ^ 32 ∧
        ∀ d : DieIx, ∀ c : CellIx, t.cell e d c = { s.cell e d c with slot := 0, iter := 0, ended := false, issue := none }) ∧
    (s.cvState e = Cv.RUNNING → (left ≠ 0 ∨ step + 1 < cv.steps) → (s.queueCheck e (s.glaze e) g').2 = false →
      ∃ t, exec (.glazeSwitch e) s = .next t ∧ (t.eng e).canvas.switchStuck = true ∧ t.cells = s.cells) ∧
    ((s.cvState e = Cv.STOPPING ∨ (s.cvState e = Cv.RUNNING ∧ left = 0 ∧ cv.steps ≤ step + 1 ∧ s.plan e = none)) →
      ∃ t, exec (.glazeSwitch e) s = .next t ∧ t.cvState e = Cv.DONE ∧ (t.eng e).canvas.running = false ∧ t.cells = s.cells ∧ t.hbm = s.hbm)

/-- R167 to R169, R173: ARM waits for the standby's answer; an answer of code 0 shows ARMED with the slot and is copied to the collector, and any
other shows its code and disarms; DISARM and a cleared cover bit disarm.
R170 to R172: a VARNISH phase ends with its pass written and committed; a standby acts on the containment of an armed engine with a commit:
it becomes ACTIVATING, adopts the engine, disarms the others and takes fresh cells; the end of the restore hands the FEIDs over and starts the
sequence. Without a commit the notice is dropped and NO_VARNISH shows.
The model's own choices it rests on: log 40, 88. -/
def Obligations.StandbyArmsAndTakesOver : Prop :=
  (∀ (s : State) (r : Req) (e : EngIx) (v : Word),
      let arm := Reg.ENG_STBY_ARM e
      let b := s.fld arm Fld.ENG_STBY_ARM.STANDBY_ENG
      (Passes s r arm v.toNat → bit v.toNat 0 = true →
        ∃ t, exec (.stbyArm r e v) s = .next t ∧ (t.eng e).armAsk = true ∧ t.cells = s.cells ∧ t.hbm = s.hbm) ∧
      (Passes s r arm v.toNat → bit v.toNat 0 = false → bit v.toNat 1 = true →
        ∃ t, exec (.stbyDisarm r e v) s = .next t ∧ t.flag arm Fld.ENG_STBY_ARM.ARMED = false ∧ t.fld arm Fld.ENG_STBY_ARM.ARM_CODE = 7 ∧
          (t.eng e).armAsk = false ∧ SMap.find? t.armCopies e = none) ∧
      ((s.eng e).armAsk = true → s.armCode e b = 0 →
        ∃ t, exec (.stbyArmReply e) s = .next t ∧ t.flag arm Fld.ENG_STBY_ARM.ARMED = true ∧ t.fld arm Fld.ENG_STBY_ARM.ARM_CODE = 0 ∧
          t.fld arm Fld.ENG_STBY_ARM.SLOT = s.slotOf b e % 8 ∧ SMap.find? t.armCopies e = some b ∧ (t.eng e).armAsk = false) ∧
      ((s.eng e).armAsk = true → s.armCode e b ≠ 0 →
        ∃ t, exec (.stbyArmReply e) s = .next t ∧ t.flag arm Fld.ENG_STBY_ARM.ARMED = false ∧
          t.fld arm Fld.ENG_STBY_ARM.ARM_CODE = s.armCode e b ∧ SMap.find? t.armCopies e = none) ∧
      (∀ n : Fin 2, Passes s r (Reg.ENG_STBY_COVER e n) v.toNat →
        ∃ t, exec (.stbyCoverWrite r e n v) s = .next t ∧ t.cells = s.cells ∧ t.hbm = s.hbm ∧
          ∀ x : EngIx, x.val / 32 = n.val → SMap.find? (entered s r (Reg.ENG_STBY_COVER e n) v.toNat).armCopies x = some e.val →
            ((entered s r (Reg.ENG_STBY_COVER e n) v.toNat).plainWrite (Reg.ENG_STBY_COVER e n) v.toNat).covers e x = false →
            t.flag (Reg.ENG_STBY_ARM x) Fld.ENG_STBY_ARM.ARMED = false)) ∧
  (∀ (s : State) (e : EngIx),
      (s.inVarnish e = true → ∃ t, exec (.varnishCommit e) s = .next t ∧ (t.eng e).sched.workDone = true) ∧
      (∀ x c, s.cvState e = Cv.STANDBY → (s.eng e).contained = false → s.noticeOf e = some x → SMap.find? (s.eng e).commits x = some c →
        ∃ t, exec (.standbyActivate e) s = .next t ∧ t.cvState e = Cv.ACTIVATING ∧ (t.eng e).adopted = some x ∧
          (t.eng e).slotBase = s.slotAt e (s.slotFor x) ∧ (t.eng e).staticLen = staticLenOf (s.stbyBody e) ∧ (t.eng e).notices = [] ∧
          t.hbm = s.hbm) ∧
      (∀ x, s.cvState e = Cv.STANDBY → (s.eng e).contained = false → s.noticeOf e = some x → SMap.find? (s.eng e).commits x = none →
        ∃ t, exec (.standbyActivate e) s = .next t ∧ t.cvState e = Cv.STANDBY ∧ (t.eng e).notices = (s.eng e).notices.erase x ∧
          t.fld (Reg.ENG_STBY_COVER e 1) Fld.ENG_STBY_COVER.NO_VARNISH = 1 ∧ t.cells = s.cells ∧ t.hbm = s.hbm) ∧
      (∀ x, (s.eng e).adopted = some x → s.cvState e = Cv.ACTIVATING →
        ∃ t, exec (.standbyRestoreDone e) s = .next t ∧ t.cvState e = Cv.RUNNING ∧ t.adoptQ = s.adoptQ ++ [(x, e.val)] ∧
          SMap.find? t.armCopies x = none ∧ (t.eng e).commits = []))

/-! ### Scratchpads (07_scratchpads) -/

/-- R180, R181, R183, R187: a request starts the change of a bank that is in no transition, and is held behind one that is; a finished transition
leaves the bank in its new state and starts the one held, and a bank switched off has lost its words; R187: banks asked to be zero-filled are
filled or wait, at most four at once, and a finished fill leaves every word of the bank zero with good check bits.
The model's own choices it rests on: log 26. -/
def Obligations.EngineBanksChangeAndFill : Prop :=
  ∀ (s : State) (r : Req) (e : EngIx) (v : Word) (b : Fin 16),
    let g := s.eng e
    let parts : List Part := [.regs, .engines]
    let inBank := fun w => w * 8 / 0x1000000 = b.val
    (Passes s r (Reg.ENG_SPM_POWER e) v.toNat →
      let a := entered s r (Reg.ENG_SPM_POWER e) v.toNat
      let c := bits v.toNat (2 * b.val + 1) (2 * b.val)
      let cur := SMap.getD (a.eng e).spmBanks b 0
      ∃ t, exec (.spmPowerRequest r e v) s = .next t ∧ Only parts a t ∧ EngsBut e a t ∧ (t.eng e).spmBanks = (a.eng e).spmBanks ∧
        (bit (a.eng e).spmOff b = false → c ≠ 3 →
          bits (t.rdN (Reg.ENG_SPM_POWER e)) (2 * b.val + 1) (2 * b.val) = c ∧
          (∀ m, SMap.find? (a.eng e).spmMoves b = some m → SMap.find? (t.eng e).spmMoves b = some { m with held := some c }) ∧
          (SMap.find? (a.eng e).spmMoves b = none → c ≠ cur → ¬ (cur = 2 ∧ c = 1) →
            SMap.find? (t.eng e).spmMoves b = some { target := c }) ∧
          (SMap.find? (a.eng e).spmMoves b = none → (c = cur ∨ (cur = 2 ∧ c = 1)) → SMap.find? (t.eng e).spmMoves b = none))) ∧
    (∀ m, SMap.find? g.spmMoves b = some m →
      ∃ t, exec (.spmPowerDone e b) s = .next t ∧ Only parts s t ∧ EngsBut e s t ∧ SMap.getD (t.eng e).spmBanks b 0 = m.target ∧
        (m.held = none → SMap.find? (t.eng e).spmMoves b = none) ∧
        (∀ c, m.held = some c → c ≠ m.target → ¬ (m.target = 2 ∧ c = 1) → SMap.find? (t.eng e).spmMoves b = some { target := c }) ∧
        (m.target = 2 → ∀ w, inBank w → (t.eng e).spm.stAt 0x1000000 w = .undef) ∧
        (m.target ≠ 2 → m.held = none → (t.eng e).spm = g.spm)) ∧
    (Passes s r (Reg.ENG_SPM_ZERO e) v.toNat → bit v.toNat b = true →
      let a := entered s r (Reg.ENG_SPM_ZERO e) v.toNat
      a.bankState (.hub e) b = 0 → SMap.find? (a.eng e).spmMoves b = none →
      ∃ t, exec (.spmZeroStart r e v) s = .next t ∧ Only parts a t ∧ EngsBut e a t ∧ (t.eng e).spm = (a.eng e).spm ∧
        (b.val ∈ (t.eng e).zeroing ∨ b.val ∈ (t.eng e).zeroWait) ∧ ((a.eng e).zeroing.length ≤ 4 → (t.eng e).zeroing.length ≤ 4)) ∧
    (b.val ∈ g.zeroing →
      ∃ t, exec (.spmZeroDone e b) s = .next t ∧ Only parts s t ∧ EngsBut e s t ∧ (b.val ∉ g.zeroWait → b.val ∉ (t.eng e).zeroing) ∧
        ∀ w, inBank w → (t.eng e).spm.stAt 0x1000000 w = .good ∧ (t.eng e).spm.raw w = 0#64) ∧
    (Passes s r (Reg.ENG_SPM_CTRL e) v.toNat → bit v.toNat 0 = true →
      ∃ t, exec (.ceClr r e v) s = .next t ∧ Only [.regs] (entered s r (Reg.ENG_SPM_CTRL e) v.toNat) t ∧
        RegsBut [Reg.ENG_SPM_CTRL e, Reg.ENG_SPM_ERR e] (entered s r (Reg.ENG_SPM_CTRL e) v.toNat) t ∧ t.rdN (Reg.ENG_SPM_ERR e) = 0) ∧
    (Passes s r (Reg.ENG_ACNT_SETI e) v.toNat →
      let a := entered s r (Reg.ENG_ACNT_SETI e) v.toNat
      ∃ t, exec (.acntSeti r e v) s = .next t ∧ Only [.regs] a t ∧ RegsBut [Reg.ENG_ACNT e (v.toNat % 256)] a t ∧
        t.rd (Reg.ENG_ACNT e (v.toNat % 256)) = a.rd (Reg.ENG_ACNT_SETV e))

/-- R191, R192, 17 R459, R460: a remote write of whole words within one 4 KiB piece, to open banks, writes them and raises the counter it names by
its words; one to a cell held in reset waits at the die; any other is refused whole and reported. A remote read answers the bytes, or SPM_UE when a
word it touches is uncorrectable. R189: a corrected word is written back with good check bits, and the bank remembers it.
The model's own choices it rests on: log 1, 20. -/
def Obligations.RemoteAccessesOfScratchpads : Prop :=
  ∀ (s : State) (e : EngIx) (sp : SpSel) (a : Fin 0x10000000),
    let x := spSel e sp
    let dieHeld := match x with | .cell e' d _ => (s.fab e' d).held | .hub _ => false
    let cellHeld := match x with | .cell e' d c => (s.cell e' d c).held | .hub _ => false
    s.posDown e = false →
    (∀ (ctr : Fin 256) (bs : List Byte),
      let n := bs.length
      let shaped := 8 ≤ n ∧ n ≤ 4096 ∧ a.val % 8 = 0 ∧ n % 8 = 0 ∧ a.val / 4096 = (a.val + n - 1) / 4096
      let cmd := Instr.remoteWrite e sp a ctr bs
      (shaped → dieHeld = false → ctr.val < x.counters → s.spRangeOpen x a n = true → cellHeld = false →
        ∃ t, exec cmd s = .next t ∧ Only [.regs, .engines, .cells, .out] s t ∧ t.out = s.out ++ [.hubDone e St.OK []] ∧
          (∀ i, i < n → Memory.read (t.sp x).bytes (a.val + i) = bs.getD i 0#8) ∧
          (∀ y, (y < a.val ∨ a.val + n ≤ y) → Memory.read (t.sp x).bytes y = Memory.read (s.sp x).bytes y) ∧
          (∀ w, a.val / 8 ≤ w → w < (a.val + n) / 8 → (t.sp x).stAt x.bankBytes w = .good) ∧
          (match x with
           | .cell e' d c => (t.cell e' d c).acntOf ctr = BitVec.ofNat 32 (((s.cell e' d c).acntOf ctr).toNat + n / 8) ∧ t.regs = s.regs
           | .hub e' => t.rdN (Reg.ENG_ACNT e' ctr) = (s.rdN (Reg.ENG_ACNT e' ctr) + n / 8) % 2 ^ 32 ∧ t.cells = s.cells)) ∧
      (shaped → dieHeld = false → ctr.val < x.counters → s.spRangeOpen x a n = true → cellHeld = true → ∀ d c, sp = .cell d c →
        exec cmd s = .next ((s.onCell e d c fun k => { k with waits := k.waits ++ [⟨a.val, bs, some ctr.val⟩] }).emit (.hubDone e St.OK []))) ∧
      (shaped → dieHeld = true → exec cmd s = .next (s.emit (.hubDone e St.TARGET_RESET []))) ∧
      (shaped → dieHeld = false → (x.counters ≤ ctr.val ∨ s.spRangeOpen x a n = false) →
        ∃ t, exec cmd s = .next t ∧ Only faultParts s t ∧
          t = (s.fault Src.REMOTE_REFUSED e 0).emit (.hubDone e St.REFUSED [])) ∧
      (¬ shaped → ∃ t, exec cmd s = .next t ∧ Only faultParts s t ∧
        t = (s.fault Src.REMOTE_REFUSED e 0).emit (.hubDone e St.ALIGN []))) ∧
    (∀ (n : Fin 8192) (by' : Option EngIx),
      let shaped := 1 ≤ n.val ∧ n.val ≤ 4096 ∧ a.val / 4096 = (a.val + n.val - 1) / 4096
      let rd := s.spReadBytes x a n
      shaped → dieHeld = false → s.spRangeOpen x a n = true →
      (rd.2.2 = none → exec (.remoteRead e sp a n by') s = .next (rd.1.emit (.hubDone e St.OK rd.2.1))) ∧
      (rd.2.2 ≠ none → exec (.remoteRead e sp a n by') s =
        .next ((rd.1.faultFor Src.HUB_SPM_UE e 0 false (by'.map (·.val))).emit (.hubDone e St.SPM_UE [])))) ∧
    (∀ (b : Fin 16) (w : Nat), s.flag (Reg.ENG_SPM_CTRL e) Fld.ENG_SPM_CTRL.WB_EN = true →
      (s.sp x).wb.find? (fun w => w * 8 / x.bankBytes == b.val) = some w → (s.sp x).stAt x.bankBytes w = .ce →
      ∃ t, exec (.correctedWriteback e sp b) s = .next t ∧ Only [.engines, .cells] s t ∧ (t.sp x).stAt x.bankBytes w = .good ∧
        (t.sp x).bytes = (s.sp x).bytes ∧ w ∉ (t.sp x).wb ∧ w ∈ SMap.getD (t.sp x).wroteBack b [])

/-- R179, R185, R194: a word once written reads back as written, with no error, whatever stood there: from the state after a write of whole words
a read of the same bytes answers them and changes nothing.
The model's own choices it rests on: log 1, 19. -/
def Obligations.ScratchpadWordsReadBack : Prop :=
  ∀ (s : State) (x : SpRef) (a : Nat) (bs : List Byte), a % 8 = 0 → bs.length % 8 = 0 → bs ≠ [] →
    let t := s.spWriteWords x a bs
    t.spReadBytes x a bs.length = (t, bs, none)

/-! ### The hub's memory, transfers and streams (08_engine_hub) -/

/-- R209, R207, R210: a spread address below 96 × W × 4 KiB is placed by the hash on stack t, at a local block above the near part and below the check region; the panel
address of a block is found back from its place, so that no two spread blocks share one. -/
def Obligations.SpreadPlacesAreOneToOne : Prop :=
  (∀ (s : State) (a : Nat), a < 96 * ((2044 - s.limit) * 8192) * 4096 →
    let b := a / 4096
    let x := b / 3 / 32
    let f := Nat.xor (Nat.xor (Nat.xor (Nat.xor (x % 32) (x / 2 ^ 5 % 32)) (x / 2 ^ 10 % 32)) (x / 2 ^ 15 % 32)) (x / 2 ^ 20 % 32)
    s.target a = .spread (32 * (b % 3) + Nat.xor (b / 3 % 32) f) (s.limit * 8192 + x) (a % 4096)) ∧
  ∀ limit b : Nat, b < 96 * spreadW limit →
    let x := spreadPlace limit b
    x.1 < 96 ∧ limit * 8192 ≤ x.2 ∧ x.2 < stackBlocks ∧ blockAddr limit x.1 x.2 = b * 4096

/-- R202, R213 to R217: a whole block that is written reads back, with the check word of its place, and no other byte of the stacks changes; a block
that reads wrong or that the stack cannot correct completes with CHECK_FAIL or HBM_UE, with its fault; an access counts what the stack reports.
The model's own choices it rests on: log 3, 19, 92, 95. -/
def Obligations.BlocksCarryTheirCheck : Prop :=
  ∀ (s : State) (e : EngIx) (st : Fin 2) (j : Fin 16744448) (by' : Option EngIx),
    let t := 2 * e.val + st.val
    let own := fun y => blockKey t j ≤ y ∧ y < blockKey t j + 4096 ∨ checkKey t j ≤ y ∧ y < checkKey t j + 8
    let done := fun (s : State) code bs => s.emit (.hubDone e code bs)
    let rd := fun (x : Host.Outcome State Fault Refusal) => exec (.hubBlockRead e st j by') s = x
    let bad := (s.eng e).hbmUe.contains (ueKey t j)
    (∀ data : Vector Byte 4096, s.stackReach t j = St.OK →
      ∃ u, exec (.hubBlockWrite e st j data) s = .next u ∧ Only [.hbm, .engines, .pair, .out] s u ∧ EngsBut e s u ∧
        u.blockRaw t j = data.toList ∧ u.blockGood t j = true ∧ u.asmOf t j = none ∧
        leNat (Memory.readN u.hbm (t * 2 ^ 36 + 16744448 * 4096 + 8 * j) 8) = Nat.xor (crc64 data.toList) (t * 2 ^ 32 + j) ∧ u.out = s.out ++ [.hubDone e St.OK []] ∧
        ∀ y, ¬ own y → Memory.read u.hbm y = Memory.read s.hbm y) ∧
    (∀ data : Vector Byte 4096, s.stackReach t j ≠ St.OK →
      exec (.hubBlockWrite e st j data) s = .next (done s (s.stackReach t j) [])) ∧
    (s.stackReach t j ≠ St.OK → rd (.next (done s (s.stackReach t j) []))) ∧
    (s.stackReach t j = St.OK → bad = false → s.blockGood t j = true → s.asmOf t j = none → rd (.next (done s St.OK (s.blockRaw t j)))) ∧
    (∀ b, s.stackReach t j = St.OK → bad = false → s.blockGood t j = true → s.asmOf t j = some b → heldCovers b.bytes 0 4096 = false →
      rd (.next (done s St.OK (layHeld b.bytes (s.blockRaw t j) 0)))) ∧
    (s.stackReach t j = St.OK → bad = false → s.blockGood t j = false → s.asmOf t j = none →
      rd (.next (done ((s.chkCapture t j).faultFor Src.HUB_CHECK_FAIL e 0 false (by'.map (·.val))) St.CHECK_FAIL []))) ∧
    (s.stackReach t j = St.OK → bad = true → s.asmOf t j = none →
      ∃ u, rd (.next (done u St.HBM_UE [])) ∧ Only faultParts s u) ∧
    (∀ write corrected parity fails : Bool,
      let mc := Reg.MC_ERR e st
      let s2 := if parity then (if corrected then s.satFld mc Fld.MC_ERR.ECC_CE 1 else s).satFld mc Fld.MC_ERR.PAR_RETRY 1
        else if corrected then s.satFld mc Fld.MC_ERR.ECC_CE 1 else s
      ∃ u, exec (.hbmAccess e st ⟨j.val, by omega⟩ write corrected parity fails) s = .next u ∧ Only faultParts s u ∧
        (fails = false → u = s2) ∧
        (fails = true → write = true → u = (s2.satFld mc Fld.MC_ERR.UE 1).fault Src.HUB_HBM_UE e 0) ∧
        (fails = true → write = false → ueKey st j ∈ (u.eng e).hbmUe ∧ u.regs = s2.regs ∧ EngsBut e s u))

/-- R216: part of a block that is written is held with its bytes; 2 µs after its first write the buffer closes, and the block is verified, merged and
written whole with a new check word; a block that fails its old check keeps what it had.
R218, R230, R231: the scrubber verifies the next block in order over both stacks and counts a sweep at the end of them; a failing block is counted,
captured and reported; a merge window closes its line; a write clears the counts of a controller.
The model's own choices it rests on: log 27, 90, 92. -/
def Obligations.WritesScrubsAndErrorCounts : Prop :=
  (∀ (s : State) (e : EngIx) (st : Fin 2) (j : Fin 16744448),
      let t := 2 * e.val + st.val
      let bad := (s.eng e).hbmUe.contains (ueKey t j)
      (∀ (off : Fin 4096) (bs : List Byte), bs ≠ [] → bs.length < 4096 → off.val + bs.length ≤ 4096 →
        (s.stackReach t j = St.OK → s.asmOf t j = none → (s.eng e).asm.length < 64 →
          ∃ u b, exec (.partialWriteHold e st j off bs) s = .next u ∧ Only [.engines, .out] s u ∧ EngsBut e s u ∧
            u.out = s.out ++ [.hubDone e St.OK []] ∧ u.asmOf t j = some b ∧ b.since = s.now ∧ (u.eng e).asm = (s.eng e).asm ++ [b] ∧
            (∀ i, i < bs.length → SMap.find? b.bytes (off.val + i) = bs[i]?) ∧
            (∀ i, (i < off.val ∨ off.val + bs.length ≤ i) → SMap.find? b.bytes i = none)) ∧
        (s.stackReach t j ≠ St.OK →
          exec (.partialWriteHold e st j off bs) s = .next (s.emit (.hubDone e (s.stackReach t j) [])))) ∧
      (∀ b, s.asmOf t j = some b →
        (s.now < b.since + 2000 → exec (.assemblyTimeout e st j) s = .next s) ∧
        (b.since + 2000 ≤ s.now → bad = false → s.blockGood t j = true →
          ∃ u, exec (.assemblyTimeout e st j) s = .next u ∧ Only [.hbm, .engines, .pair] s u ∧ u.asmOf t j = none ∧ u.blockGood t j = true ∧
            u.blockRaw t j = layHeld b.bytes (s.blockRaw t j) 0) ∧
        (b.since + 2000 ≤ s.now → bad = false → s.blockGood t j = false →
          ∃ u, exec (.assemblyTimeout e st j) s = .next u ∧ Only faultParts s u ∧
            u = ((s.asmDrop t j).chkCapture t j).faultFor Src.HUB_CHECK_FAIL e 0 false none))) ∧
  (∀ (s : State) (e : EngIx),
      let n := (s.eng e).scrubAt
      let t := 2 * e.val + n % 2
      let last := n + 1 = 2 * stackBlocks
      let stat := Reg.MC_SCRUB_STAT e
      (s.scrubOpen e = true → (s.eng e).hbmUe.contains (ueKey t (n / 2)) = false →
        ∃ u v, exec (.scrubBlock e) s = .next v ∧ Only [.engines, .regs] s u ∧ EngsBut e s u ∧ RegsBut [stat] s u ∧
          (last → (u.eng e).scrubAt = 0 ∧ u.fld stat Fld.MC_SCRUB_STAT.SWEEPS = min (s.fld stat Fld.MC_SCRUB_STAT.SWEEPS + 1) 65535) ∧
          (¬ last → (u.eng e).scrubAt = n + 1 ∧ u.regs = s.regs) ∧ (u.eng e).scrubbed = (s.eng e).scrubbed + 1 ∧
          (s.blockGood t (n / 2) = true → v = u) ∧
          (s.blockGood t (n / 2) = false →
            v = ((u.satFld stat Fld.MC_SCRUB_STAT.FAILS 1).chkCapture t (n / 2)).faultFor Src.HUB_SCRUB_FAIL e 0 false none)) ∧
      (s.scrubOpen e = false → exec (.scrubBlock e) s = .next s) ∧
      (∀ line : Fin 0x400000, ∃ u, exec (.mergeWindowClose e line) s = .next u ∧ Only [.engines] s u ∧ EngsBut e s u ∧
        ∀ m, m ∈ (u.eng e).merges ↔ m ∈ (s.eng e).merges ∧ m.line ≠ line.val) ∧
      (∀ (r : Req) (st : Fin 2) (v : Word), Passes s r (Reg.MC_ERR e st) v.toNat →
        ∃ u, exec (.mcErrClear r e st v) s = .next u ∧ u.rdN (Reg.MC_ERR e st) = 0 ∧
          Only [.regs] (entered s r (Reg.MC_ERR e st) v.toNat) u ∧ RegsBut [Reg.MC_ERR e st] (entered s r (Reg.MC_ERR e st) v.toNat) u))

/-- R220, R225, R231: a write of TAIL shows in it, and one that runs more than the ring ahead of DONE marks where the queue will halt; ENABLE takes up
the ring base; RESUME restarts a halted queue at the failing descriptor and SKIP at the one after it, once nothing of it is in flight; CLEAR zeroes a
queue that is disabled and idle.
R221 to R225: the next descriptor of a ready queue is read from its ring and starts, one that breaks R222 fails with BAD_DESC, and one with FENCE
waits for every earlier one; a piece of a COPY is read and written and then waits for its acknowledgment, a piece of a FILL is the pattern, a NOP
has no piece; an acknowledgment raises the counter; the descriptor that ends is counted in index order, and one that failed halts its queue.
The model's own choices it rests on: log 28, 29, 101, 102, 103, 105, 174. -/
def Obligations.DmaQueuesAndDescriptors : Prop :=
  (∀ (s : State) (r : Req) (e : EngIx) (q : QueueIx) (v : Word),
      let parts : List Part := [.regs, .engines]
      (Passes s r (Reg.ENG_DMAQ_TAIL e q) v.toNat →
        let a := entered s r (Reg.ENG_DMAQ_TAIL e q) v.toNat
        ∃ t, exec (.dmaqTailWrite r e q v) s = .next t ∧ Only parts a t ∧ EngsBut e a t ∧ RegsBut [Reg.ENG_DMAQ_TAIL e q] a t ∧
          t.dmaTail e q = v.toNat % 65536 ∧
          (a.dmaHalted e q = false → (t.dmaq e q).bad =
            (if a.dmaSize e q < ahead (v.toNat % 65536) (a.dmaDone e q) then some ((a.dmaDone e q + a.dmaSize e q) % 65536) else none)) ∧
          (a.dmaHalted e q = true → t.engines = a.engines)) ∧
      (Passes s r (Reg.ENG_DMAQ_CFG e q) v.toNat →
        let a := entered s r (Reg.ENG_DMAQ_CFG e q) v.toNat
        a.flag (Reg.ENG_DMAQ_CFG e q) Fld.ENG_DMAQ_CFG.ENABLE = false → bit v.toNat 8 = true →
        ∃ t, exec (.dmaqEnable r e q v) s = .next t ∧ Only parts a t ∧ EngsBut e a t ∧ RegsBut [Reg.ENG_DMAQ_CFG e q] a t ∧
          t.flag (Reg.ENG_DMAQ_CFG e q) Fld.ENG_DMAQ_CFG.ENABLE = true ∧ (t.dmaq e q).base = a.rdN (Reg.ENG_DMAQ_BASE e q) * 64) ∧
      (Passes s r (Reg.ENG_DMAQ_CTRL e q) 1 →
        let a := entered s r (Reg.ENG_DMAQ_CTRL e q) 1
        a.dmaHalted e q = true →
        ∃ t, exec (.dmaqResume r e q) s = .next t ∧ Only parts a t ∧ EngsBut e a t ∧
          (a.inFlight e q = [] → t.dmaHalted e q = false ∧ (t.dmaq e q).restart = 0 ∧
            t.dmaHead e q = a.fld (Reg.ENG_DMAQ_STATUS e q) Fld.ENG_DMAQ_STATUS.INDEX ∧ t.dmaDone e q = a.dmaDone e q) ∧
          (a.inFlight e q ≠ [] → t.regs = a.regs ∧ (t.dmaq e q).restart = 1)) ∧
      (Passes s r (Reg.ENG_DMAQ_CTRL e q) 2 →
        let a := entered s r (Reg.ENG_DMAQ_CTRL e q) 2
        let i := a.fld (Reg.ENG_DMAQ_STATUS e q) Fld.ENG_DMAQ_STATUS.INDEX
        a.dmaHalted e q = true →
        ∃ t, exec (.dmaqSkip r e q) s = .next t ∧ Only parts a t ∧ EngsBut e a t ∧
          (a.inFlight e q = [] → t.dmaHalted e q = false ∧ (t.dmaq e q).restart = 0 ∧ t.dmaHead e q = (i + 1) % 65536 ∧
            ((a.dmaq e q).fin = [] → a.dmaDone e q = i → t.dmaDone e q = (i + 1) % 65536)) ∧
          (a.inFlight e q ≠ [] → t.regs = a.regs ∧ (t.dmaq e q).restart = 2)) ∧
      (Passes s r (Reg.ENG_DMAQ_CTRL e q) 4 →
        let a := entered s r (Reg.ENG_DMAQ_CTRL e q) 4
        a.flag (Reg.ENG_DMAQ_CFG e q) Fld.ENG_DMAQ_CFG.ENABLE = false → a.inFlight e q = [] →
        ∃ t, exec (.dmaqClear r e q) s = .next t ∧ Only parts a t ∧ EngsBut e a t ∧
          RegsBut [Reg.ENG_DMAQ_TAIL e q, Reg.ENG_DMAQ_HEAD e q, Reg.ENG_DMAQ_STATUS e q, Reg.PT_QSTAT e q] a t ∧
          t.dmaTail e q = 0 ∧ t.dmaHead e q = 0 ∧ t.dmaDone e q = 0 ∧ t.rdN (Reg.ENG_DMAQ_STATUS e q) = 0 ∧
          t.dmaq e q = { base := (a.dmaq e q).base })) ∧
  (∀ (s : State) (e : EngIx) (q : QueueIx),
      let i := s.dmaHead e q
      let at' := (s.dmaq e q).base + 64 * (i % s.dmaSize e q)
      let rd := s.spReadBytes (.hub e) at' 64
      let f0 : Flight := { q := q, ix := i, raw := rd.2.1 }
      let takes := fun (f : Flight) => ∃ t, exec (.dmaDescStart e q) s = .next t ∧ (t.eng e).flights = (s.eng e).flights ++ [{ f with since := s.now }] ∧
        t.dmaHead e q = (i + 1) % 65536 ∧ t.dmaDone e q = s.dmaDone e q ∧ t.hbm = s.hbm ∧ t.cells = s.cells
      (s.dmaReady e q = true → (s.dmaq e q).bad ≠ some i → s.spRangeOpen (.hub e) at' 64 = true → rd.2.2 = none →
        (f0.ok = true → f0.op ≠ 3 → (f0.fence = false ∨ s.dmaDone e q = i) → takes f0) ∧
        (f0.ok = true → f0.op ≠ 3 → f0.fence = true → s.dmaDone e q ≠ i → exec (.dmaDescStart e q) s = .next s) ∧
        (f0.ok = false → takes { f0 with code := St.BAD_DESC })) ∧
      (∀ (ix : Fin 65536) (f : Flight), s.flight e q ix = some f →
        let x := f.next
        let after := fun now words => { (f.step x.2.2) with
            unacked := f.unacked ++ [(if f.counter.isSome then words else 0, none)], xlat := none, waiting := false, since := now, asked := f.asked ++ [now] }
        (∀ (code : Fin 16) (data : List Byte) s1 bs s2 words, f.op = 1 → f.open' = true →
          s.srcRead e f.srcSpace x.1 x.2.2 f.peer ⟨code, data⟩ = some (s1, St.OK, bs) →
          s1.dstWrite e f.dstSpace x.2.1 f.peer bs f.counter = (s2, St.OK, words) →
          exec (.dmaCopy e q ix code data) s = .next (s2.setFlight e (after s1.now words))) ∧
        (∀ (code : Fin 16) (data : List Byte) s1 st bs, f.op = 1 → f.open' = true → st ≠ St.OK →
          s.srcRead e f.srcSpace x.1 x.2.2 f.peer ⟨code, data⟩ = some (s1, st, bs) →
          exec (.dmaCopy e q ix code data) s = .next (s1.setFlight e { f with code := st })) ∧
        (∀ s2 words, f.op = 2 → f.open' = true → ∃ bs : List Byte, bs.length = x.2.2 / 8 * 8 ∧
          (∀ k, k < bs.length → bs[k]? = (leBytes 8 f.src)[k % 8]?) ∧
          (s.dstWrite e f.dstSpace x.2.1 f.peer bs f.counter = (s2, St.OK, words) →
            exec (.dmaFill e q ix) s = .next (s2.setFlight e (after s.now words)))) ∧
        (f.op = 4 → f.code = 0 → ∃ t, exec (.dmaNop e q ix) s = .next t ∧ Only [.engines] s t ∧ t.flight e q ix = some { f with opDone := true }) ∧
        (∀ (code : Fin 16) words via rest, f.unacked = (words, via) :: rest → f.dstSpace = 1 →
          ∃ t, exec (.dmaPieceAck e q ix code) s = .next t ∧ Only [.engines, .regs] s t ∧ t.flight e q ix = some { f with unacked := rest, asked := f.asked.drop 1 } ∧
            (f.counter = none → t.regs = s.regs) ∧
            (∀ c, f.counter = some c → RegsBut [Reg.ENG_ACNT e c] s t ∧
              t.rdN (Reg.ENG_ACNT e c) = (s.rdN (Reg.ENG_ACNT e c) + words) % 2 ^ 32)) ∧
        (f.open' = false → f.unacked = [] → f.notify = false → (s.dmaq e q).restart = 0 → s.dmaHalted e q = false →
          ∃ t, exec (.dmaDescComplete e q ix) s = .next t ∧ Only [.engines, .regs] s t ∧ EngsBut e s t ∧
            (t.eng e).flights = (s.eng e).flights.filter (fun y => !(y.q == f.q && y.ix == f.ix)) ∧
            (f.code = 0 → (s.dmaq e q).fin = [] → s.dmaDone e q = ix.val → t.dmaDone e q = (ix.val + 1) % 65536) ∧
            (f.code ≠ 0 → f.code < 16 → t.dmaHalted e q = true ∧ t.dmaHead e q = ix.val ∧ t.dmaDone e q = s.dmaDone e q ∧
              t.fld (Reg.ENG_DMAQ_STATUS e q) Fld.ENG_DMAQ_STATUS.CODE = f.code ∧
              t.fld (Reg.ENG_DMAQ_STATUS e q) Fld.ENG_DMAQ_STATUS.INDEX = ix.val))))

/-- R226, R227, R228: against a credit a READ stream sends the entry at its next address on its channel; a WRITE stream writes the entry that stands at
its channel to its next address; a DOORBELL entry names a queue and its new TAIL; a stream whose entry has bad parity stops.
The model's own choices it rests on: log 30. -/
def Obligations.ChannelStreamsMoveEntries : Prop :=
  ∀ (s : State) (e : EngIx) (i : Fin 512) (t : StreamRec) (x : StreamSt),
    (∀ (code : Fin 16) (data bs : List Byte), s.streamOn e i 1 = some (t, x) → s.streamRoom e t = true →
      let sends := fun s1 bs => ∃ u, exec (.streamReadEntry e i code data) s = .next u ∧ u = State.streamSend s1 e i t x bs ∧
        u.buf e t.die t.cell 0 10 = s1.buf e t.die t.cell 0 10 ++ [⟨leNat bs, false⟩] ∧ u.streamSt e i = { x with moved := x.moved + 1, held := none } ∧
        Only [.engines, .fabs] s1 u
      (x.held = some bs → sends s bs) ∧
      (∀ s1, x.held = none → s.srcRead e t.space (t.addr x) 64 0 ⟨code, data⟩ = some (s1, St.OK, bs) → sends s1 bs)) ∧
    (∀ y rest, s.streamOn e i 2 = some (t, x) → SMap.getD (s.eng e).hubIn (t.key 0) [] = y :: rest →
      let s1 := s.onEng e fun g => { g with hubIn := SMap.set [] g.hubIn (t.key 0) rest }
      (∀ s2 words, y.parBad = false →
        s1.dstWrite e t.space (t.addr x) 0 (leBytes 64 y.data) (if t.countEn then some t.counter else none) = (s2, St.OK, words) →
        ∃ u, exec (.streamWriteEntry e i) s = .next u ∧ Only [.engines, .regs] s2 u ∧ u.streamSt e i = { x with moved := x.moved + 1 } ∧
          (t.countEn = false → u.regs = s2.regs) ∧
          (t.countEn = true → RegsBut [Reg.ENG_ACNT e t.counter] s2 u ∧
            u.rdN (Reg.ENG_ACNT e t.counter) = (s2.rdN (Reg.ENG_ACNT e t.counter) + words) % 2 ^ 32)) ∧
      (y.parBad = true → ∃ u, exec (.streamWriteEntry e i) s = .next u ∧ (u.streamSt e i).stopped = true ∧ u.hbm = s.hbm)) ∧
    (∀ y rest, s.streamOn e i 3 = some (t, x) → SMap.getD (s.eng e).hubIn (t.key 1) [] = y :: rest → y.parBad = false →
      ∃ u, exec (.streamDoorbell e i) s = .next u ∧ Only [.engines, .regs] s u ∧ u.dmaTail e (y.data % 64) = bits y.data 31 16 ∧
        SMap.getD (u.eng e).hubIn (t.key 1) [] = rest)

/-! ### Paged tensors (09_paged_tensors) -/

/-- R235, R239, R240, R248, R249: what each context operation does to the record its handle names, its status and LENGTH: BIND fills the lowest free
record and keeps its GEN, EXTEND and SHRINK move LENGTH, UNBIND frees the record with the next GEN, REFRESH only discards cached lines; SHRINK and
UNBIND drain first; a stale or unknown handle changes nothing.
R240, R244, R245, R249: a GO or a descriptor runs the operation its arguments name, one at a time; one that need not drain ends at once with its
status, handle and LENGTH shown, in PT_CMD_STATUS and PT_CMD_LEN or in the descriptor; one that drains ends when no piece translated through a removed
entry is under way. A GO while one is BUSY, or for GATHER or SCATTER, is refused.
The model's own choices it rests on: log 31, 103, 104. -/
def Obligations.ContextOperationsAct : Prop :=
  (∀ (s : State) (e w : Nat) (list : Option Nat),
      let op := bits w 7 0
      let h := bits w 31 16
      let id := h % 4096
      let count := bits w 63 32
      let cap := bits w 95 64
      let c := s.ctx e id
      let x := s.ctxOp e w list
      let keeps := fun id => ∀ k, k ≠ id → x.1.ctx e k = s.ctx e k
      (∀ a n, op = 0x10 → cap ≠ 0 → cap ≤ 65536 → count ≤ cap → list = some a → s.listOk e a cap = true → s.freeCtx e = some n →
        x.1.ctx e n = ⟨true, (s.ctx e n).gen, a, count, cap, bits w 127 96⟩ ∧ keeps n ∧
          x.2 = ⟨Pt.OK, (s.ctx e n).gen * 4096 + n, count, none⟩ ∧ ∀ l ∈ (x.1.eng e).lines, l.ctx ≠ n) ∧
      (op = 0x10 → (cap = 0 → x = (s, ⟨Pt.BAD_ARGS, 0, 0, none⟩)) ∧ (cap ≠ 0 → (65536 < cap ∨ cap < count) → x = (s, ⟨Pt.LIST_LIMIT, 0, 0, none⟩))) ∧
      (op ≠ 0x10 → s.handleCheck e h ≠ Pt.OK → x = (s, ⟨s.handleCheck e h, h, 0, none⟩)) ∧
      (s.handleCheck e h = Pt.OK →
        (op = 0x11 → 1 ≤ count → count ≤ 65536 → c.length + count ≤ c.cap →
          x.1.ctx e id = { c with length := c.length + count } ∧ keeps id ∧ x.2 = ⟨Pt.OK, h, c.length + count, none⟩ ∧
          ∀ l ∈ (x.1.eng e).lines, l.ctx = id → l.line < c.length / 16) ∧
        (op = 0x11 → 1 ≤ count → count ≤ 65536 → c.cap < c.length + count → x = (s, ⟨Pt.LIST_LIMIT, h, c.length, none⟩)) ∧
        (op = 0x12 → 1 ≤ count → count ≤ c.length →
          x.1.ctx e id = { c with length := c.length - count } ∧ keeps id ∧
          x.2 = ⟨Pt.OK, h, c.length - count, some (c.length - count)⟩) ∧
        (op = 0x12 → c.length < count → x = (s, ⟨Pt.LENGTH_UNDER, h, c.length, none⟩)) ∧
        (op = 0x13 → x.1.ctx e id = { gen := (c.gen + 1) % 16 } ∧ keeps id ∧ x.2 = ⟨Pt.OK, h, 0, some 0⟩ ∧
          ∀ l ∈ (x.1.eng e).lines, l.ctx ≠ id) ∧
        (op = 0x14 → x.1.ctx e id = c ∧ keeps id ∧ x.1.regs = s.regs ∧ x.2 = ⟨Pt.OK, h, c.length, none⟩ ∧
          ∀ l ∈ (x.1.eng e).lines, l.ctx ≠ id))) ∧
  (∀ (s : State) (e : EngIx) (cmd : CtxSrc → Instr) (op : Nat),
      (cmd, op) ∈ [(Instr.bind e, 0x10), (Instr.extend e, 0x11), (Instr.shrink e, 0x12), (Instr.unbind e, 0x13), (Instr.refresh e, 0x14)] →
      let stat := Reg.PT_CMD_STATUS e
      (∀ r : Req, Passes s r (Reg.PT_CMD e) 1 →
        let a := entered s r (Reg.PT_CMD e) 1
        let w := s.cmdArgs e
        let x := a.ctxOp e w (a.cmdList e)
        bits w 7 0 = op →
        (a.flag stat Fld.PT_CMD_STATUS.BUSY = false → (a.eng e).drain = none → (a.eng e).ptCmd = none → pagedArgsOk w = true →
          ∃ t, exec (cmd (.go r)) s = .next t ∧ Only [.regs, .engines] a t ∧ EngsBut e a t ∧ (∀ id, t.ctx e id = x.1.ctx e id) ∧
            (x.2.drainFrom = none → t.flag stat Fld.PT_CMD_STATUS.BUSY = false ∧ t.fld stat Fld.PT_CMD_STATUS.STATUS = x.2.status % 256 ∧
              t.fld stat Fld.PT_CMD_STATUS.HANDLE = x.2.handle % 65536 ∧ t.rdN (Reg.PT_CMD_LEN e) = x.2.length % 2 ^ 32) ∧
            (∀ p, x.2.drainFrom = some p → t.flag stat Fld.PT_CMD_STATUS.BUSY = true ∧
              (t.eng e).drain = some ⟨none, x.2.handle, p, x.2.length⟩)) ∧
        (a.flag stat Fld.PT_CMD_STATUS.BUSY = true →
          exec (cmd (.go r)) s = .next (a.setFlag stat Fld.PT_CMD_STATUS.CMD_REJ true))) ∧
      (∀ (q : QueueIx) (ix : Fin 65536) (f : Flight), s.flight e q ix = some f → f.op = 3 → f.subop = op → f.code = 0 → f.opDone = false →
        (s.eng e).drain = none → (s.eng e).ptCmd = none → f.pagedOk = true → bit f.args 9 = false →
        let x := s.ctxOp e f.args (s.descList e f)
        ∃ t, exec (cmd (.desc q ix)) s = .next t ∧ Only [.regs, .engines] s t ∧ EngsBut e s t ∧ (∀ id, t.ctx e id = x.1.ctx e id) ∧
          (x.2.drainFrom = none → t.flight e q ix =
            some { f with opDone := true, pst := x.2.status, code := if x.2.status = Pt.OK then 0 else St.PAGED }) ∧
          (∀ p, x.2.drainFrom = some p → (t.eng e).drain = some ⟨some (q.val, ix.val), x.2.handle, p, x.2.length⟩)) ∧
      (∀ d, (s.eng e).drain = some d →
        ((∃ f ∈ (s.eng e).flights, f.through (d.handle % 4096) d.fromPage = true) → exec (.ctxopDrainDone e) s = .next s) ∧
        ((∀ f ∈ (s.eng e).flights, f.through (d.handle % 4096) d.fromPage = false) → (s.eng e).ptCmd = none → d.flight = none →
          ∃ t, exec (.ctxopDrainDone e) s = .next t ∧ Only [.regs, .engines] s t ∧ EngsBut e s t ∧ (t.eng e).drain = none ∧
            t.flag stat Fld.PT_CMD_STATUS.BUSY = false ∧ t.fld stat Fld.PT_CMD_STATUS.STATUS = Pt.OK ∧
            t.rdN (Reg.PT_CMD_LEN e) = d.length % 2 ^ 32)))

/-- R246, R247: a piece of a GATHER or SCATTER is translated by the entry of its page in a cached line, which is counted as a hit; a hole or a page
outside memory fails it; a line not cached is fetched, at most 16 at once, and its arrival translates the piece that waits; a translated piece is then
read and written.
The model's own choices it rests on: log 105. -/
def Obligations.PagedPiecesTranslateAndMove : Prop :=
  ∀ (s : State) (e : EngIx) (q : QueueIx) (ix : Fin 65536) (f : Flight), s.flight e q ix = some f → f.op = 3 → f.open' = true →
    let o := f.paged.1
    let page := o / 65536
    let id := bits f.args 27 16
    let entry := fun (l : List Byte) => leAt l (4 * (page % 16)) 4
    let lands := fun (t : State) (l : List Byte) =>
      (entry l = 0xFFFFFFFF → t.flight e q ix = some { f with code := St.PAGED, pst := Pt.PAGE_HOLE, dcode := 0, waiting := false }) ∧
      (entry l ≠ 0xFFFFFFFF → s.viewHolds (entry l * 65536) 65536 = false →
        t.flight e q ix = some { f with code := St.PAGED, pst := Pt.PAGE_RANGE, dcode := 0, waiting := false }) ∧
      (entry l ≠ 0xFFFFFFFF → s.viewHolds (entry l * 65536) 65536 = true →
        t.flight e q ix = some { f with xlat := some (entry l * 65536 + o % 65536, page), waiting := false })
    (subopMoves f.subop = true → f.xlat = none → f.waiting = false → s.walkCheck e f = Pt.OK →
      (∀ l, (s.eng e).lines.find? (fun l => l.ctx == id && l.line == page / 16) = some l →
        ∃ t, exec (.walk e q ix) s = .next t ∧ Only [.regs, .engines] s t ∧ lands t l.bytes ∧
          t.rdN (Reg.PT_WALK_HIT e) = (s.rdN (Reg.PT_WALK_HIT e) + 1) % 2 ^ 32) ∧
      ((s.eng e).lines.find? (fun l => l.ctx == id && l.line == page / 16) = none →
        (s.eng e).misses.contains (id, page / 16) = false →
        ((s.eng e).misses.length < 16 → ∃ t, exec (.walk e q ix) s = .next t ∧ Only [.regs, .engines] s t ∧
          t.flight e q ix = some { f with waiting := true } ∧ (t.eng e).misses = (s.eng e).misses ++ [(id, page / 16)] ∧
          t.rdN (Reg.PT_WALK_MISS e) = (s.rdN (Reg.PT_WALK_MISS e) + 1) % 2 ^ 32) ∧
        (16 ≤ (s.eng e).misses.length → exec (.walk e q ix) s = .next s))) ∧
    (subopMoves f.subop = true → f.xlat = none → f.waiting = false → s.walkCheck e f ≠ Pt.OK →
      ∃ t, exec (.walk e q ix) s = .next t ∧ Only [.engines] s t ∧
        t.flight e q ix = some { f with code := St.PAGED, pst := s.walkCheck e f, dcode := 0, waiting := false }) ∧
    (∀ (n : Fin 4096) (s2 : State) (bs : List Byte), f.waiting = true → page / 16 = n.val → (s.eng e).misses.contains (id, n.val) = true →
      let s1 := s.onEng e fun g => { g with misses := g.misses.filter (· != (id, n.val)) }
      let c := s.ctx e id
      (s.eng e).flights.filter (fun f => f.waiting && bits f.args 27 16 == id && f.paged.1 / 65536 / 16 == n.val) = [f] →
      c.bound = true → s1.memRead (c.list + 64 * n.val) 64 (some e.val) = (s2, St.OK, bs) → s2.walkCheck e f = Pt.OK →
      ∃ t, exec (.walkMissFill e ⟨id, by have := Nat.mod_lt (f.args >>> 16) (show 0 < 2 ^ (27 + 1 - 16) by decide); exact this⟩ n) s = .next t ∧
        Only [.engines] s2 t ∧ lands t bs ∧ (id, n.val) ∉ (t.eng e).misses ∧ ⟨id, n.val, bs⟩ ∈ (t.eng e).lines) ∧
    (∀ a p, f.xlat = some (a, p) →
      let x := f.next
      let after := fun now words => { (f.step x.2.2) with
        unacked := f.unacked ++ [(if f.counter.isSome then words else 0, some (id, p))], xlat := none, waiting := false, since := now, asked := f.asked ++ [now] }
      (∀ s1 bs s2 words, f.subop = 1 → s.memRead a x.2.2 (some e.val) = (s1, St.OK, bs) →
        s1.dstWrite e f.dstSpace x.2.1 f.peer bs f.counter = (s2, St.OK, words) →
        exec (.pagedGather e q ix) s = .next (s2.setFlight e (after s1.now words))) ∧
      (∀ (code : Fin 16) (data : List Byte) s1 bs s2 words, f.subop = 2 →
        s.srcRead e f.srcSpace x.1 x.2.2 f.peer ⟨code, data⟩ = some (s1, St.OK, bs) →
        s1.dstWrite e 0 a f.peer bs f.counter = (s2, St.OK, words) →
        exec (.pagedScatter e q ix code data) s = .next (s2.setFlight e (after s1.now words))))

/-! ### Value studies and stall counters (10_value_studies_counters) -/

/-- R259, R261, R264, R267, R272: a snapshot freezes the live counts with a new sequence number and its times, and clears them; one that cannot be
taken is counted; READY starts the export that is enabled; the export ends with its code; a CLEAR zeroes every stall counter of the engine and no other
register.
The model's own choices it rests on: log 23, 24, 99. -/
def Obligations.ValueStudiesAndStallCounters : Prop :=
  ∀ (s : State) (r : Req) (e : EngIx) (v : Word),
    let stat := Reg.VS_STATUS e
    (Passes s r (Reg.VS_CTRL e) v.toNat → bit v.toNat 0 = true →
      let a := entered s r (Reg.VS_CTRL e) v.toNat
      (a.vsOpen e = true → ∃ t, exec (.vsSnap r e v) s = .next t ∧ Only [.regs, .engines] a t ∧ EngsBut e a t ∧
        RegsBut [Reg.VS_CTRL e, stat] a t ∧ t.flag stat Fld.VS_STATUS.READY = false ∧
        (let x := (a.eng e).study
         let y := (t.eng e).study
         y.frozen = x.live ∧ y.live = [] ∧ y.seq = x.seq + 1 ∧ y.tSnap = a.engTicks e ∧ y.tPrev = x.tSnap ∧ y.frozenStreams = x.streams)) ∧
      (a.vsOpen e = false → ∃ t, exec (.vsSnap r e v) s = .next t ∧ Only [.regs] a t ∧ RegsBut [Reg.VS_CTRL e, Reg.VS_MISSED e] a t ∧
        t.fld (Reg.VS_MISSED e) Fld.VS_MISSED.MISSED = min (a.fld (Reg.VS_MISSED e) Fld.VS_MISSED.MISSED + 1) 65535)) ∧
    (s.flag stat Fld.VS_STATUS.READY = false → ∃ t, exec (.vsReady e) s = .next t ∧ Only [.regs] s t ∧ RegsBut [stat] s t ∧
      t.flag stat Fld.VS_STATUS.READY = true ∧
      (s.flag (Reg.VS_CTRL e) Fld.VS_CTRL.EXPORT_EN = true → t.flag stat Fld.VS_STATUS.EXP_BUSY = true) ∧
      (s.flag (Reg.VS_CTRL e) Fld.VS_CTRL.EXPORT_EN = false →
        t.flag stat Fld.VS_STATUS.EXP_BUSY = s.flag stat Fld.VS_STATUS.EXP_BUSY)) ∧
    (∀ s1 st, s.flag stat Fld.VS_STATUS.EXP_BUSY = true → s.vsWrite e 4 = (s1, st) → st < 16 →
      ∃ t u, exec (.vsExportDone e) s = .next u ∧ Only [.regs] s1 t ∧ RegsBut [stat] s1 t ∧
        t.flag stat Fld.VS_STATUS.EXP_BUSY = false ∧ t.fld stat Fld.VS_STATUS.EXP_CODE = st ∧
        (st = St.OK → u = t) ∧ (st ≠ St.OK → u = t.fault Src.VS_EXPORT_FAIL e st)) ∧
    (Passes s r (Reg.VS_MISSED e) v.toNat →
      ∃ t, exec (.vsMissedClear r e v) s = .next t ∧ Only [.regs] (entered s r (Reg.VS_MISSED e) v.toNat) t ∧
        RegsBut [Reg.VS_MISSED e] (entered s r (Reg.VS_MISSED e) v.toNat) t ∧ t.rdN (Reg.VS_MISSED e) = 0) ∧
    (Passes s r (Reg.VS_STALL_CTRL e) v.toNat → bit v.toNat 1 = true →
      let a := entered s r (Reg.VS_STALL_CTRL e) v.toNat
      let counter := fun x => (∃ n < 10, x = Reg.VS_HST e n) ∨ (∃ n < 12, x = Reg.VS_RST e n) ∨
        ∃ m < 5, ∃ c < 864, ∃ n < 18, x = Reg.CEL_STALL e m c n
      ∃ t, exec (.stallClear r e v) s = .next t ∧ Only [.regs] a t ∧ (∀ x, counter x → t.rd x = regReset x) ∧
        ∀ x, ¬ counter x → x % 4 = 0 → x ≠ Reg.VS_STALL_CTRL e → t.rd x = a.rd x)

/-! ### The panel networks, barriers and aborts (11_panel_networks; 18 R475) -/

/-- R281 to R283, R286, R293: a router answers a packet for a down position, delivers one at its own position, puts one for an edge die on the ring,
and sends any other on the primary output, or on the alternate when the primary link is down; with neither up the position is lost to it. The ring takes a
packet round to its stop. R291: a throttled request waits for its charge. R276, R277, R290, R294: links, lane groups, the watchdog and the tree.
The model's own choices it rests on: log 41, 98, 115, 116. -/
def Obligations.PacketsCrossThePanelNetworks : Prop :=
  ∀ (s : State) (i : Fin 65536) (credit : Bool),
    let hop := fun (x : Host.Outcome State Fault Refusal) => exec (.torusHop i credit) s = x
    let turn := fun (x : Host.Outcome State Fault Refusal) => exec (.ringForward i credit) s = x
    let put := fun p' => { s with packets := s.packets.set i p' }
    let gone := { s with packets := s.packets.eraseIdx i }
    (∀ p, s.packets[i.val]? = some p →
      let e := p.at'
      let ways := outputs (s.routeWord e p.dst) p.net
      (p.ring = none → s.packetDown e p = true →
        (p.net = 0 → hop (.next (put (answered p (if p.spread.isSome then St.SPREAD_LOST else St.TARGET_RESET))))) ∧
        (p.net ≠ 0 → hop (.next gone))) ∧
      (p.ring = none → s.packetDown e p = false →
        (ways.1 = 5 → p.net = 1 → p.dst < 48 → hop (.next (gone.emit (.hubDone p.dst p.status [])))) ∧
        (ways.1 = 5 → (p.net ≠ 1 ∨ 48 ≤ p.dst) → hop (.next gone)) ∧
        (∀ a b, ways.1 = 4 → credit = true → stopOf e = some a → stopOf p.dst = some b →
          hop (.next (put { p with ring := some (a, clockwise a b) }))) ∧
        (ways.1 < 4 → s.linkUp e p.net ways.1 = true → p.alt = false → credit = true →
          ∃ p', hop (.next (put p')) ∧ p'.at' = neighbour e ways.1 ∧ p'.dst = p.dst ∧ p'.alt = false) ∧
        (ways.1 < 4 → s.linkUp e p.net ways.1 = false → ways.2 < 4 → s.linkUp e p.net ways.2 = true → credit = true →
          ∃ p', hop (.next (put p')) ∧ p'.at' = neighbour e ways.2 ∧ p'.dst = p.dst ∧ p'.alt = true) ∧
        (ways.1 < 4 → s.linkUp e p.net ways.1 = false → (4 ≤ ways.2 ∨ s.linkUp e p.net ways.2 = false) →
          ∃ t, hop (.next t) ∧ p.dst ∈ (t.eng e).lost ∧ Only (.packets :: faultParts) s t)) ∧
      (∀ a cw, p.ring = some (a, cw) →
        let stop := if 48 ≤ p.dst then p.dst else (s.entryStop p.src p.dst).1
        (ringStops.getD a 0 ≠ stop → credit = true → turn (.next (put { p with ring := some ((if cw then a + 1 else a + 38) % 39, cw) }))) ∧
        (ringStops.getD a 0 = stop → 48 ≤ p.dst → turn (.next gone)) ∧
        (ringStops.getD a 0 = stop → stop < 48 → s.posDown stop = false → credit = true →
          ∃ p', turn (.next (put p')) ∧ p'.ring = none ∧ p'.at' = stop ∧ p'.dst = p.dst))) ∧
    (∀ (e : EngIx) (net : NetIx) (dst : Fin 64) (spread : Option (Fin 96)) (bytes reply : Fin 4097),
      let charge := min 4096 (max bytes.val reply.val)
      let x : Packet := { net := net.val, src := e.val, dst := dst.val, bytes := bytes.val, spread := spread.map (·.val), at' := e.val }
      let cmd := Instr.injectAdmit e net dst spread bytes reply
      s.engineUp e = true →
      ((net.val ≠ 0 ∨ s.fld (Reg.NET_INJ e) Fld.NET_INJ.RATE = 0) → exec cmd s = .next { s with packets := s.packets ++ [x] }) ∧
      (net.val = 0 → s.fld (Reg.NET_INJ e) Fld.NET_INJ.RATE ≠ 0 →
        (charge ≤ s.bucketNow e → ∃ t, exec cmd s = .next t ∧ Only [.packets, .engines] s t ∧ EngsBut e s t ∧
          t.packets = s.packets ++ [x] ∧ (t.eng e).bucket = (s.bucketNow e - charge, s.now)) ∧
        (s.bucketNow e < charge → ∃ t, exec cmd s = .next t ∧ Only [.regs] s t ∧ RegsBut [Reg.VS_RST e 8] s t))) ∧
    (∀ (e : EngIx) (n : Fin 8) (reply : Bool) (group : Fin 9), (s.fld (Reg.NET_LINK e n) Fld.NET_LINK.STATE = 2 ∨
        s.fld (Reg.NET_LINK e n) Fld.NET_LINK.STATE = 3) →
      let a := Reg.NET_LINK e n
      let u := ((s.netFault e Fld.NET_FAULT.LANE_FAIL 3 (b2n reply) n 0).fault Src.NET_LANE_FAIL e n).queueDefect ⟨5, e, n, b2n reply + 2 * group.val, 2⟩
      (∃ t, exec (.flitReplay e n) s = .next t ∧ Only [.regs] s t ∧ RegsBut [a] s t ∧
        t.fld a Fld.NET_LINK.CRC_REPLAY = min (s.fld a Fld.NET_LINK.CRC_REPLAY + 1) 65535) ∧
      (n.val < 4 → u.flag a Fld.NET_LINK.SPARE_USED = false → exec (.laneGroupFail e n reply group) s = .next (u.setFlag a Fld.NET_LINK.SPARE_USED true)) ∧
      (n.val < 4 → u.flag a Fld.NET_LINK.SPARE_USED = true → 4 ≤ u.fld a Fld.NET_LINK.GROUPS - 1 →
        ∃ t, exec (.laneGroupFail e n reply group) s = .next t ∧ Only [.regs] u t ∧ RegsBut [a] u t ∧ t.fld a Fld.NET_LINK.STATE = 3 ∧
          t.fld a Fld.NET_LINK.GROUPS = u.fld a Fld.NET_LINK.GROUPS - 1) ∧
      (4 ≤ n.val → ∃ v, v.fld a Fld.NET_LINK.STATE = 4 ∧ v.flag (Reg.NET_FAULT e) Fld.NET_FAULT.LINK_DOWN = true ∧
        RegsBut [a, Reg.NET_FAULT e, Reg.NET_FAULT_AT e] s v ∧ Only [.regs] s v ∧
        exec (.laneGroupFail e n reply group) s = .next (v.fault Src.NET_LINK_DOWN e n))) ∧
    (∀ (e : EngIx) (net : Fin 5) (port : Fin 8), s.engineUp e = true →
      (∃ u, u.flag (Reg.NET_FAULT e) Fld.NET_FAULT.SYNC_MISMATCH = true ∧ RegsBut [Reg.NET_FAULT e, Reg.NET_FAULT_AT e] s u ∧
        Only [.regs] s u ∧ (s.rdN (Reg.NET_FAULT e) = 0 → u.fld (Reg.NET_FAULT_AT e) Fld.NET_FAULT_AT.KIND = 5) ∧
        exec (.syncMismatch e) s = .next (u.fault Src.NET_SYNC_MISMATCH e 0)) ∧
      (s.flag (Reg.NET_WDOG e) Fld.NET_WDOG.ENABLE = true →
        ∃ u, u.flag (Reg.NET_FAULT e) Fld.NET_FAULT.WDOG_BITE = true ∧ RegsBut [Reg.NET_FAULT e, Reg.NET_FAULT_AT e] s u ∧ Only [.regs] s u ∧
          (s.rdN (Reg.NET_FAULT e) = 0 → u.fld (Reg.NET_FAULT_AT e) Fld.NET_FAULT_AT.PORT = port) ∧
          exec (.resourceWdogBite e net port none) s = .next (u.fault Src.NET_WDOG e 0) ∧
          (∀ p, s.packets[i.val]? = some p → p.at' = e.val → p.net = 0 →
            ∃ t, exec (.resourceWdogBite e net port (some i)) s = .next t ∧ Only (.packets :: faultParts) s t ∧
              t.packets = s.packets.set i (answered p St.TARGET_RESET))))

/-- R286, R287, R295 to R297; 18 R475: an announced position is down for every router, its engine leaves its barrier channel and the other members show
LOST; it comes up again in the same way; an adoption rewrites every FEID of the adopted position. An arrival sets ARRIVED, then PENDING, then OVERRUN;
a channel whose members have all arrived releases them. An abort reaches every engine of the partition, and ends the run of one that runs.
The model's own choices it rests on: log 42, 72. -/
def Obligations.PositionsBarriersAndAborts : Prop :=
  ∀ (s : State) (r : Req) (e : EngIx) (v : Word),
    let bar := Reg.NET_BAR_STATUS e
    (∀ p : Fin 64, p.val ∈ s.annDown → ∃ t, exec (.positionDown p) s = .next t ∧ p.val ∈ t.edgeDown ∧ t.annDown = s.annDown.erase p.val ∧
      Only [.annDown, .edgeDown, .feeds, .colls, .members, .regs] s t ∧ (48 ≤ p.val → Only [.annDown, .edgeDown] s t) ∧
      (p.val < 48 → p.val ∉ t.members ∧
        ∀ q x, s.partOf p = some q → s.inBarrier p = true → x ∈ q.list → x ≠ p.val → s.inBarrier x = true →
          t.flag (Reg.NET_BAR_STATUS x) Fld.NET_BAR_STATUS.LOST = true)) ∧
    (∀ p : Fin 64, p.val ∈ s.annUp → p.val ∉ s.annDown → ∃ t, exec (.positionUp p) s = .next t ∧ t.edgeDown = s.edgeDown.erase p.val ∧
      t.annUp = s.annUp.erase p.val ∧ Only [.annUp, .edgeDown, .members] s t) ∧
    (∀ x b rest, s.adoptQ = (x, b) :: rest → x < 48 → ∃ t, exec .adoptionBroadcast s = .next t ∧ t.adoptQ = rest ∧ Only [.adoptQ, .edgeFeid] s t ∧
      ∀ f y, SMap.find? s.edgeFeid f = some y → SMap.getD t.edgeFeid f 0 = if y % 64 = x then y - x + b else y) ∧
    (Passes s r (Reg.NET_BAR_ARRIVE e) v.toNat → bit v.toNat 0 = true →
      let a := entered s r (Reg.NET_BAR_ARRIVE e) v.toNat
      (a.inBarrier e = false → exec (.netBarArrive r e v) s = .next a) ∧
      (a.inBarrier e = true → ∃ t, exec (.netBarArrive r e v) s = .next t ∧ Only [.regs] a t ∧ RegsBut [bar, Reg.NET_FAULT e] a t ∧ t.arrived e = true ∧
        t.barPending e = (a.barPending e || a.arrived e) ∧
        (a.arrived e = true → a.barPending e = true → t.flag bar Fld.NET_BAR_STATUS.OVERRUN = true ∧
          t.flag (Reg.NET_FAULT e) Fld.NET_FAULT.BAR_OVERRUN = true))) ∧
    (∀ (c : Fin 16) (q : PartRec), s.ground.parts.find? (fun x => x.id == c.val) = some q → s.barDue q = true →
      ∃ t, exec (.barrierRelease c) s = .next t ∧ Only [.regs, .events, .members] s t ∧
        t.events.length = s.events.length + (s.membersOf q).length ∧
        ∀ x ∈ s.membersOf q, t.fld (Reg.NET_BAR_STATUS x) Fld.NET_BAR_STATUS.GEN = (s.fld (Reg.NET_BAR_STATUS x) Fld.NET_BAR_STATUS.GEN + 1) % 65536 ∧
          t.barPending x = false ∧ t.arrived x = (s.barPending x && t.inBarrier x)) ∧
    (∀ c : Fin 16, s.ground.parts.find? (fun x => x.id == c.val) = none → exec (.barrierRelease c) s = .next s) ∧
    (Passes s r (Reg.NET_ABORT e) v.toNat → bit v.toNat 0 = true →
      let a := entered s r (Reg.NET_ABORT e) v.toNat
      ∀ q, a.partOf e = some q → ∃ t, exec (.netAbortAssert r e v) s = .next t ∧ Only [.engines, .colls] a t ∧
        (∀ x ∈ q.list, (t.eng x).abortPart = true) ∧ ∀ x, x ∉ q.list → t.eng x = a.eng x) ∧
    (((s.eng e).abortPart = true ∨ (s.eng e).abortPanel = true) → s.engineUp e = true →
      let st := Reg.NET_ABORT_STAT e
      ∃ t, exec (.abortLine e) s = .next t ∧ (t.eng e).abortPart = false ∧ (t.eng e).abortPanel = false ∧ EngsBut e s t ∧
        t.fld st Fld.NET_ABORT_STAT.COUNT = min (s.fld st Fld.NET_ABORT_STAT.COUNT + b2n (s.eng e).abortPart + b2n (s.eng e).abortPanel) 65535 ∧
        ((s.eng e).abortPart = true → t.flag st Fld.NET_ABORT_STAT.PART_SEEN = true) ∧
        ((s.eng e).abortPanel = true → t.flag st Fld.NET_ABORT_STAT.PANEL_SEEN = true) ∧
        ((s.cvState e = Cv.RUNNING ∨ s.cvState e = Cv.STOPPING) → (t.eng e).hubIn = [] ∧ (t.eng e).canvas.running = false ∧
          (s.plan e = none → t.cvState e = Cv.DONE) ∧ (s.plan e ≠ none → (t.eng e).canvas.waitPeriod = true)) ∧
        (¬ (s.cvState e = Cv.RUNNING ∨ s.cvState e = Cv.STOPPING) → Only [.engines, .regs] s t))

/-! ### Clocks, beats and periods (12_clocks_cadence) -/

/-- R300, R301, R303, R306, R324: an engine whose source shows no edges takes the other, or goes into holdover; droop moves its clock between 827 and
940 MHz; replicas that fail to settle are counted and reported; at a sync edge its count is slewed, stepped or held by what it is off; four misses in a
row raise TIME_UNLOCK.
R309 to R316: CAD_SET waits for the next sync edge in free-run; a beat accepted while acquiring locks the master and never moves it back by a step; one
within the window corrects it, and one outside it is counted; a missing beat brings HOLDOVER and the eighth in a row LOST; a stuck input is reported; the
grid of a partition is written by its owner while no engine holds it.
The model's own choices it rests on: log 34, 35, 36, 37, 38, 39, 112, 113, 114, 173. -/
def Obligations.ClocksFollowReferenceAndBeat : Prop :=
  (∀ (s : State) (r : Req) (e : EngIx) (v : Word),
      let clk := Reg.CAD_ENG_CLK e
      let err := Reg.CAD_ENG_FAULT e
      let reports := fun (cmd : Instr) (u : State) (own all : Fld) (src : Nat) => ∃ w, exec cmd s = .next (w.fault src e 0) ∧
        Only [.regs] u w ∧ RegsBut [err, Reg.CAD_FAULT] u w ∧ w.flag err own = true ∧ w.flag Reg.CAD_FAULT all = true
      let takes := fun (cmd : Instr) (n : Nat) => ∃ t, exec cmd s = .next t ∧ Only [.regs] s t ∧ RegsBut [clk] s t ∧ t.refSel e = n ∧
        t.fld clk Fld.CAD_ENG_CLK.HOPS = t.refHops 48 e
      (∀ p a : Bool,
        (s.refSel e = 0 → p = false → s.refUsable e true a = true → takes (.refSourceSwitch e p a) 1) ∧
        (s.refSel e = 1 → a = false → s.refUsable e false p = true → takes (.refSourceSwitch e p a) 0) ∧
        (s.refSel e = 0 → p = false → s.refUsable e true a = false →
          reports (.refSourceSwitch e p a) (s.setFld clk Fld.CAD_ENG_CLK.REF 2) Fld.CAD_ENG_FAULT.REF_LOST Fld.CAD_FAULT.REF_LOST Src.REF_LOST) ∧
        (s.refSel e ≠ 0 → s.refUsable e false p = true → takes (.refSourceReturn e p a) 0) ∧
        (s.refSel e = 2 → s.refUsable e false p = false → s.refUsable e true a = true → takes (.refSourceReturn e p a) 1)) ∧
      (∀ mhz : Fin 1024, ∃ t, exec (.oscStretch e mhz) s = .next t ∧ Only [.engines, .regs] s t ∧ EngsBut e s t ∧ (t.eng e).clk.droop = mhz ∧
        827 ≤ t.clockMhz e ∧ t.clockMhz e ≤ 940 ∧ ((s.eng e).clk.locked = true → t.fld clk Fld.CAD_ENG_CLK.FREQ = t.clockMhz e)) ∧
      (∀ (m : Fin 6) (path : Fin 16) (n : Fin 128), (s.eng e).clk.locked = true → n.val ≠ 0 →
        let mg := Reg.CAD_ENG_MARGIN e
        let lim := max 1 (s.fld Reg.CAD_MARGIN_CFG Fld.CAD_MARGIN_CFG.WARN_LIMIT)
        ∃ u, Only [.regs, .engines] s u ∧ RegsBut [mg] s u ∧ EngsBut e s u ∧ u.fld mg Fld.CAD_ENG_MARGIN.POSITION = m ∧ u.fld mg Fld.CAD_ENG_MARGIN.REPLICA = path ∧
          u.fld mg Fld.CAD_ENG_MARGIN.WARN = min (s.fld mg Fld.CAD_ENG_MARGIN.WARN + n) 65535 ∧ u.warnSum e = s.warnSum e + n ∧
          (¬ (s.warnSum e < lim ∧ lim ≤ s.warnSum e + n) → exec (.marginWarn e m path n) s = .next u) ∧
          (s.warnSum e < lim → lim ≤ s.warnSum e + n → reports (.marginWarn e m path n) u Fld.CAD_ENG_FAULT.MARGIN_WARN Fld.CAD_FAULT.MARGIN_WARN Src.MARGIN_WARN) ∧
          (s.clockMhz e = 827 → ¬ (s.warnSum e < lim ∧ lim ≤ s.warnSum e + n) →
            reports (.marginLost e m path n) u Fld.CAD_ENG_FAULT.MARGIN_LOST Fld.CAD_FAULT.MARGIN_LOST Src.MARGIN_LOST) ∧
          (s.clockMhz e ≠ 827 → exec (.marginLost e m path n) s = .next s)) ∧
      (∀ lost : Fin 0x1000000000000, s.edgeMark < s.master / (10000 * 2 ^ 24) →
        let d : Int := (s.master : Int) - ((s.eng e).count : Int)
        ∃ t, exec (.syncEdge lost) s = .next t ∧ t.cells = s.cells ∧ t.hbm = s.hbm ∧ t.setPend = none ∧
          (s.setPend = none → t.master = s.master ∧ t.edgeMark = s.master / (10000 * 2 ^ 24)) ∧
          (∀ x, s.setPend = some x → s.ticks < x → s.beatSrc = 0 → t.master = x * 2 ^ 24) ∧
          ((s.eng e).clk.locked = true → bit lost.val e = false → (t.eng e).clk.edgeAt = s.now ∧ (t.eng e).clk.misses = 0 ∧
            (d.natAbs ≤ 10 * 2 ^ 24 → (t.eng e).clk.slew = d ∧ (t.eng e).clk.hold = false ∧ (t.eng e).count = (s.eng e).count) ∧
            (10 * 2 ^ 24 < d → (t.eng e).count = s.master ∧ (t.eng e).clk.hold = false) ∧
            (d < -(10 * 2 ^ 24 : Int) → (t.eng e).count = (s.eng e).count ∧ (t.eng e).clk.hold = true)) ∧
          (bit lost.val e = true → (t.eng e).clk = (s.eng e).clk ∧ (t.eng e).count = (s.eng e).count)) ∧
      ((s.eng e).clk.locked = true → (s.eng e).clk.edgeAt + 15000 ≤ s.now →
        ∃ u, Only [.regs, .engines] s u ∧ RegsBut [err] s u ∧ EngsBut e s u ∧ (u.eng e).clk.misses = (s.eng e).clk.misses + 1 ∧ (u.eng e).clk.edgeAt = s.now ∧
          u.fld err Fld.CAD_ENG_FAULT.SYNC_MISS = min (s.fld err Fld.CAD_ENG_FAULT.SYNC_MISS + 1) 255 ∧
          ((s.eng e).clk.misses ≠ 3 → exec (.syncMiss e) s = .next u) ∧
          ((s.eng e).clk.misses = 3 → reports (.syncMiss e) u Fld.CAD_ENG_FAULT.TIME_UNLOCK Fld.CAD_FAULT.TIME_UNLOCK Src.TIME_UNLOCK)) ∧
      (Passes s r (Reg.CAD_ENG_DROOP e) v.toNat →
        ∃ t, exec (.cadEngDroopClear r e v) s = .next t ∧ t.rdN (Reg.CAD_ENG_DROOP e) = 940 ∧
          Only [.regs] (entered s r (Reg.CAD_ENG_DROOP e) v.toNat) t ∧ RegsBut [Reg.CAD_ENG_DROOP e] (entered s r (Reg.CAD_ENG_DROOP e) v.toNat) t) ∧
      (Passes s r (Reg.CAD_ENG_MARGIN e) v.toNat →
        ∃ t, exec (.cadEngMarginClear r e v) s = .next t ∧ t.fld (Reg.CAD_ENG_MARGIN e) Fld.CAD_ENG_MARGIN.WARN = 0 ∧
          Only [.regs] (entered s r (Reg.CAD_ENG_MARGIN e) v.toNat) t ∧ RegsBut [Reg.CAD_ENG_MARGIN e] (entered s r (Reg.CAD_ENG_MARGIN e) v.toNat) t)) ∧
  (∀ (s : State) (r : Req) (v : Word),
      let cnt := Reg.CAD_BEAT_CNT
      let stat := Reg.CAD_BEAT_STAT
      let arrives := fun (cmd : Instr) (time : Nat) =>
        ((s.beat.mode = 1 ∨ s.beat.mode = 4) → ∃ t, exec cmd s = .next t ∧ Only [.regs, .beat, .master] s t ∧ t.beat.mode = 2 ∧ s.master ≤ t.master ∧
          t.fld stat Fld.CAD_BEAT_STAT.MISSED = 0 ∧ t.fld cnt Fld.CAD_BEAT_CNT.ACCEPTED = min (s.fld cnt Fld.CAD_BEAT_CNT.ACCEPTED + 1) 65535 ∧
          (s.beatSrc ≠ 1 → s.master < time * 2 ^ 24 → t.master = time * 2 ^ 24) ∧
          (s.beatSrc ≠ 1 → time * 2 ^ 24 ≤ s.master → t.master = s.master ∧ t.beat.slew = (time * 2 ^ 24 : Nat) - (s.master : Int))) ∧
        ((s.beat.mode = 2 ∨ s.beat.mode = 3) → ((time : Int) - s.beatDue).natAbs ≤ s.beatWindow →
          ∃ t, exec cmd s = .next t ∧ Only [.regs, .beat, .master] s t ∧ t.beat.mode = 2 ∧ t.beat.next = s.beat.next + 1 ∧ t.beat.m = 1 ∧ s.master ≤ t.master ∧
            t.fld stat Fld.CAD_BEAT_STAT.MISSED = 0 ∧ t.rdN Reg.CAD_BEAT_ERR = ofSigned 32 ((time : Int) - s.beatDue)) ∧
        ((s.beat.mode = 2 ∨ s.beat.mode = 3) → s.beatWindow < ((time : Int) - s.beatDue).natAbs →
          ∃ t, exec cmd s = .next t ∧ Only [.regs] s t ∧ RegsBut [cnt] s t ∧ t.fld cnt Fld.CAD_BEAT_CNT.WINDOW = min (s.fld cnt Fld.CAD_BEAT_CNT.WINDOW + 1) 255)
      let misses := fun (cmd : Instr) =>
        (s.fld stat Fld.CAD_BEAT_STAT.MISSED < 7 → ∃ t, exec cmd s = .next t ∧ Only [.regs, .beat] s t ∧ RegsBut [stat] s t ∧ t.beat.mode = 3 ∧
          t.beat.next = s.beat.next + 1 ∧ t.beat.m = s.beat.m + 1 ∧ t.fld stat Fld.CAD_BEAT_STAT.MISSED = s.fld stat Fld.CAD_BEAT_STAT.MISSED + 1) ∧
        (7 ≤ s.fld stat Fld.CAD_BEAT_STAT.MISSED → ∃ u, Only [.regs, .beat] s u ∧ u.beat.mode = 4 ∧ u.flag Reg.CAD_FAULT Fld.CAD_FAULT.BEAT_LOST = true ∧
          exec cmd s = .next (u.fault Src.BEAT_LOST panelScope 0))
      (Passes s r Reg.CAD_CTRL v.toNat → bit v.toNat 0 = true →
        let a := entered s r Reg.CAD_CTRL v.toNat
        (a.beatSrc = 0 → exec (.cadSet r v) s = .next { a with setPend := some (a.rdN (Reg.CAD_SET 0) + a.rdN (Reg.CAD_SET 1) * 2 ^ 32) }) ∧
        (a.beatSrc ≠ 0 → exec (.cadSet r v) s = .next (a.setFlag Reg.CAD_FAULT Fld.CAD_FAULT.CFG_REJ true))) ∧
      (Passes s r Reg.CAD_BEAT_CFG v.toNat →
        let a := entered s r Reg.CAD_BEAT_CFG v.toNat
        let src := bits v.toNat 2 0
        (4 ≤ src → exec (.beatCfgWrite r v) s = .next (a.setFlag Reg.CAD_FAULT Fld.CAD_FAULT.CFG_REJ true)) ∧
        (src < 4 → ∃ t, exec (.beatCfgWrite r v) s = .next t ∧ Only [.regs, .beat] a t ∧ RegsBut [Reg.CAD_BEAT_CFG, stat] a t ∧ t.beatSrc = src ∧
          (src = 0 → t.beat.mode = 0 ∧ t.beat.stuck = false) ∧ (src ≠ 0 → src ≠ a.beatSrc → t.beat.mode = 1 ∧ t.beat.stuck = false))) ∧
      (∀ (wide : Bool) (time : Word64),
        (s.beatSrc = 1 → s.beat.stuck = false → wide = true → arrives (.beatAccept wide time) s.ticks) ∧
        (s.beatSrc = 1 → s.beat.stuck = false → wide = false → ∃ t, exec (.beatAccept wide time) s = .next t ∧ Only [.regs] s t ∧ RegsBut [cnt] s t ∧
          t.fld cnt Fld.CAD_BEAT_CNT.NARROW = min (s.fld cnt Fld.CAD_BEAT_CNT.NARROW + 1) 255) ∧
        (s.beatSrc = 2 → arrives (.beatAccept wide time) time.toNat) ∧
        (s.beatSrc = 3 → arrives (.ptmDialogue (some time)) ((time.toNat + s.rdN (Reg.CAD_PTM_OFFSET 0) + s.rdN (Reg.CAD_PTM_OFFSET 1) * 2 ^ 32) % 2 ^ 64))) ∧
      (s.beatSrc = 3 → (s.beat.mode = 2 ∨ s.beat.mode = 3) → misses (.ptmDialogue none)) ∧
      (s.beatSrc ≠ 0 → (s.beat.mode = 2 ∨ s.beat.mode = 3) → s.beatDue + s.beatWindow < s.ticks → misses .beatMissing) ∧
      (s.beatSrc = 1 → s.beat.stuck = false → ∃ u, Only [.regs, .beat] s u ∧ RegsBut [stat, Reg.CAD_FAULT] s u ∧ u.beat.stuck = true ∧
        u.fld stat Fld.CAD_BEAT_STAT.STATE = 5 ∧ u.flag Reg.CAD_FAULT Fld.CAD_FAULT.BEAT_STUCK = true ∧ exec .beatStuck s = .next (u.fault Src.BEAT_STUCK panelScope 0)) ∧
      (Passes s r cnt v.toNat → ∃ t, exec (.cadBeatCntClear r v) s = .next t ∧ t.rdN cnt = 0 ∧ Only [.regs] (entered s r cnt v.toNat) t ∧
        RegsBut [cnt] (entered s r cnt v.toNat) t) ∧
      (∀ (p : Fin 16) (i : Fin 3) (q : PartRec),
        let reg := if i.val = 2 then Reg.CAD_PART_PERIOD p else Reg.CAD_PART_ORIGIN p i
        let a := entered s r reg v.toNat
        Passes s r reg v.toNat → a.ground.parts.find? (fun x => x.id == p.val) = some q →
        (q.list.any a.gridHeld = false → q.ownedBy r = true → (i.val = 2 → v.toNat = 0 ∨ 1000 ≤ v.toNat) →
          ∃ t, exec (.partGridWrite r p i v) s = .next t ∧ Only [.regs] a t ∧ RegsBut [reg] a t ∧ t.rd reg = v) ∧
        ((q.list.any a.gridHeld = true ∨ q.ownedBy r = false ∨ (i.val = 2 ∧ v.toNat ≠ 0 ∧ v.toNat < 1000)) →
          exec (.partGridWrite r p i v) s = .next (a.setFlag Reg.CAD_FAULT Fld.CAD_FAULT.CFG_REJ true))))

/-- R317 to R323: at its nominal start a period begins with phase 0 and a fresh budget; a phase whose target has come and whose work is done hands over to
the next, cut by its lateness out of the budget where it is elastic; the last hands over to the next period; a period asked to realign waits for the next
nominal start and counts the periods skipped. A lag of more than four periods is reported once.
The model's own choices it rests on: log 33, 106. -/
def Obligations.PeriodsRunTheirPhases : Prop :=
  ∀ (s : State) (r : Req) (e : EngIx) (v : Word) (x : List Byte),
    let g := (s.eng e).sched
    let ph := Reg.CAD_ENG_PHASE e
    let now := s.stamp e
    let starts := fun (k n budget : Nat) => ∃ t, exec (.phaseBoundary e) s = .next t ∧
      let late := now - (s.nominal e n + planStart x k)
      let cut := if elastic (planKind x k) then min late (min budget (planned x k)) else 0
      let y := (t.eng e).sched
      y.phase = k ∧ y.n = n ∧ y.start = now ∧ y.target = now + planned x k - cut ∧ y.budget = budget - cut ∧ t.fld ph Fld.CAD_ENG_PHASE.PHASE = k % 8 ∧
      t.rdN (Reg.CAD_ENG_BUDGET e) = (budget - cut) % 2 ^ 32 ∧ (t.eng e).canvas.waitPeriod = false ∧ t.hbm = s.hbm ∧
      (planKind x k = 0 → (t.eng e).canvas.running = true)
    s.plan e = some x →
    (s.cvState e = Cv.RUNNING →
      ((s.eng e).canvas.waitPeriod = true → g.startAt ≤ now → starts 0 g.n (planBudget x)) ∧
      ((s.eng e).canvas.waitPeriod = true → now < g.startAt → exec (.phaseBoundary e) s = .next s) ∧
      (s.inPeriod e = true → g.target ≤ now → g.workDone = true → g.realign = false →
        (g.phase + 1 < planCount x → starts (g.phase + 1) g.n g.budget) ∧ (planCount x ≤ g.phase + 1 → starts 0 (g.n + 1) (planBudget x))) ∧
      (s.inPeriod e = true → g.target ≤ now → g.workDone = true → g.realign = true →
        let m := firstNominal (s.gridOrigin e) (s.gridPeriod e) now
        ∃ t, exec (.phaseBoundary e) s = .next t ∧ (t.eng e).canvas.waitPeriod = true ∧ (t.eng e).sched = { startAt := s.nominal e m, n := m } ∧
          t.fld ph Fld.CAD_ENG_PHASE.SKIPPED = min (s.fld ph Fld.CAD_ENG_PHASE.SKIPPED + (m - (g.n + 1))) 65535 ∧ Only [.regs, .engines] s t) ∧
      (s.inPeriod e = true → (now < g.target ∨ g.workDone = false) → exec (.phaseBoundary e) s = .next s)) ∧
    (g.lost = false → 4 * s.gridPeriod e < s.lag e → ∃ u, Only [.regs, .engines] s u ∧ EngsBut e s u ∧ (u.eng e).sched = { g with lost := true } ∧
      u.flag (Reg.CAD_ENG_FAULT e) Fld.CAD_ENG_FAULT.SCHED_LOST = true ∧ u.flag Reg.CAD_FAULT Fld.CAD_FAULT.SCHED_LOST = true ∧
      exec (.schedLost e) s = .next (u.fault Src.SCHED_LOST e 0)) ∧
    ((g.lost = true ∨ s.lag e ≤ 4 * s.gridPeriod e) → exec (.schedLost e) s = .next s) ∧
    (Passes s r (Reg.CAD_ENG_CTRL e) v.toNat → bit v.toNat 0 = true →
      let a := entered s r (Reg.CAD_ENG_CTRL e) v.toNat
      (a.inPeriod e = true → ∃ t, exec (.realign r e v) s = .next t ∧ Only [.engines] a t ∧ EngsBut e a t ∧
        (t.eng e).sched = { (a.eng e).sched with realign := true }) ∧
      (a.inPeriod e = false → exec (.realign r e v) s = .next a))

/-! ### Host ports, command contexts and feed queues (13_host_ports) -/

/-- R326, R327, R332, R335, R336, R340 to R342: a port that has trained is up; a configuration request is answered, with retry status before that; a
host access through an enabled window reads or writes the panel address it maps, and one that fails is completed with an error or recorded; the oldest event
of an engine goes to the ring of its partition's function, or is counted as dropped.
The model's own choices it rests on: log 43, 44, 45, 46, 111, 131. -/
def Obligations.HostPortsServeRequestsAndEvents : Prop :=
  ∀ (s : State) (p : HostIx) (fn : FnIx),
    let ps := Reg.HP_PORT_STAT p
    (∀ (width : Fin 17) (rate : Fin 6) (rev : Bool), s.portDie p = true → bit (s.fld Reg.PNL_PHYS Fld.PNL_PHYS.CPRSNT) p = true → s.portState p < 2 →
      width.val ≠ 0 → rate.val ≠ 0 →
      ∃ t, exec (.hostLinkUp p width rate rev) s = .next t ∧ Only [.regs] s t ∧ RegsBut [ps] s t ∧ t.portUp p = true ∧
        t.fld ps Fld.HP_PORT_STAT.WIDTH = width ∧ t.fld ps Fld.HP_PORT_STAT.RATE = rate) ∧
    (∀ dw : Fin 1024, s.portDie p = true →
      (∀ w, s.portUp p = false → exec (.configRequest p fn dw w) s = .next (s.emit (.complete p Cpl.CRS []))) ∧
      (∀ x, s.portUp p = true → cfgFixed fn dw = some x → exec (.configRequest p fn dw none) s = .next (s.emit (.complete p Cpl.SC (leBytes 4 x)))) ∧
      (s.portUp p = true → cfgFixed fn dw = none →
        exec (.configRequest p fn dw none) s = .next (s.emit (.complete p Cpl.SC (leBytes 4 (SMap.getD s.cfgSpace (cfgKey p fn dw) 0#32).toNat)))) ∧
      (∀ v, s.portUp p = true → cfgFixed fn dw = none → ∃ t, exec (.configRequest p fn dw (some v)) s = .next t ∧ Only [.cfgSpace, .out] s t ∧
        SMap.getD t.cfgSpace (cfgKey p fn dw) 0#32 = v ∧ t.out = s.out ++ [.complete p Cpl.SC []])) ∧
    (∀ (off : Fin 0x1000000000), s.portUp p = true → (fn.val ≠ 0 → off.val < 2 ^ 32) →
      (∀ n : Fin 4097, n.val ≠ 0 → off.val % 4096 + n.val ≤ 4096 →
        let reads := fun x => exec (.apertureAccess p fn off n none) s = Host.Outcome.next x
        (s.windowMap p fn off = none → reads (s.emit (.complete p Cpl.UR []))) ∧
        (∀ a, s.windowMap p fn off = some a → s.hostReach (.host p fn) a n ≠ St.OK →
          reads (s.emit (.complete p (hostStatus (s.hostReach (.host p fn) a n)) []))) ∧
        (∀ a, s.windowMap p fn off = some a → s.hostReach (.host p fn) a n = St.OK → toGuest s a = false →
          reads ((s.memRead a n none).1.emit (.complete p (hostStatus (s.memRead a n none).2.1) (s.memRead a n none).2.2)))) ∧
      (∀ (n : Fin 4097) (bs : List Byte), bs ≠ [] → off.val % 4096 + bs.length ≤ 4096 →
        let writes := fun x => exec (.apertureAccess p fn off n (some bs)) s = Host.Outcome.next x
        let ctr := s.fld (windowReg p fn off) Fld.HP_WIN.COUNTER
        (s.windowMap p fn off = none → writes (s.werr p fn 0 St.ADDR_UNMAPPED 0)) ∧
        (∀ a, s.windowMap p fn off = some a → s.hostReach (.host p fn) a bs.length ≠ St.OK →
          writes (s.werr p fn 0 (s.hostReach (.host p fn) a bs.length) a)) ∧
        (∀ a s1 st, s.windowMap p fn off = some a → s.hostReach (.host p fn) a bs.length = St.OK → toGuest s a = false →
          s.memWrite a bs (some ctr) = (s1, st) → (st = St.OK → writes s1) ∧ (st ≠ St.OK → writes (s1.werr p fn 0 st a))))) ∧
    (∀ w, s.guestWaits.find? (fun w => w.ofPort p) = some w →
      (w.since + 1000000 ≤ s.now → exec (.hostReqTimeout p) s = .next ({ s with guestWaits := s.guestWaits.erase w }.emit (.complete p Cpl.CA []))) ∧
      (s.now < w.since + 1000000 → exec (.hostReqTimeout p) s = .next s)) ∧
    (∀ (e : EngIx) (q : QueueIx) (ix : Fin 65536) (f : Flight) (code : Fin 16) (data : List Byte) s1 bs s2 words,
      s.flight e q ix = some f → f.op = 1 → f.open' = true → (f.srcSpace = 2 ∨ f.dstSpace = 2) →
      s.srcRead e f.srcSpace f.next.1 f.next.2.2 f.peer ⟨code, data⟩ = some (s1, St.OK, bs) →
      s1.dstWrite e f.dstSpace f.next.2.1 f.peer bs f.counter = (s2, St.OK, words) →
      let after := { (f.step f.next.2.2) with
        unacked := f.unacked ++ [(if f.counter.isSome then words else 0, none)], xlat := none, waiting := false, since := s1.now, asked := f.asked ++ [s1.now] }
      exec (.hostMemRequest e q ix code data) s = .next (s2.setFlight e after)) ∧
    (∀ (e : EngIx) (x : Event) (q : PartRec), s.events.find? (fun x => x.engine == e.val) = some x → s.partOf e = some q →
      let tl := Reg.HP_EVT_TAIL q.port q.fn
      let room := ahead (s.fld tl Fld.HP_EVT_TAIL.TAIL) (s.fld (Reg.HP_EVT_HEAD q.port q.fn) Fld.HP_EVT_HEAD.HEAD) < s.evtSize q.port q.fn
      let on := s.flag (Reg.HP_EVT_CFG q.port q.fn) Fld.HP_EVT_CFG.ENABLE = true ∧ s.portUp q.port = true
      ∃ t, exec (.eventRecord e) s = .next t ∧ Only [.events, .regs, .out, .msixPend] s t ∧ RegsBut [tl] s t ∧ t.events = s.events.erase x ∧
        (on → room → t.fld tl Fld.HP_EVT_TAIL.TAIL = (s.fld tl Fld.HP_EVT_TAIL.TAIL + 1) % 65536 ∧
          ∃ a b rest, t.out = s.out ++ .hostWrite q.port q.fn a b :: rest ∧ b.length = 16 ∧ byteAt b 0 = x.kind % 256) ∧
        (¬ (on ∧ room) → t.out = s.out ∧
          t.fld tl Fld.HP_EVT_TAIL.DROPPED = min (s.fld tl Fld.HP_EVT_TAIL.DROPPED + 1) 65535))

/-- R343 to R348: CREATE gives the lowest free context with its rings, or QCTX_FULL; DESTROY frees one that has no command in progress, else it drains;
RESUME and SKIP restart a halted one at its command or after it; a doorbell of the owner moves TAIL; fetched commands run in order: a SUBMIT puts its
descriptor in the queue's ring, waits for room, and is stuck after 10 ms; a command that ends moves HEAD on, or halts the context with its code.
The model's own choices it rests on: log 47, 117, 137. -/
def Obligations.CommandContextsRunTheirRings : Prop :=
  ∀ (s : State) (r : Req) (p : HostIx) (fn : FnIx) (v : Word) (k : Fin 64),
    let reg := Reg.HP_QC_CMD p fn
    let res := Reg.HP_QC_RESULT p fn
    let op := fun n => putBits v.toNat 7 0 n
    let shows := fun (t : State) busy status c => t.flag res Fld.HP_QC_RESULT.BUSY = busy ∧ t.fld res Fld.HP_QC_RESULT.STATUS = status ∧
      t.fld res Fld.HP_QC_RESULT.CTX = c
    let clear := bits v.toNat 31 22 = 0 ∧ bits v.toNat 15 8 = 0
    let plain := clear ∧ bits v.toNat 21 16 = k.val
    (Passes s r reg (op 1) → clear →
      let a := entered s r reg (op 1)
      let w := a.rdN (Reg.HP_QC_ARG p fn 4)
      let bad := 8 < bits w 3 0 ∨ 8 < bits w 7 4 ∨ (if fn.val = 0 then 2048 else 64) ≤ bits w 18 8
      a.flag res Fld.HP_QC_RESULT.BUSY = false →
      (¬ bad → (∀ i : Fin 64, i < k → a.qcState p i ≠ Qc.FREE) → a.qcState p k = Qc.FREE →
        ∃ t, exec (.qcCreate r p fn v) s = .next t ∧ Only [.regs, .qctx] a t ∧ shows t false 0 k ∧ t.qcState p k = Qc.RUNNING ∧
          t.qcOwner p k = fn ∧ t.qcHead p k = 0 ∧ (t.qc p k).cmdSize = 2 ^ (bits w 3 0 + 4) ∧ (t.qc p k).cplSize = 2 ^ (bits w 7 4 + 4) ∧
          (t.qc p k).vector = bits w 18 8 ∧ (t.qc p k).fetched = []) ∧
      (¬ bad → (∀ i : Fin 64, a.qcState p i ≠ Qc.FREE) → ∃ t, exec (.qcCreate r p fn v) s = .next t ∧ Only [.regs] a t ∧ RegsBut [res] a t ∧ shows t false 1 0) ∧
      (bad → ∃ t, exec (.qcCreate r p fn v) s = .next t ∧ Only [.regs] a t ∧ RegsBut [res] a t ∧ shows t false 2 0)) ∧
    (Passes s r reg (op 2) → plain →
      let a := entered s r reg (op 2)
      a.flag res Fld.HP_QC_RESULT.BUSY = false → a.qcState p k ≠ Qc.FREE → a.qcOwner p k = fn →
      (a.qcState p k ≠ Qc.ROOM → ∃ t, exec (.qcDestroy r p fn v) s = .next t ∧ Only [.regs, .qctx] a t ∧ t.qcState p k = Qc.FREE ∧ t.qc p k = { } ∧ shows t false 0 k) ∧
      (a.qcState p k = Qc.ROOM → ∃ t, exec (.qcDestroy r p fn v) s = .next t ∧ Only [.regs] a t ∧ t.qcState p k = Qc.DRAINING ∧ shows t true 0 k)) ∧
    (∀ n : Fin 2, Passes s r reg (op (3 + n.val)) → plain →
      let a := entered s r reg (op (3 + n.val))
      a.flag res Fld.HP_QC_RESULT.BUSY = false → a.qcState p k = Qc.HALTED → a.qcOwner p k = fn →
      ∃ t, exec (if n = 0 then .qcResume r p fn v else .qcSkip r p fn v) s = .next t ∧ Only [.regs, .qctx] a t ∧ t.qcState p k = Qc.RUNNING ∧
        t.qcHead p k = (a.qcHead p k + n.val) % 65536 ∧ t.fld (Reg.HP_QCTX p k) Fld.HP_QCTX.CODE = 0 ∧ (t.qc p k).fetched = [] ∧ shows t false 0 k) ∧
    (s.portUp p = true →
      (s.qcState p k ≠ Qc.FREE → s.qcOwner p k = fn → ∃ t, exec (.cmdTailWrite p fn k v) s = .next t ∧ Only [.regs] s t ∧
        RegsBut [Reg.CMD_TAIL p k] s t ∧ t.fld (Reg.CMD_TAIL p k) Fld.CMD_TAIL.TAIL = v.toNat % 65536) ∧
      ((s.qcState p k = Qc.FREE ∨ s.qcOwner p k ≠ fn) → ∃ t, exec (.cmdTailWrite p fn k v) s = .next t ∧ Only faultParts s t)) ∧
    (∀ (data : List Byte), s.qcState p k = Qc.RUNNING → (s.qc p k).fetched.length < 8 → (s.qc p k).fetched.contains none = false → s.portUp p = true →
      (s.qcHead p k + (s.qc p k).fetched.length) % 65536 ≠ s.fld (Reg.CMD_TAIL p k) Fld.CMD_TAIL.TAIL →
      (∃ t a, exec (.cmdFetch p k true data) s = .next t ∧ Only [.qctx, .out] s t ∧ t.out = s.out ++ [.hostRead p (s.qcOwner p k) a 128] ∧
        (t.qc p k).fetched = (s.qc p k).fetched ++ [some (slice data 0 128)]) ∧
      ((s.qc p k).fetched = [] → ∃ t, exec (.cmdFetch p k false data) s = .next t ∧ t.qcState p k = Qc.HALTED ∧
        t.fld (Reg.HP_QCTX p k) Fld.HP_QCTX.CODE = 6 ∧ t.hbm = s.hbm ∧ t.cells = s.cells)) ∧
    (∀ c, s.cmdReady p k 1 = some c →
      let e := byteAt c 2
      let q := byteAt c 3
      let code := s.cmdCheck p (s.qcOwner p k) c
      let slot := (s.dmaq e q).base + 64 * (s.dmaTail e q % s.dmaSize e q)
      (code ≠ 0 → exec (.cmdSubmit p k) s = .next ((s.qcEnd p k code c).qcSettle p k)) ∧
      (code = 0 → s.dmaRoom e q = true → exec (.cmdSubmit p k) s =
        .next (((((s.remoteWrite (.hub e) slot (slice c 0x40 64) none).1).dmaSetTail e q ((s.dmaTail e q + 1) % 65536)).qcEnd p k 0 c).qcSettle p k)) ∧
      (code = 0 → s.dmaRoom e q = false → s.qcState p k = Qc.RUNNING → ∃ t, exec (.cmdSubmit p k) s = .next t ∧ Only [.regs, .qctx] s t ∧
        t.qcState p k = Qc.ROOM ∧ (t.qc p k).waitAt = s.now) ∧
      (s.qcState p k ≠ Qc.RUNNING → s.dmaRoom e q = false → (s.qc p k).waitAt + 10000000 ≤ s.now →
        exec (.queueStuck p k) s = .next (s.qcEnd p k 5 c))) ∧
    (∀ c, s.cmdReady p k 3 = some c → exec (.cmdNop p k) s = .next ((s.qcEnd p k (if cmdOk c then 0 else 1) c).qcSettle p k)) ∧
    (∀ c, s.cmdReady p k 2 = some c → s.cmdCheck p (s.qcOwner p k) c ≠ 0 →
      exec (.cmdWrite p k) s = .next ((s.qcEnd p k (s.cmdCheck p (s.qcOwner p k) c) c).qcSettle p k)) ∧
    (∀ c s1 st, s.cmdReady p k 2 = some c → s.cmdCheck p (s.qcOwner p k) c = 0 →
      s.cmdWrite (.host p ⟨s.qcOwner p k % 16, Nat.mod_lt _ (by decide)⟩) (0x01000000 + 0x400000 * byteAt c 2 + leAt c 8 4) (leAt c 0xC 4) = (s1, st) →
      exec (.cmdWrite p k) s = .next ((s1.qcEnd p k st c).qcSettle p k)) ∧
    (∀ c status, s.qcState p k ≠ Qc.DRAINING → status < 256 →
      let t := s.qcEnd p k status c
      (status = 0 → t.qcState p k = Qc.RUNNING ∧ t.qcHead p k = (s.qcHead p k + 1) % 65536 ∧ (t.qc p k).fetched = (s.qc p k).fetched.drop 1) ∧
      (status ≠ 0 → t.qcState p k = Qc.HALTED ∧ t.qcHead p k = s.qcHead p k ∧ t.fld (Reg.HP_QCTX p k) Fld.HP_QCTX.CODE = status ∧ (t.qc p k).fetched = []))

/-- R349 to R357: data of the queue's writer is appended to its open packet, or overruns it; its end closes the packet under the next number; a read of
the port waits, and takes the entries in order until it holds what it needs; a stored word found bad fails it; FLUSH empties the queue and keeps the reads;
an enabled queue can only be disabled.
The model's own choices it rests on: log 48. -/
def Obligations.FeedQueuesTakeAndDeliver : Prop :=
  ∀ (s : State) (r : Req) (p : HostIx) (fn : FnIx) (f : Fin 16) (v : Word),
    let a := Reg.FQ_STAT p f
    let x := s.feedOf p f
    (s.portUp p = true →
      (s.feedWritable p fn f = true →
        (∀ (off : Fin 2048) (bs : List Byte), off.val % 4 = 0 → bs.length % 4 = 0 → 4 ≤ bs.length → bs.length ≤ 512 → off.val + bs.length ≤ 2048 →
          s.flag a Fld.FQ_STAT.DAMAGED = false →
          let y := x.append bs
          (y.used ≤ 1024 → ∃ t, exec (.feedData p fn f off bs true) s = .next t ∧ Only [.feeds, .regs] s t ∧ RegsBut [a] s t ∧ t.feedOf p f = y ∧
            t.fld a Fld.FQ_STAT.WORDS = y.used) ∧
          (1024 < y.used → ∃ t, exec (.feedData p fn f off bs true) s = .next t ∧ Only [.regs] s t ∧ RegsBut [a] s t ∧
            t.flag a Fld.FQ_STAT.OVERRUN = true ∧ t.flag a Fld.FQ_STAT.DAMAGED = true)) ∧
        (x.openPkt.2.bytes ≠ 0 → x.openPkt.2.words ≠ [] → s.flag a Fld.FQ_STAT.DAMAGED = false →
          ∃ t q, exec (.feedEnd p fn f v) s = .next t ∧ Only [.feeds, .regs] s t ∧ RegsBut [a] s t ∧ (t.feedOf p f).pkts = x.openPkt.1 ++ [q] ∧ q.closed = true ∧
            q.damaged = false ∧ q.prio = v.toNat % 4 ∧ q.seq = x.openPkt.2.seq ∧ q.bytes = x.openPkt.2.bytes ∧ (t.feedOf p f).part = [] ∧
            (t.feedOf p f).seq = (x.seq + 1) % 2 ^ 32)) ∧
      (s.feedWritable p fn f = false → (∃ t, exec (.feedEnd p fn f v) s = .next t ∧ Only faultParts s t) ∧
        ∀ off bs en, ∃ t, exec (.feedData p fn f off bs en) s = .next t ∧ Only faultParts s t)) ∧
    (∀ (e : EngIx) (who : FeedReader) (n addr : Nat), s.feedWant e who = some (addr, n) → s.target addr = .feed p f →
      let w : FeedWait := ⟨e, (feedWho who).1, (feedWho who).2.1, (feedWho who).2.2, n / 64, []⟩
      (x.waits.any fun y => y.engine == w.engine && y.stream == w.stream && y.q == w.q && y.ix == w.ix) = false →
      (s.feedOn p f = true → s.feedReader p f = e.val → addr % 64 = 0 → n % 64 = 0 → n ≠ 0 → n ≤ 4096 →
        (x.waits.length < 16 → ∃ t, exec (.feedPortRead e who) s = .next t ∧ Only [.feeds] s t ∧ t.feedOf p f = { x with waits := x.waits ++ [w] }) ∧
        (16 ≤ x.waits.length → exec (.feedPortRead e who) s = .next s)) ∧
      ((s.feedOn p f = false ∨ s.feedReader p f ≠ e.val) → exec (.feedPortRead e who) s = .next (s.feedFail w St.ACCESS))) ∧
    (∀ (w : FeedWait) l entry y ended, x.waits = w :: l → s.feedOn p f = true → s.flag a Fld.FQ_STAT.UE = false →
      x.take (s.feedFramed p f) (s.feedC2 p f) = some (entry, y, ended) →
      ((w.got ++ entry).length < w.need * 64 → ∃ t, exec (.feedDeliver p f false false) s = .next t ∧
        t.feedOf p f = { y with waits := { w with got := w.got ++ entry } :: l } ∧ t.hbm = s.hbm ∧ t.cells = s.cells) ∧
      (∀ i, w.need * 64 ≤ (w.got ++ entry).length → w.stream = some i → ∃ t, exec (.feedDeliver p f false false) s = .next t ∧
        t.feedOf p f = { y with waits := l } ∧ (t.streamSt w.engine i).held = some (w.got ++ entry) ∧ t.hbm = s.hbm) ∧
      (∀ i, w.stream = some i → ∃ t, exec (.feedDeliver p f false true) s = .next t ∧ t.feedOf p f = { x with waits := l } ∧
        (t.streamSt w.engine i).stopped = true)) ∧
    (Passes s r (Reg.FQ_CTRL p f) v.toNat → bit v.toNat 0 = true →
      let b := entered s r (Reg.FQ_CTRL p f) v.toNat
      ∃ t, exec (.flush r p f v) s = .next t ∧ Only [.feeds, .regs] b t ∧ RegsBut [a] b t ∧ t.feedOf p f = { waits := (b.feedOf p f).waits } ∧
        t.fld a Fld.FQ_STAT.WORDS = 0 ∧ t.fld a Fld.FQ_STAT.PACKETS = 0 ∧ t.flag a Fld.FQ_STAT.OVERRUN = false ∧ t.flag a Fld.FQ_STAT.UE = false) ∧
    (Passes s r (Reg.FQ_CFG p f) v.toNat →
      let b := entered s r (Reg.FQ_CFG p f) v.toNat
      let w := (b.plainWrite (Reg.FQ_CFG p f) v.toNat)
      (b.feedOn p f = false → (w.feedOn p f = false ∨ b.feedBindOk p v.toNat = true) → exec (.fqCfgWrite r p f v) s = .next w) ∧
      (b.feedOn p f = true → bits (w.rdN (Reg.FQ_CFG p f)) 30 0 = bits (b.rdN (Reg.FQ_CFG p f)) 30 0 → exec (.fqCfgWrite r p f v) s = .next w) ∧
      (((b.feedOn p f = true ∧ bits (w.rdN (Reg.FQ_CFG p f)) 30 0 ≠ bits (b.rdN (Reg.FQ_CFG p f)) 30 0) ∨
          (b.feedOn p f = false ∧ w.feedOn p f = true ∧ b.feedBindOk p v.toNat = false)) →
        exec (.fqCfgWrite r p f v) s = .next (b.setFlag a Fld.FQ_STAT.CFG_REJ true))) ∧
    (Passes s r (Reg.FQ_ERR p f) v.toNat → ∃ t, exec (.fqErrClear r p f v) s = .next t ∧ t.rdN (Reg.FQ_ERR p f) = 0 ∧
      Only [.regs] (entered s r (Reg.FQ_ERR p f) v.toNat) t ∧ RegsBut [Reg.FQ_ERR p f] (entered s r (Reg.FQ_ERR p f) v.toNat) t)

/-- R358 to R360: PERST#, a hot reset or a surprise down starts the reset of a running port, whose drain ends 100 µs later with its contexts free and its
feed queues empty; a short pulse is only counted, and one held for 10 s is treated as released and reported; the reset of a function frees its own
contexts only. -/
def Obligations.PortsAndFunctionsReset : Prop :=
  ∀ (s : State) (p : HostIx) (fn : FnIx),
    let err := Reg.HP_PORT_ERR p
    let runs := s.portState p ≠ 0 ∧ s.portState p ≠ 3
    let down := fun (t : State) => t.portState p = 3 ∧ (t.port p).resetAt = s.now ∧ t.cells = s.cells ∧ t.hbm = s.hbm
    (∀ asserted, ∃ t, exec (.perstAssert p asserted true) s = .next t ∧ Only [.regs] s t ∧ RegsBut [err] s t ∧
      t.fld err Fld.HP_PORT_ERR.PERST_NARROW = min (s.fld err Fld.HP_PORT_ERR.PERST_NARROW + 1) 255) ∧
    (∃ t, exec (.perstAssert p false false) s = .next t ∧ Only [.ports] s t ∧ (t.port p).perst = false ∧ (t.port p).perstAt = 0) ∧
    ((s.port p).perstAt = 0 → runs → ∃ t, exec (.perstAssert p true false) s = .next t ∧ down t ∧ (t.port p).perst = true) ∧
    ((s.port p).perst = true → (s.port p).perstAt + 10000000000 < s.now →
      ∃ u, Only [.ports, .regs] s u ∧ (u.port p).perst = false ∧ u.flag err Fld.HP_PORT_ERR.PERST_STUCK = true ∧
        exec (.perstStuck p) s = .next (u.fault Src.PERST_STUCK panelScope p)) ∧
    (runs → ∃ t, exec (.portReset p false) s = .next t ∧ down t) ∧
    (runs → (s.port p).perst = false → ∃ u, down u ∧ u.flag err Fld.HP_PORT_ERR.SURPRISE = true ∧
      exec (.portReset p true) s = .next (u.fault Src.HP_SURPRISE panelScope p)) ∧
    (¬ runs → ∀ b, exec (.portReset p b) s = .next s) ∧
    (s.portState p = 3 → (s.port p).resetAt + 100000 ≤ s.now → ∃ t, exec (.portResetDrainEnd p) s = .next t ∧ t.portState p = 0 ∧
      (∀ k : Fin 64, t.qcState p k = Qc.FREE ∧ (s.qcState p k ≠ Qc.FREE → t.qc p k = { })) ∧ (∀ f : Fin 16, t.feedOf p f = { } ∧ t.feedOn p f = false) ∧ t.hbm = s.hbm) ∧
    (s.portState p = 3 → s.now < (s.port p).resetAt + 100000 → exec (.portResetDrainEnd p) s = .next s) ∧
    (s.portUp p = true → fn.val ≠ 0 → ∃ t, exec (.functionLevelReset p fn) s = .next t ∧ t.portUp p = true ∧ t.hbm = s.hbm ∧
      ∀ k : Fin 64, (s.qcOwner p k = fn.val → t.qcState p k = Qc.FREE) ∧
        (s.qcOwner p k ≠ fn.val → t.rd (Reg.HP_QCTX p k) = s.rd (Reg.HP_QCTX p k) ∧ t.qc p k = s.qc p k))

/-! ### Links, collectives and pairs (14_links_pairs_chains) -/

/-- R366, R370 to R374, R389, R390, R396, R398: a port with a module trains, and comes up, degraded or whole, unless the peer does not match, is expelled
or leaves no lane; one that loses lock, a lane or its peer holds its traffic, and goes down after 50 µs.
The model's own choices it rests on: log 50, 120, 125, 126, 165. -/
def Obligations.LinkPortsTrainHoldAndDrop : Prop :=
  ∀ (s : State) (r : Req) (p : LinkIx) (v : Word),
    let st := s.linkState p
    let l := s.link p
    let ps := Reg.LNK_PORT_STAT p
    (s.linkDie p = true → l.present = false → l.overpower = false → ∃ t, exec (.linkPresence p true) s = .next t ∧ Only [.links, .regs] s t ∧
      RegsBut [ps] s t ∧ t.linkState p = 1 ∧ (t.link p).present = true) ∧
    (s.linkDie p = true → l.present = true → ∃ t, exec (.linkPresence p false) s = .next t ∧ t.linkState p = 0 ∧ t.fld ps Fld.LNK_PORT_STAT.LANES = 0 ∧
      (t.link p).present = false ∧ t.hbm = s.hbm) ∧
    (∀ (failed : Fin 65536) (version : Fin 256) (panel : Fin 65536) (port : LinkIx) (delay : Fin 65536) (locked : Bool), s.linkDie p = true → l.present = true → (st = 1 ∨ st = 5) →
      let lanes := lanesOf failed
      let bad := s.linkMismatch p version panel port
      let barred := s.expelled panel = true ∨ s.expelled s.panelNo = true
      (locked = false → exec (.linkTrain p locked failed version panel port delay) s = .next (s.setLinkState p 1)) ∧
      (locked = true → ∃ t, exec (.linkTrain p locked failed version panel port delay) s = .next t ∧ t.hbm = s.hbm ∧ t.cells = s.cells ∧
        t.fld (Reg.LNK_PORT_PEER p) Fld.LNK_PORT_PEER.PANEL = panel ∧ t.fld (Reg.LNK_PORT_PEER p) Fld.LNK_PORT_PEER.MISMATCH = bad ∧
        (bad ≠ 0 → t.linkState p = 6) ∧ (bad = 0 → barred → t.linkState p = 7) ∧ (bad = 0 → ¬ barred → lanes = 0 → t.linkState p = 5) ∧
        (bad = 0 → ¬ barred → lanes ≠ 0 → t.linkState p = (if lanes = 16 then 2 else 3) ∧ t.fld ps Fld.LNK_PORT_STAT.LANES = lanes ∧
          t.fld (Reg.LNK_PORT_DELAY p) Fld.LNK_PORT_DELAY.DELAY = delay))) ∧
    (s.linkLive p = true → ∃ t, exec (.linkRetrain p) s = .next t ∧ Only [.links, .regs] s t ∧ RegsBut [ps] s t ∧ t.linkState p = 4 ∧ (t.link p).heldAt = s.now) ∧
    (Passes s r (Reg.LNK_PORT_CTRL p) v.toNat → bit v.toNat 0 = true → l.present = true →
      ∃ t, exec (.retrain r p v) s = .next t ∧ Only [.links, .regs] (entered s r (Reg.LNK_PORT_CTRL p) v.toNat) t ∧ t.linkState p = 1 ∧
        t.fld ps Fld.LNK_PORT_STAT.LANES = 0) ∧
    (∀ lane : Fin 16, (st = 2 ∨ st = 3) → bit l.failed lane = false →
      let mask := l.failed + 2 ^ lane.val
      ∃ t, exec (.linkLaneFail p lane) s = .next t ∧ t.hbm = s.hbm ∧ t.cells = s.cells ∧ (t.link p).failed = mask ∧
        (lanesOf mask ≠ 0 → t.linkState p = 4) ∧ (lanesOf mask = 0 → t.linkState p = 5)) ∧
    (∀ failed : Fin 65536, (st = 2 ∨ st = 3 ∨ st = 4) → l.noticed = false →
      let mask := Nat.lor l.failed failed
      ∃ t, exec (.linkWidthChange p failed) s = .next t ∧ t.hbm = s.hbm ∧ (t.link p).failed = mask ∧ (lanesOf mask = 0 → t.linkState p = 5) ∧
        (lanesOf mask ≠ 0 → t.linkState p = (if lanesOf mask = 16 then 2 else 3) ∧ t.fld ps Fld.LNK_PORT_STAT.LANES = lanesOf mask)) ∧
    (st = 4 → l.heldAt + 50000 ≤ s.now → ∃ t, exec (.linkHoldTimeout p) s = .next t ∧ t.linkState p = 5 ∧ t.hbm = s.hbm) ∧
    ((st = 1 ∨ (st = 4 ∧ s.now < l.heldAt + 50000)) → (∀ x ∈ l.wait, s.now < x.2 + 50000) →
      ∃ t, exec (.linkHoldTimeout p) s = .next t ∧ Only [.links] s t ∧ t.link p = l) ∧
    (∀ x s1, s.linkPop p (fun x => x.kind == 0x22) = some (x, s1) → s.linkLive p = true →
      ∃ t, exec (.resetNotice p) s = .next t ∧ Only [.linkIn, .links, .regs, .out] s t ∧ t.linkState p = 4 ∧ (t.link p).noticed = true ∧ t.linkIn = s1.linkIn) ∧
    (∀ (i : Fin 16), Passes s r (Reg.LNK_EXPEL i) v.toNat →
      let a := (entered s r (Reg.LNK_EXPEL i) v.toNat).plainWrite (Reg.LNK_EXPEL i) v.toNat
      ∃ t, exec (.expelClear r i v) s = .next t ∧ Only [.links, .regs] a t ∧ t.rd (Reg.LNK_EXPEL i) = a.rd (Reg.LNK_EXPEL i) ∧
        ((a.linkState p = 7 ∧ a.expelled (a.fld (Reg.LNK_PORT_PEER p) Fld.LNK_PORT_PEER.PANEL) = false ∧ a.expelled a.panelNo = false) → t.linkState p = 1) ∧
        (a.linkState p ≠ 7 → t.linkState p = a.linkState p)) ∧
    (∀ n : Fin 2, Passes s r (Reg.LNK_PORT_CNT p n) v.toNat → ∃ t, exec (.lnkPortCntClear r p n v) s = .next t ∧ t.rdN (Reg.LNK_PORT_CNT p n) = 0 ∧
      Only [.regs] (entered s r (Reg.LNK_PORT_CNT p n) v.toNat) t ∧ RegsBut [Reg.LNK_PORT_CNT p n] (entered s r (Reg.LNK_PORT_CNT p n) v.toNat) t) ∧
    (∀ i : Fin 16, Passes s r (Reg.LNK_REDIR i) v.toNat → ∃ t, exec (.lnkRedirClear r i v) s = .next t ∧ t.rdN (Reg.LNK_REDIR i) = 0 ∧
      Only [.regs] (entered s r (Reg.LNK_REDIR i) v.toNat) t ∧ RegsBut [Reg.LNK_REDIR i] (entered s r (Reg.LNK_REDIR i) v.toNat) t)

/-- R367 to R370, R377 to R379, R384, R389, R396: a packet that arrives whole and in order is acknowledged and taken, and any other is refused with a NAK,
on which the sender replays; what has arrived is routed by its FEID; a request without a reply ends with LINK_ABORT; a beat, a verdict and an adoption are
passed on.
The model's own choices it rests on: log 49, 51, 122, 123, 174. -/
def Obligations.LinkPacketsArriveAndAreRouted : Prop :=
  ∀ (s : State) (p : LinkIx),
    (∀ (ack : Fin 65536) (bad : Bool) (data : List Byte), s.linkLive p = true → byteAt data 0 ≠ 0 →
      let a := s.onLink p fun l => l.ack ack
      let seq := (s.link p).rxSeq
      let good := bad = false ∧ pktCrcOk data = true ∧ leAt data 2 2 = seq
      let x := pktOf data
      (good → pktOk data = true → x.kind ∉ [0x20, 0x3F, 0x30, 0x31, 0x32] → ∃ t, exec (.linkPacketRx p ack bad data) s = .next t ∧ Only [.links, .linkIn, .out] s t ∧
        t.linkIn = s.linkIn ++ [(p.val, x)] ∧ (t.link p).rxSeq = (seq + 1) % 65536 ∧ t.out = s.out ++ [.link p .flowAck [seq] []]) ∧
      (good → pktOk data = false → ∃ t, exec (.linkPacketRx p ack bad data) s = .next t ∧ Only [.links, .regs, .out] s t ∧ (t.link p).rxSeq = (seq + 1) % 65536 ∧
        t.fld (Reg.LNK_PORT_CNT p 1) Fld.LNK_PORT_CNT.BAD = min (s.fld (Reg.LNK_PORT_CNT p 1) Fld.LNK_PORT_CNT.BAD + 1) 65535) ∧
      (¬ good → exec (.linkPacketRx p ack bad data) s = .next (a.emit (.link p .nak [(seq + 65535) % 65536] [])))) ∧
    (∀ ack : Fin 65536, s.linkLive p = true → ∃ t, exec (.linkNakReplay p ack) s = .next t ∧ Only [.links, .regs, .out] s t ∧
      t.out = s.out ++ (((s.link p).ack ack).sent.map fun x => .link p (linkKind x) x.words x.data) ∧
      t.fld (Reg.LNK_PORT_CNT p 0) Fld.LNK_PORT_CNT.REPLAY = min (s.fld (Reg.LNK_PORT_CNT p 0) Fld.LNK_PORT_CNT.REPLAY + 1) 65535) ∧
    (∀ x s1, s.linkPop p (fun x => decide (1 ≤ x.kind ∧ x.kind ≤ 4)) = some (x, s1) → s.expelled (x.src / 256) = false →
      let goes := fun t => exec (.linkForward p) s = Host.Outcome.next t
      (∀ q, s1.feidRoute x.dst = .away q → goes (s1.linkSend q x)) ∧
      (∀ pos, s1.feidRoute x.dst = .here pos → x.request = true → goes (s1.linkServe x x.addr)) ∧
      (∀ pos, s1.feidRoute x.dst = .here pos → x.request = false → pos < 48 → goes (s1.emit (.hubDone pos x.status x.data))) ∧
      (∀ b, s1.feidRoute x.dst = .standIn b → x.request = true → goes (s1.linkServeFor b x)) ∧
      (s1.feidRoute x.dst = .barred → x.request = true → goes (s1.linkAnswer x St.LINK_ABORT [])) ∧
      (s1.feidRoute x.dst = .orphan → x.request = true → goes (s1.linkAnswer x St.TARGET_RESET [])) ∧
      (s1.feidRoute x.dst = .nowhere → x.request = true → goes (s1.linkAnswer x St.ADDR_UNMAPPED []))) ∧
    (∀ (e : EngIx) (q : QueueIx) (ix : Fin 65536) (f : Flight), s.flight e q ix = some f → s.flightFar f = true → f.open' = true → f.code = 0 →
      f.asked.headD f.since + 1000 * max 10 (s.fld Reg.LNK_TIMEOUT Fld.LNK_TIMEOUT.US) ≤ s.now →
      ∃ t, exec (.linkReqTimeout e q ix) s = .next t ∧ Only [.engines] s t ∧ EngsBut e s t ∧ t.flight e q ix = some { f with unacked := [], asked := [], code := St.LINK_ABORT }) ∧
    (let per := s.rdN Reg.CAD_BEAT_PERIOD
     s.linkLive p = true → s.linkPaired p = false → s.flag (Reg.LNK_PORT_CTRL p) Fld.LNK_PORT_CTRL.BEAT_TX = true → per ≠ 0 → (s.link p).beatMark < s.ticks / per →
      exec (.beatTx p) s = .next ((s.onLink p fun l => { l with beatMark := s.ticks / per }).linkSend p { kind := 0x20, data := leBytes 8 s.ticks })) ∧
    (∀ x s1, s.linkPop p (fun x => x.kind == 0x21) = some (x, s1) →
      (s.verdictSeen.contains (x.data.take 8) = false → ∃ t, exec (.verdictRx p) s = .next t ∧ t.verdictIn = s.verdictIn ++ [x.data] ∧
        x.data.take 8 ∈ t.verdictSeen ∧ t.hbm = s.hbm ∧ t.cells = s.cells) ∧
      (s.verdictSeen.contains (x.data.take 8) = true → exec (.verdictRx p) s = .next s1)) ∧
    (∀ x s1, s.linkPop p (fun x => x.kind == 0x23) = some (x, s1) →
      let w := leAt x.data 0 2 * 65536 + leAt x.data 2 2
      (∀ j : Fin 16, s.rdN (Reg.LNK_REDIR j) ≠ w) →
      (∀ i : Fin 16, (∀ j, j < i → s.rdN (Reg.LNK_REDIR j) ≠ 0) → s.rdN (Reg.LNK_REDIR i) = 0 →
        ∃ t, exec (.adopt p) s = .next t ∧ t.rdN (Reg.LNK_REDIR i) = w ∧ t.hbm = s.hbm ∧ t.cells = s.cells) ∧
      ((∀ j : Fin 16, s.rdN (Reg.LNK_REDIR j) ≠ 0) → exec (.adopt p) s = .next { s1 with adoptLost := s1.adoptLost + 1 }))

/-- R385 to R388, R398: a collective is armed by ENABLE within the horizon; a contribution is added word by word at its die, and every word that has all its
contributions goes to the parent or is the result; a result is written and passed to the children; an abort shows its cause and stops the collective, until
RESET arms it again.
The model's own choices it rests on: log 52, 121. -/
def Obligations.CollectivesCombineDeliverAndAbort : Prop :=
  ∀ (s : State) (r : Req) (c : Fin 64) (v : Word),
    let cfg := Reg.LNK_COLL_CFG c 0
    let stat := Reg.LNK_COLL_STAT c
    let live := fun (s : State) => s.collState c = 1 ∨ s.collState c = 2
    let ends := fun (cmd : Instr) (cause : Nat) => ∃ t, exec cmd s = .next t ∧ t.collState c = 3 ∧ t.fld stat Fld.LNK_COLL_STAT.CAUSE = cause ∧
      t.fld stat Fld.LNK_COLL_STAT.STEP = 0 ∧ t.hbm = s.hbm ∧ t.cells = s.cells
    (Passes s r cfg v.toNat →
      let a := entered s r cfg v.toNat
      (a.flag cfg Fld.LNK_COLL_CFG.ENABLE = false → bit v.toNat 31 = true → a.fld (Reg.LNK_COLL_CFG c 1) Fld.LNK_COLL_CFG.DIAMETER ≤ a.horizon →
        ∃ t, exec (.collEnable r c v) s = .next t ∧ Only [.regs] a t ∧ RegsBut [cfg, stat] a t ∧ t.rdN stat = 1 ∧ t.flag cfg Fld.LNK_COLL_CFG.ENABLE = true) ∧
      (a.flag cfg Fld.LNK_COLL_CFG.ENABLE = false → bit v.toNat 31 = true → a.horizon < a.fld (Reg.LNK_COLL_CFG c 1) Fld.LNK_COLL_CFG.DIAMETER →
        exec (.collEnable r c v) s = .next (a.setFlag Reg.LNK_FAULT Fld.LNK_FAULT.CFG_REJ true)) ∧
      (a.flag cfg Fld.LNK_COLL_CFG.ENABLE = true → bit v.toNat 31 = true → exec (.collEnable r c v) s = .next a)) ∧
    (∀ x rest, s.collIn = x :: rest → collOf x.addr = c.val → s.collDie c = x.die → live s →
      let s1 : State := { s with collIn := rest }
      exec (.collData none) s = .next (s1.collTake x.engine x.addr x.data)) ∧
    (∀ (p : LinkIx) x s1, s.linkPop p (fun x => x.kind == 0x10 && !bit x.aux 0) = some (x, s1) → exec (.collData (some p)) s = .next (s1.collTake none x.addr x.data)) ∧
    (∀ (addr : Nat) (bs : List Byte), collOf addr = c.val → live s → s.collBroadcast c = false → ((s.coll c).steps.any (·.step == stepOf addr) = true ∨ (s.coll c).steps.length < 2) →
      let old := ((s.coll c).steps.find? (·.step == stepOf addr)).getD ⟨stepOf addr, 0, [], 0⟩
      let words := (chunks 8 (bs.length / 8) bs).map fun w => BitVec.ofNat 64 (leNat w)
      ∀ y out, collAdd (s.collNeed c) { old with lastAt := s.now } (collOffset addr) words = (y, out, false) →
        s.collTake none addr bs = (collRuns out).foldl (fun s r => s.collOut c (stepOf addr) r)
          ((s.onColl c fun x => { x with steps := putStep y (s.collWords c) x.steps }).collShow c)) ∧
    (∀ (p : LinkIx) x s1, s.linkPop p (fun x => x.kind == 0x10 && bit x.aux 0) = some (x, s1) → collOf x.addr = c.val → live s → s.collParent c = p.val →
      exec (.collResult p) s = .next (s1.collDeliver c x.addr x.data)) ∧
    (live s → (s.coll c).due ≠ 0 → (s.coll c).due < 16 → ends (.collAbort c none) (s.coll c).due) ∧
    (∀ (q : LinkIx) x s1, s.linkPop q (fun x => x.kind == 0x11 && x.aux % 64 == c.val) = some (x, s1) → live s → ends (.collAbort c (some q)) 4) ∧
    (∀ x ∈ (s.coll c).steps, live s → x.lastAt + max 1 (s.fld Reg.LNK_CFG Fld.LNK_CFG.COLL_TIMEOUT) * 1000 ≤ s.now → ends (.collTimeout c) 3) ∧
    (Passes s r (Reg.LNK_COLL_CTRL c) v.toNat → bit v.toNat 1 = true → bit v.toNat 0 = false → live s → ends (.collAbortCmd r c v) 8) ∧
    (Passes s r (Reg.LNK_COLL_CTRL c) v.toNat → bit v.toNat 1 = false → bit v.toNat 0 = true →
      let a := entered s r (Reg.LNK_COLL_CTRL c) v.toNat
      a.flag cfg Fld.LNK_COLL_CFG.ENABLE = true → ∃ t, exec (.collReset r c v) s = .next t ∧ Only [.regs, .colls] a t ∧ RegsBut [stat] a t ∧ t.rdN stat = 1 ∧ t.coll c = { })

/-- R392 to R397: ENABLE forms the pair once both ports are up and the checks pass; the partner's blocks go into stand-in buffers, the stage or the mirror; a
commit makes the passes current and begins the apply, whose end reopens the mirror; the pair splits after 3 µs of silence, and takes over on PAIR_FAIL when it
is protected, or when it is told to in SPLIT.
The model's own choices it rests on: log 49, 118, 119, 124. -/
def Obligations.PairsMirrorCommitAndTakeOver : Prop :=
  ∀ (s : State) (r : Req) (v : Word),
    let ctl := Reg.LNK_PAIR_CTRL
    let stat := Reg.LNK_PAIR_STAT
    let formed := 2 ≤ s.pairState ∧ s.pairState ≤ 4
    let takes := fun (cmd : Instr) (b : State) => ∃ t, exec cmd s = .next t ∧ Only [.linkIn, .regs, .pair, .engines] b t ∧ t.pairState = 6 ∧ t.pair.passes = [] ∧ t.pair.stage = [] ∧
      (∀ x ∈ b.standIns, 48 + x.1 ∈ (t.eng x.2).notices) ∧ ∀ e, (∀ x ∈ b.standIns, x.2 ≠ e) → t.eng e = b.eng e
    (∀ partner : Partner, Passes s r ctl v.toNat → bit v.toNat 0 = true →
      let a := entered s r ctl v.toNat
      let b := (a.plainWrite ctl v.toNat).wr stat 1
      a.flag ctl Fld.LNK_PAIR_CTRL.ENABLE = false →
      ((s.linkLive 6 = false ∨ s.linkLive 7 = false) → exec (.pairEnable r v partner) s = .next b) ∧
      (s.linkLive 6 = true → s.linkLive 7 = true → b.pairCode partner = 0 → ∃ t, exec (.pairEnable r v partner) s = .next t ∧ Only [.regs, .pair] b t ∧ t.pairState = 2 ∧
        t.linkPaired 6 = true ∧ t.linkPaired 7 = true ∧ t.pair.partner = partner ∧ t.pair.seed = b.pairRanges ∧
        t.fld stat Fld.LNK_PAIR_STAT.PARTNER = b.fld (Reg.LNK_PORT_PEER 6) Fld.LNK_PORT_PEER.PANEL) ∧
      (s.linkLive 6 = true → s.linkLive 7 = true → b.pairCode partner ≠ 0 → ∃ t, exec (.pairEnable r v partner) s = .next t ∧ Only [.regs] b t ∧ t.pairState = 0 ∧
        t.fld stat Fld.LNK_PAIR_STAT.CODE = b.pairCode partner ∧ t.flag Reg.LNK_FAULT Fld.LNK_FAULT.CFG_REJ = true)) ∧
    (Passes s r ctl v.toNat → bit v.toNat 0 = true → bit v.toNat 1 = true →
      let a := entered s r ctl v.toNat
      a.flag ctl Fld.LNK_PAIR_CTRL.ENABLE = true → a.pairState = 5 → takes (.takeover r v) (a.plainWrite ctl v.toNat)) ∧
    (∀ (p : LinkIx) x s1, s.linkPop p (fun x => x.kind == 0x32 && bit x.aux 0) = some (x, s1) →
      (s.pairState = 3 → takes (.pairFail p) s1) ∧
      ((s.pairState = 2 ∨ s.pairState = 4) → ∃ u, u.flag Reg.LNK_FAULT Fld.LNK_FAULT.PAIR_UNPROTECTED = true ∧ Only [.regs] s1 u ∧ RegsBut [Reg.LNK_FAULT] s1 u ∧
        exec (.pairFail p) s = .next (u.fault Src.PAIR_UNPROTECTED panelScope 0))) ∧
    (formed → s.pair.heard + 3000 ≤ s.now → ∃ u, u.pairState = 5 ∧ u.flag Reg.LNK_FAULT Fld.LNK_FAULT.PAIR_SPLIT = true ∧ Only [.regs] s u ∧
      RegsBut [stat, Reg.LNK_FAULT] s u ∧ exec .pairSplit s = .next (u.fault Src.PAIR_SPLIT panelScope 0)) ∧
    (2 ≤ s.pairState → s.pair.beatAt + 1000 ≤ s.now → ∃ t, exec .pairBeat s = .next t ∧ t.pair.beatAt = s.now ∧
      Only ([.pair, .freeCtr, .cells] ++ faultParts) s t) ∧
    (∀ data : Vector Byte 4096, formed → (s.linkLive 6 = true ∨ s.linkLive 7 = true) →
      (∀ b m, s.mirrorOf (b.val * 4096) = some m → exec (.mirror (.seed b) data) s = .next (s.writeRange m data.toList)) ∧
      (∀ e b (i : Fin 16384), s.standIns.find? (fun p => p.1 == e.val) = some (e.val, b) → s.pair.apply = [] → i.val * 4096 + 4096 ≤ varnishLenOf (s.stbyBody b) →
        ∃ t, exec (.mirror (.standin e i) data) s = .next t ∧ e.val ∈ t.pair.passes ∧
          t.hbm = (s.writeRange (nearBase b + s.bufferAt b 0 (s.standInBuffer e b) + i.val * 4096) data.toList).hbm ∧ Only ([.pair, .hbm, .cells] ++ faultParts) s t) ∧
      (∀ j b, s.pair.apply = [] → j.val < s.stageBlocks → ∃ t, exec (.mirror (.stage j b) data) s = .next t ∧ SMap.find? t.pair.stage j = some b.val ∧
        Only ([.pair, .hbm, .cells] ++ faultParts) s t)) ∧
    (∀ (period : Word) (copied : Bool), formed → s.pair.apply = [] → ∃ t, exec (.pairCommit period copied) s = .next t ∧ Only [.regs, .engines, .pair] s t ∧
      t.pair = { s.pair with passes := [], apply := s.pair.stage, stage := [] } ∧
      (copied = true → s.pairState = 2 → t.pairState = 3) ∧ ((copied = false ∨ s.pairState ≠ 2) → t.pairState = s.pairState) ∧
      ∀ x ∈ s.standIns, s.pair.passes.contains x.1 = true → s.cvState x.2 = Cv.STANDBY →
        SMap.find? (t.eng x.2).commits (48 + x.1) = some ⟨s.standInBuffer x.1 x.2, period.toNat⟩) ∧
    (s.pair.apply ≠ [] → ∃ t, exec .pairApplyDone s = .next t ∧ t.pair.apply = [] ∧
      t.hbm = (s.pair.apply.foldl (fun s x => s.applyEntry x) s).hbm ∧
      Only ([.pair, .hbm, .freeCtr, .cells] ++ faultParts) s t)

/-! ### Sekaen ports and guest sites (15_sekaen_guest_sites) -/

/-- R401 to R416: a Sekaen port trains on the lanes that neither fail nor are listed, repairs or narrows in service, and takes its die or its crossing with
it when it goes down; a guest is powered when it is present and has a record, is admitted once it qualifies, reaches what its partitions allow, and answers in
time or not at all.
The model's own choices it rests on: log 51, 53, 54, 55. -/
def Obligations.GuestSitesAndSekaenPorts : Prop :=
  ∀ (s : State) (r : Req) (g : SiteIx) (v : Word),
    let st := Reg.SK_GUEST_STAT g
    let err := Reg.SK_GUEST_ERR g
    let ctl := Reg.SK_GUEST_CTRL g
    let at' := fun (x : Nat) => entered s r ctl x
    let clear := fun (x : Nat) (bs : List Nat) => ∀ b ∈ bs, bit x b = false
    let same := fun (a t : State) => Only [.regs, .capture, .gapEvents, .annUp, .annDown, .guestHeld, .out] a t ∧ RegsBut [st, Reg.LOG_STAT] a t
    let off := fun (u : State) => u.guestFlag g Fld.SK_GUEST_STAT.POWERED = false ∧ u.guestFlag g Fld.SK_GUEST_STAT.QUALIFIED = false ∧
      u.guestFlag g Fld.SK_GUEST_STAT.ADMITTED = false ∧ u.guestFlag g Fld.SK_GUEST_STAT.IN_RESET = true ∧ u.rdN (Reg.SK_GUEST_PORT g 0) = 0 ∧
      u.rdN (Reg.SK_GUEST_PORT g 1) = 0 ∧ u.out = s.out ++ [.pin (.guestReset g) true, .pin (.guestPower g) false] ∧ (s.guestLive g = true → 60 + g.val ∈ u.annDown) ∧
      Only [.regs, .capture, .gapEvents, .annUp, .annDown, .out] s u
    -- training
    (∀ (port : SkPort) (failed : List (Fin 16 × Fin 64)) (record : Vector Byte 32), s.skMayTrain port = true →
      ∃ t, exec (.skLinkUp port failed record) s = .next t ∧
        (∀ (m : Fin 16) (i : Fin 64), bit (t.skMask port m) i = true ↔ ((m, i) ∈ failed ∨ (m.val, i.val) ∈ s.skListed port)) ∧
        (∀ e n, port = .die e n → Only [.regs, .skFail, .engines] s t ∧ RegsBut [skReg port] s t ∧ EngsBut e s t ∧
          let w := skWidth ((t.skCounts port).filter fun c => decide (c ≤ 4)).length
          t.fld (skReg port) Fld.SK_PORT.WIDTH = w ∧
          t.fld (skReg port) Fld.SK_PORT.STATE = (if capsOk record.toList = false then 3 else if w = 4 then 0 else 1))) ∧
    -- lanes that fail in service
    (∀ (e : EngIx) (n : Fin 14) (m : Fin 16) (lane : Fin 64), s.fld (Reg.SK_PORT e n) Fld.SK_PORT.STATE = 1 → bit (s.skMask (.die e n) m) lane = false →
      ∃ u, let w := max (s.fld (Reg.SK_PORT e n) Fld.SK_PORT.WIDTH) (skWidth ((u.skCounts (.die e n)).filter fun c => decide (c ≤ 4)).length)
        bit (u.skMask (.die e n) m) lane = true ∧ u.fld (Reg.SK_PORT e n) Fld.SK_PORT.WIDTH = w ∧ u.defectQ = s.defectQ ++ [skDefect (.die e n) m lane 2] ∧
        Only [.regs, .skFail, .defectQ] s u ∧ RegsBut [Reg.SK_PORT e n] s u ∧
        (w ≠ 4 → exec (.skLaneFail (.die e n) m lane) s = .next (u.fault Src.SK_LANE_FAIL e n)) ∧
        (w = 4 → exec (.skLaneFail (.die e n) m lane) s = .next ((u.fault Src.SK_LANE_FAIL e n).skDown e n))) ∧
    (∀ (e : EngIx) (n : Fin 14), s.fld (Reg.SK_PORT e n) Fld.SK_PORT.STATE = 1 →
      ∃ u, u.fld (Reg.SK_PORT e n) Fld.SK_PORT.WIDTH = 4 ∧ u.fld (Reg.SK_PORT e n) Fld.SK_PORT.STATE = 0 ∧ Only [.regs, .defectQ] s u ∧
        (n.val < 10 → u.defectQ = s.defectQ ++ [⟨0x10, e, n / 2, 0, 2⟩]) ∧
        (n.val < 10 → (s.dieAt e (n / 2)).isSome = true → exec (.skPortDown e n) s = .next (u.fault Src.SK_HUB_PORT_DOWN e n)) ∧
        (n.val < 10 → s.dieAt e (n / 2) = none → exec (.skPortDown e n) s = .next u) ∧
        (10 ≤ n.val → exec (.skPortDown e n) s = .next (u.fault Src.SK_XING_DOWN e n)) ∧
        (10 ≤ n.val → ∀ a, s.dieAt e (n - 10) = some a → s.dieAt e (n - 10 + 1) = some (a + 1) →
          u.flag (Reg.FAB_XING e (n - 10) 1) Fld.FAB_XING.VIA_HUB = true ∧ u.flag (Reg.FAB_XING e (n - 10 + 1) 0) Fld.FAB_XING.VIA_HUB = true)) ∧
    -- presence and power
    (s.guestFlag g Fld.SK_GUEST_STAT.PRESENT = false → s.guestFlag g Fld.SK_GUEST_STAT.POWERED = false →
      (s.boot.link = true → ∀ q, SMap.find? s.flash.quals g = some q → ∃ t, exec (.guestPresence g true) s = .next t ∧ Only [.regs, .out] s t ∧
        RegsBut [st, Reg.SK_GUEST_PWR g] s t ∧ t.guestFlag g Fld.SK_GUEST_STAT.PRESENT = true ∧ t.guestFlag g Fld.SK_GUEST_STAT.POWERED = true ∧
        t.fld (Reg.SK_GUEST_PWR g) Fld.SK_GUEST_PWR.MV5 = byteAt q 5 % 128 ∧ t.guestFlag g Fld.SK_GUEST_STAT.IN_RESET = s.guestHeld.contains g.val) ∧
      (SMap.find? s.flash.quals g = none → ∃ t, exec (.guestPresence g true) s = .next t ∧ Only [.regs] s t ∧ RegsBut [st] s t ∧
        t.guestFlag g Fld.SK_GUEST_STAT.PRESENT = true ∧ t.guestFlag g Fld.SK_GUEST_STAT.POWERED = false)) ∧
    (s.guestFlag g Fld.SK_GUEST_STAT.PRESENT = true → s.guestFlag g Fld.SK_GUEST_STAT.POWERED = true →
      ∃ t, exec (.guestPresence g false) s = .next t ∧ off t ∧ t.guestFlag g Fld.SK_GUEST_STAT.PRESENT = false) ∧
    (s.guestFlag g Fld.SK_GUEST_STAT.POWERED = true → ∃ u, off u ∧ u.flag err Fld.SK_GUEST_ERR.GUEST_TRIP = true ∧
      exec (.guestTrip g) s = .next (u.fault Src.GUEST_TRIP panelScope 0)) ∧
    -- admission, reset and error flags
    (let x := putBits v.toNat 0 0 1
     Passes s r ctl x → clear x [1, 2, 3] → (at' x).guestFlag g Fld.SK_GUEST_STAT.ADMITTED = false →
      ((at' x).guestFlag g Fld.SK_GUEST_STAT.QUALIFIED = true → ∃ t, exec (.admitSite r g v) s = .next t ∧ same (at' x) t ∧
        t.guestFlag g Fld.SK_GUEST_STAT.ADMITTED = true ∧ (t.guestLive g = true → 60 + g.val ∈ t.annUp)) ∧
      ((at' x).guestFlag g Fld.SK_GUEST_STAT.QUALIFIED = false → exec (.admitSite r g v) s = .next (at' x))) ∧
    (let x := putBits v.toNat 3 3 1
     Passes s r ctl x → clear x [0, 1, 2] → (at' x).guestFlag g Fld.SK_GUEST_STAT.ADMITTED = true → ∃ t, exec (.revoke r g v) s = .next t ∧
      same (at' x) t ∧ t.guestFlag g Fld.SK_GUEST_STAT.ADMITTED = false ∧ ((at' x).guestLive g = true → 60 + g.val ∈ t.annDown)) ∧
    (let x := putBits v.toNat 1 1 1
     Passes s r ctl x → clear x [0, 2, 3] → ∃ t, exec (.guestReset r g v) s = .next t ∧ same (at' x) t ∧ g.val ∈ t.guestHeld ∧
      t.guestFlag g Fld.SK_GUEST_STAT.IN_RESET = true ∧ t.out = s.out ++ [.pin (.guestReset g) true] ∧ ((at' x).guestLive g = true → 60 + g.val ∈ t.annDown)) ∧
    (let x := putBits v.toNat 2 2 1
     Passes s r ctl x → clear x [0, 1, 3] → g.val ∈ s.guestHeld → s.guestFlag g Fld.SK_GUEST_STAT.POWERED = true → ∃ t, exec (.release r g v) s = .next t ∧
      same (at' x) t ∧ t.guestHeld = s.guestHeld.erase g.val ∧ t.guestFlag g Fld.SK_GUEST_STAT.IN_RESET = false ∧ t.out = s.out ++ [.pin (.guestReset g) false]) ∧
    (Passes s r err v.toNat → ∃ t, exec (.skGuestErrClear r g v) s = .next t ∧ Only [.regs] (entered s r err v.toNat) t ∧
      RegsBut [err] (entered s r err v.toNat) t ∧ t.fld err Fld.SK_GUEST_ERR.BAD = 0 ∧
      ∀ n, 29 ≤ n → n ≤ 31 → bit (t.rdN err) n = (bit (s.rdN err) n && !bit v.toNat n)) ∧
    -- what a guest sends
    (∀ (edge : Bool) (data : List Byte), s.guestLive g = true → s.fld (Reg.SK_GUEST_PORT g (b2n edge)) Fld.SK_PORT.STATE = 1 →
      let x := pktOf data
      let goes := fun t => exec (.guestPacket g edge data) s = Host.Outcome.next t
      (guestPktOk data = false → ∃ t, goes t ∧ Only [.regs] s t ∧ RegsBut [err] s t ∧
        t.fld err Fld.SK_GUEST_ERR.BAD = min (s.fld err Fld.SK_GUEST_ERR.BAD + 1) 65535) ∧
      (guestPktOk data = true → x.request = true → edge = true → s.posDown (guestEngine g) = true → goes (s.guestReply g edge x St.TARGET_RESET [])) ∧
      (guestPktOk data = true → x.request = true → edge = false →
        let n := if x.kind = 1 then x.aux % 8192 else x.data.length
        (∀ p, s.feidRoute x.dst = .away p → goes (s.linkSend p x)) ∧
        (∀ pos, s.feidRoute x.dst = .here pos →
          (s.guestMay g x.addr n ≠ St.OK → goes (s.guestReply g edge x (s.guestMay g x.addr n) [])) ∧
          (∀ t j o, s.guestMay g x.addr n = St.OK → s.target x.addr = .spread t j o →
            (x.kind = 1 → ∃ s1 c bs, s.memRead x.addr n none = (s1, c, bs) ∧ goes (s1.guestReply g edge x c bs)) ∧
            (x.kind ≠ 1 → bit x.aux 0 = false → ∃ s1 c, s.memWrite x.addr x.data none = (s1, c) ∧ goes (s1.guestReply g edge x c []))))) ∧
      (guestPktOk data = true → x.request = false → ∀ w, s.guestWaits.find? (fun w => w.site == g.val && w.tag == x.tag) = some w → ∀ e, w.who = .engine e →
        ∃ t, goes t ∧ Only [.guestWaits, .out] s t ∧ t.guestWaits = s.guestWaits.erase w ∧ t.out = s.out ++ [.hubDone e x.status x.data])) ∧
    -- the guest window
    (∀ (e : EngIx) (o : Fin 0x4000000000) (n : Fin 4097), s.engineUp e = true → n.val ≠ 0 →
      (s.guestReach g o n (s.partId e) ≠ St.OK → exec (.guestWindowRequest g e o n none) s = .next (s.emit (.hubDone e (s.guestReach g o n (s.partId e)) []))) ∧
      (s.guestReach g o n (s.partId e) = St.OK → ∃ t, exec (.guestWindowRequest g e o n none) s = .next t ∧ Only [.guestWaits, .guestTag, .out] s t ∧
        t.guestWaits = s.guestWaits ++ [⟨g, s.guestTag, s.now, .engine e⟩] ∧ t.guestTag = (s.guestTag + 1) % 65536 ∧
        t.out = s.out ++ [.guest g [1, o, n, s.guestTag] []])) ∧
    (∀ w, s.guestWaits.find? (fun w => w.site == g.val) = some w → w.since + 1000 * max 1 (s.fld (Reg.SK_GUEST_TIMEOUT g) Fld.SK_GUEST_TIMEOUT.US) ≤ s.now →
      ∀ e, w.who = .engine e → ∃ u, u.guestWaits = s.guestWaits.erase w ∧ u.out = s.out ++ [.hubDone e St.TARGET_RESET []] ∧
        u.flag err Fld.SK_GUEST_ERR.GUEST_TIMEOUT = true ∧ Only [.guestWaits, .out, .regs] s u ∧ RegsBut [err] s u ∧
        exec (.guestTimeout g) s = .next (u.fault Src.GUEST_TIMEOUT panelScope 0))

/-! ### Power (16_power) -/

/-- R422, R423, R426 to R429, R431, R432, R433, R439: the set point follows the lowest reading; stages and phases that fail are counted, listed and limit or
stop the engine; a breaker that opens leaves its engine dark and counts towards a latched breaker; the input is sampled every microsecond.
R430, R434 to R437: above a limit throttle levels rise, and with 1 kW to spare they fall; an ON takes a reservation or is refused, and waits for one of six
ramp slots; a ramp of 250 µs pauses while its bus is low, and is abandoned after 5 ms of pauses; an OFF ends it all.
The model's own choices it rests on: log 56, 57, 58, 59, 127, 128, 130. -/
def Obligations.PowerStatesLimitsAndInput : Prop :=
  (∀ (s : State) (e : EngIx),
      let dark := fun (t : State) => t.engState e = 7 ∧ (∀ p ∈ t.cells, p.1 / 4096 ≠ e.val) ∧ (∀ p ∈ t.fabs, p.1 / 4 ≠ e.val) ∧
        (∀ a, e.val * 2 ^ 37 ≤ a → a < (e.val + 1) * 2 ^ 37 → Memory.read t.hbm a = Memory.unlisted) ∧
        (∀ a, (a < e.val * 2 ^ 37 ∨ (e.val + 1) * 2 ^ 37 ≤ a) → Memory.read t.hbm a = Memory.read s.hbm a)
      let trips := s.fld (Reg.PWR_ENG_BRK e) Fld.PWR_ENG_BRK.TRIPS
      let tripped := fun (t : State) (cause : Nat) => dark t ∧ t.pwr e = (if 1 ≤ trips then 6 else 5) ∧ t.flag (Reg.PWR_ENG_BRK e) Fld.PWR_ENG_BRK.TRIP = true ∧
        t.fld (Reg.PWR_ENG_BRK e) Fld.PWR_ENG_BRK.CAUSE = cause ∧ t.fld (Reg.PWR_ENG_BRK e) Fld.PWR_ENG_BRK.TRIPS = min (trips + 1) 255 ∧
        t.flag (Reg.PWR_ENG_BRK e) Fld.PWR_ENG_BRK.LATCHED = decide (1 ≤ trips) ∧ t.flag Reg.PWR_FAULT Fld.PWR_FAULT.BRK_TRIP = true
      (∀ (min' : Fin 2048) (die : Fin 6), s.pwr e = 4 →
        let a := Reg.PWR_ENG_VSET e
        let target := 680 + 5 * Nat.min 20 (s.fld (Reg.PWR_ENG_VLOGIC e) Fld.PWR_ENG_VLOGIC.STEP)
        let v := s.fld a Fld.PWR_ENG_VSET.VSET
        ∃ t, exec (.vstageUpdate e min' die) s = .next t ∧ Only [.regs, .engines] s t ∧ RegsBut [a] s t ∧ EngsBut e s t ∧
          t.fld a Fld.PWR_ENG_VSET.MIN = min' ∧ t.fld a Fld.PWR_ENG_VSET.DIE = die ∧
          (min'.val + 10 < target → t.fld a Fld.PWR_ENG_VSET.VSET = Nat.min 1100 (v + 10) ∧ (t.eng e).sup.high = 0) ∧
          (target ≤ min'.val + 10 → min'.val ≤ target + 20 → t.fld a Fld.PWR_ENG_VSET.VSET = v ∧ (t.eng e).sup.high = 0) ∧
          (target + 20 < min'.val → (s.eng e).sup.high < 7 → t.fld a Fld.PWR_ENG_VSET.VSET = v ∧ (t.eng e).sup.high = (s.eng e).sup.high + 1) ∧
          (target + 20 < min'.val → 7 ≤ (s.eng e).sup.high → t.fld a Fld.PWR_ENG_VSET.VSET = max 980 (v - 5) ∧ (t.eng e).sup.high = 0)) ∧
      (∀ (die : Fin 6) (stage : Fin 24), s.supplied e = true → (die.val = 5 ∨ (s.dieAt e die).isSome = true ∨ s.engState e < 5) → (die.val = 5 → stage.val < 16) →
        s.listed 6 e die stage = false →
        let n := s.stagesLost e die + 1
        ∃ u, Only [.regs, .stages, .defectQ] s u ∧ RegsBut [Reg.PWR_ENG_REG e, Reg.PWR_FAULT] s u ∧ u.stagesLost e die = n ∧
          (n < 32 → u.fld (Reg.PWR_ENG_REG e) (regField die) = n) ∧ u.defectQ = s.defectQ ++ [⟨6, e, die, stage, 2⟩] ∧
          u.flag Reg.PWR_FAULT Fld.PWR_FAULT.REG_LOSS = true ∧
          (n ≠ 7 → exec (.regStageFail e die stage) s = .next ((u.fault Src.REG_LOSS e 0).throttleShow e)) ∧
          (n = 7 → s.pwr e = 4 → exec (.regStageFail e die stage) s = .next (((u.fault Src.REG_LOSS e 0).throttleShow e).stageOut e die))) ∧
      (s.clockCap e = min (stageCap (s.worstStages e)) (levelCap (s.throttleOf e)) ∧ (s.throttleShow e).fld (Reg.PWR_ENG_PHASE e) Fld.PWR_ENG_PHASE.CAP = s.clockCap e ∧
        [0, 3, 4, 5, 6].map stageCap = [940, 940, 912, 884, 855]) ∧
      (∀ phase : Fin 16, s.mode = 0 → s.supplied e = true → bit (s.eng e).sup.badPhases phase = false →
        (∃ u, Only [.regs, .engines, .defectQ] s u ∧ EngsBut e s u ∧ RegsBut [Reg.PWR_ENG_PHASE e, Reg.PWR_FAULT] s u ∧ u.phases e = s.phases e - 1 ∧
          bit (u.eng e).sup.badPhases phase = true ∧ u.defectQ = s.defectQ ++ [⟨7, e, 0, phase, 2⟩] ∧ u.flag Reg.PWR_FAULT Fld.PWR_FAULT.REG_LOSS = true ∧
          ((s.pwr e ≠ 4 ∨ 13 ≤ s.phases e) → exec (.phaseFail e phase) s = .next (u.fault Src.REG_LOSS e 0))) ∧
        (s.pwr e = 4 → s.phases e < 13 → ∃ t, exec (.phaseFail e phase) s = .next t ∧ tripped t 4)) ∧
      (∀ cause : Fin 3, s.supplied e = true → ∃ t, exec (.breakerTrip e cause) s = .next t ∧ tripped t (cause + 1)) ∧
      (∀ (dv amps : Fin 65536) (draws : List (Fin 65536 × Fin 65536)) (buses : Vector (Fin 65536) 9) (edge : Fin 65536), s.boot.link = true →
        let p := dv.val * amps.val / 10
        ∃ t, exec (.inputSample dv amps draws buses edge) s = .next t ∧
          (∀ i x, i < 48 → draws[i]? = some x → t.rdN (Reg.PWR_ENG_DRAW i) = x.1.val * 65536 + x.2.val) ∧
          t.input.okSince = sinceWhen s.input.okSince s.now (decide (t.fld Reg.PWR_BUDGET Fld.PWR_BUDGET.DRAW + 1000 ≤ t.limitNow)) ∧
          (s.mode = 0 → t.rdN Reg.PWR_INPUT = amps.val * 65536 + dv.val ∧ t.rdN Reg.PWR_LIMIT = min 52000 (dv.val * 105) * 65536 + 46000 ∧
            t.input.peak = min 120000000 (s.input.peak + 46000 - p) ∧ t.input.band = inputBand dv ∧ t.input.volts = (s.input.volts ++ [dv.val]).drop (s.input.volts.length + 1 - 1000) ∧
            t.input.lowSince = sinceWhen s.input.lowSince s.now (decide (dv.val < 400)) ∧
            t.input.badSince = sinceWhen s.input.badSince s.now (decide (dv.val < 400 ∨ 580 < dv.val)) ∧ (p < 65536 → t.fld Reg.PWR_BUDGET Fld.PWR_BUDGET.DRAW = p) ∧
            (inputBand dv = s.input.band → Only [.regs, .input, .links, .out] s t) ∧
            (inputBand dv ≠ s.input.band → (inputBand dv = 1 → t.flag Reg.PWR_FAULT Fld.PWR_FAULT.INPUT_LOW = true) ∧
              (inputBand dv = 2 → t.flag Reg.PWR_FAULT Fld.PWR_FAULT.INPUT_HIGH = true))) ∧
          (s.mode ≠ 0 → Only [.regs, .input] s t ∧
            t.fld Reg.PWR_BUDGET Fld.PWR_BUDGET.DRAW = min 65535 (((draws.take 48).map fun x => x.2.val).sum + edge.val))) ∧
      (s.boot.link = true → ∃ u, u.flag Reg.PWR_FAULT Fld.PWR_FAULT.EDGE_UV = true ∧ Only [.regs] s u ∧ RegsBut [Reg.PWR_FAULT] s u ∧
        exec .edgeUv s = .next (u.fault Src.EDGE_UV panelScope 0))) ∧
  (∀ (s : State) (r : Req) (e : EngIx) (v : Word),
      let sup := (s.eng e).sup
      let ramp := fun (cmd : Instr) (pw : Nat) (x : Supply) => ∃ t, exec cmd s = .next t ∧ Only [.regs, .engines] s t ∧ RegsBut [Reg.PWR_ENG_STAT e] s t ∧
        EngsBut e s t ∧ t.pwr e = pw ∧ t.eng e = { s.eng e with sup := x }
      (let up := s.overLimit = true ∨ ((List.range 48).any fun i => s.overPhases i) = true
       (up → s.input.throttleAt + 10000 ≤ s.now → ∃ u, Only [.regs, .engines, .input] s u ∧ u.input.throttleAt = s.now ∧
          u.flag Reg.PWR_FAULT Fld.PWR_FAULT.THROTTLE = true ∧
          (∀ i, i ∈ s.throttleUp → (u.eng i).sup.throttle = min 8 ((s.eng i).sup.throttle + 1)) ∧ (∀ i, i ∉ s.throttleUp → u.eng i = s.eng i) ∧
          exec .throttleStep s = .next (u.fault Src.THROTTLE panelScope 0)) ∧
       (¬ up → ∀ ok, s.input.okSince = some ok → ok + 100000 ≤ s.now → s.input.throttleAt + 100000 ≤ s.now →
          ∃ t, exec .throttleStep s = .next t ∧ Only [.regs, .engines, .input] s t ∧ t.input.throttleAt = s.now ∧
            ∀ i, i < 48 → (t.eng i).sup.throttle = (s.eng i).sup.throttle - 1)) ∧
      (let x := putBits v.toNat 0 0 1
       let a := entered s r (Reg.PWR_ENG_CTRL e) x
       Passes s r (Reg.PWR_ENG_CTRL e) x → bit v.toNat 1 = false →
        (a.onCode e = 0 → ∃ t, exec (.on r e v) s = .next t ∧ Only [.regs, .engines, .rampQ] a t ∧ RegsBut [Reg.PWR_ENG_STAT e, Reg.PNL_ENG_STATE e] a t ∧
          EngsBut e a t ∧ t.pwr e = 1 ∧ t.engState e = 1 ∧ t.fld (Reg.PWR_ENG_STAT e) Fld.PWR_ENG_STAT.CODE = 0 ∧ t.rampQ = a.rampQ ++ [e.val] ∧
          (t.eng e).contained = false ∧ (t.eng e).sup.from' = s.now ∧ (t.eng e).sup.stage = 0) ∧
        (a.onCode e ≠ 0 → ∃ t, exec (.on r e v) s = .next t ∧ Only [.regs] a t ∧ RegsBut [Reg.PWR_ENG_STAT e] a t ∧ t.pwr e = a.pwr e ∧
          t.fld (Reg.PWR_ENG_STAT e) Fld.PWR_ENG_STAT.CODE = a.onCode e)) ∧
      (s.pwr e = 6 → s.onCode e = 2) ∧ (s.pwr e ≠ 6 → s.engState e = 8 → s.onCode e = 3) ∧
      (s.engState e ≠ 8 → s.halted = false → s.boot.mrstAt = none → (s.partOf e).isSome = true →
        ((1 ≤ s.pwr e ∧ s.pwr e ≤ 4) → s.onCode e = 4) ∧
        ((s.pwr e = 0 ∨ s.pwr e = 5) → s.onCode e = (if s.availWatts < s.heldWatts + s.resOf e then 1 else 0))) ∧
      (let x := putBits v.toNat 1 1 1
       let a := entered s r (Reg.PWR_ENG_CTRL e) x
       Passes s r (Reg.PWR_ENG_CTRL e) x → bit v.toNat 0 = false → 1 ≤ s.pwr e → s.pwr e ≤ 4 →
        ∃ t, exec (.off r e v) s = .next t ∧ t.pwr e = 0 ∧ (s.engState e ≠ 8 → t.engState e = 0) ∧ (t.eng e).contained = false  ∧ t.rampQ = s.rampQ.erase e.val ∧
          (∀ p ∈ t.cells, p.1 / 4096 ≠ e.val) ∧
          Only [.regs, .hbm, .engines, .cells, .fabs, .cellParity, .armCopies, .capture, .gapEvents, .annDown, .annUp, .packets, .colls, .rampQ, .boot] a t) ∧
      ((s.rampQ.find? fun i => !s.coolWait i) = some e.val → ((List.range 48).filter fun i => s.pwr i == 2 || s.pwr i == 3).length < 6 →
        ∃ t, exec (.rampStart e) s = .next t ∧ Only [.regs, .engines, .rampQ] s t ∧ RegsBut [Reg.PWR_ENG_STAT e] s t ∧ EngsBut e s t ∧ t.pwr e = 2 ∧
          t.rampQ = s.rampQ.erase e.val ∧ t.eng e = { s.eng e with sup := { sup with since := s.now, ramped := 0, paused := 0 } }) ∧
      (∀ mv : Fin 65536, s.pwr e = 2 → mv.val < (if s.mode = 0 then 5700 else 1030) →
        ramp (.rampPause e mv) 3 { sup with ramped := sup.ramped + (s.now - sup.since), since := s.now, busOk := none }) ∧
      (∀ mv : Fin 65536, s.pwr e = 3 → sup.paused + (s.now - sup.since) < 5000000 →
        let go := { sup with paused := sup.paused + (s.now - sup.since), since := s.now, busOk := none }
        (s.mode = 0 → 5850 ≤ mv.val → sup.busOk = none → ramp (.rampResume e mv) 3 { sup with busOk := some s.now }) ∧
        (s.mode = 0 → 5850 ≤ mv.val → ∀ since, sup.busOk = some since → since + 10000 ≤ s.now → ramp (.rampResume e mv) 2 go) ∧
        (s.mode = 0 → mv.val < 5850 → ramp (.rampResume e mv) 3 { sup with busOk := none }) ∧
        (s.mode ≠ 0 → 1030 ≤ mv.val → ramp (.rampResume e mv) 2 go)) ∧
      (s.pwr e = 3 → 5000000 ≤ sup.paused + (s.now - sup.since) → ∃ t, exec (.rampAbort e) s = .next t ∧ t.pwr e = 0 ∧
        t.fld (Reg.PWR_ENG_STAT e) Fld.PWR_ENG_STAT.CODE = 5 ∧ t.fld (Reg.PNL_ENG_STATE e) Fld.PNL_ENG_STATE.RESULT = 2 ∧
        t.flag Reg.PWR_FAULT Fld.PWR_FAULT.RAMP_ABORT = true) ∧
      (s.pwr e = 2 → 250000 ≤ sup.ramped + (s.now - sup.since) → sup.late = [] → (s.mode ≠ 0 ∨ 12 ≤ s.phases e) →
        ∃ t, exec (.rampDone e) s = .next t ∧ Only [.regs, .engines, .boot, .capture, .gapEvents] s t ∧ EngsBut e s t ∧ t.pwr e = 4 ∧
          t.engState e = (if s.supervisedNow e then 10 else 2) ∧ t.fld (Reg.PWR_ENG_VSET e) Fld.PWR_ENG_VSET.VSET = 1050 ∧
          t.eng e = { s.eng e with sup := { sup with railsAt := s.now, stage := 1 } }))

/-! ### Bring-up and reset (17_bringup_reset) -/

/-- R441 to R446, R454: PWRGD starts bring-up; the straps are latched, firmware boots from the allowed slot of the higher SVN, the ground image comes into
force once the mode agrees, or the panel halts; the edge comes up, engines are powered in waves of six columns, and the panel is ready when all have
settled.
The model's own choices it rests on: log 57, 60, 61, 71, 72. -/
def Obligations.PanelComesUpInSteps : Prop :=
  ∀ (s : State),
    let st := s.boot.step
    let f := s.flash
    (s.boot.noPwr = true → ∃ t, exec .pwrgdAccept s = .next t ∧ Only [.regs, .boot] s t ∧ RegsBut [Reg.PNL_INPUT] s t ∧
      t.flag Reg.PNL_INPUT Fld.PNL_INPUT.PWRGD = true ∧ t.boot = { s.boot with noPwr := false, t0 := if st = 0 then s.now else s.boot.t0 }) ∧
    (∀ (mode : Fin 4) (sup tray : Bool), s.boot.noPwr = false → st = 0 → ∃ t, exec (.alwaysOnUp mode sup tray) s = .next t ∧
      Only [.regs, .engines, .flash, .boot] s t ∧ t.boot = { s.boot with step := 1 } ∧ t.bootState = 1 ∧ t.fld Reg.PWR_MODE Fld.PWR_MODE.STRAP = mode ∧
      t.flag Reg.PWR_MODE Fld.PWR_MODE.TRAY = tray ∧ t.supervised = (sup || f.supervise) ∧ t.flash = { f with supervise := false } ∧
      t.rdN (Reg.LOG_SEQ 0) = f.seq % 2 ^ 32 ∧ t.rdN (Reg.SEC_SERIAL 0) = Config.serial.toNat % 2 ^ 32) ∧
    (∀ (bad : Fin 4) (standby : Bool), st = 1 →
      (∀ k, f.pickSlot bad = some k → ∃ t, exec (.easelBoot bad standby) s = .next t ∧ Only [.regs, .boot, .easel] s t ∧ t.boot = { s.boot with step := 2 } ∧
        t.bootState = (if s.supervised then 7 else 2) ∧ t.flag Reg.EZ_INFO Fld.EZ_INFO.STANDBY_OK = standby ∧ t.easel.running = true ∧ t.easel.slot = k ∧
        t.easel.sigNext = f.journal) ∧
      (∀ k, f.pickSlot bad = some k → ∃ x, SMap.find? f.slots k = some x ∧ bit bad k = false ∧ f.minSvn ≤ x.svn ∧
        ∀ k' y, k' < 2 → SMap.find? f.slots k' = some y → bit bad k' = false → f.minSvn ≤ y.svn → y.svn ≤ x.svn) ∧
      (f.pickSlot bad = none → exec (.easelBoot bad standby) s = .next s)) ∧
    (∀ bad : Fin 2048, st = 2 → s.bootState ≠ 6 → s.supervised = false → s.boot.cmd = 0 →
      let halts := ∃ t, exec (.groundVerify bad) s = .next t ∧ t.bootState = 6 ∧ t.boot = s.boot ∧ t.ground = s.ground
      (f.ground = none → (f.pendingGround = none ∨ bit bad 4 = true) → halts) ∧
      (bits bad 3 0 ≠ 0 → (f.pendingGround = none ∨ bit bad 4 = true) → halts) ∧
      (∀ g, ((f.pendingGround = some g ∧ bit bad 4 = false ∧ bits bad 3 0 ≤ 1) ∨ (f.pendingGround = none ∧ f.ground = some g ∧ bits bad 3 0 = 0)) →
        let strap := s.fld Reg.PWR_MODE Fld.PWR_MODE.STRAP
        (modeAgrees strap (s.flag Reg.PWR_MODE Fld.PWR_MODE.TRAY) (byteAt g.power 0) = true → ∃ t, exec (.groundVerify bad) s = .next t ∧
          Only [.regs, .engines, .stages, .ground, .limit, .edgeFeid, .primary, .boot, .flash, .capture, .gapEvents] s t ∧ t.boot = { s.boot with step := 3 } ∧
          t.bootState = 3 ∧ t.mode = strap ∧ t.ground = g ∧ t.limit = min 2044 (leAt g.near 0 2) ∧ t.flash.ground = some g ∧ t.flash.pendingGround = none ∧
          (∀ i, i < 256 → (mapWords g.routes)[i]? = some (SMap.getD t.edgeFeid i 0)) ∧
          (∀ e : EngIx, t.fld (Reg.PWR_ENG_RES e) Fld.PWR_ENG_RES.WATTS = powerRes g.power e % 4096 ∧
            t.fld (Reg.PWR_ENG_VLOGIC e) Fld.PWR_ENG_VLOGIC.STEP = powerStep g.power e % 32)) ∧
        (modeAgrees strap (s.flag Reg.PWR_MODE Fld.PWR_MODE.TRAY) (byteAt g.power 0) = false → ∃ t, exec (.groundVerify bad) s = .next t ∧ t.bootState = 6 ∧
          t.boot = s.boot ∧ t.mode = 3 ∧ t.flag Reg.PWR_MODE Fld.PWR_MODE.MISMATCH = true ∧ t.flag Reg.PWR_FAULT Fld.PWR_FAULT.MODE_MISMATCH = true))) ∧
    (s.edgeBarred = true → exec (.edgeUp true) s = .next s) ∧
    (st = 3 → s.mode ≠ 3 → s.edgeBarred = false →
      let up := fun (t : State) => exec (.edgeUp true) s = .next t ∧ Only [.regs, .capture, .gapEvents, .annDown, .annUp, .links, .input, .boot, .out] s t ∧ t.boot.step = 4 ∧
        t.boot.link = true ∧ (s.boot.link = false → ∀ p, 48 ≤ p → p < 58 → p ∈ t.annUp) ∧
        ∀ p : LinkIx, (s.link p).present = true → s.linkState p = 0 → t.linkState p = 1
      (s.supervised = false → ∃ t, up t ∧ t.bootState = 4 ∧ t.boot.todo = (List.range 48).filter s.takesUp ∧
        ∀ e : EngIx, s.partOf e = none → t.engState e = 9) ∧
      (s.supervised = true → s.boot.cmd = 2 → ∃ t, up t ∧ t.bootState = 7 ∧ t.boot.cmd = 0 ∧ t.flag Reg.EZ_STEP_STAT Fld.EZ_STEP_STAT.BUSY = false ∧
        t.fld Reg.EZ_STEP_STAT Fld.EZ_STEP_STAT.CODE = 0)) ∧
    (let due := s.boot.wave = 0 ∨ ∃ at', s.boot.waveAt = some at' ∧ at' + 1000000 ≤ s.now
     let w := pickWave [] s.boot.todo
     (due → s.boot.todo ≠ [] → (∀ e ∈ s.boot.todo, e < 48) → s.boot.mrstAt = none → ∃ t, exec .gessoWave s = .next t ∧ Only [.regs, .engines, .rampQ, .boot, .capture, .gapEvents] s t ∧
        t.boot.wave = s.boot.wave + 1 ∧ t.boot.taken = w ∧ t.boot.todo = s.boot.todo.filter (fun e => !w.contains e) ∧
        (∀ e ∈ w, t.pwr e = 1 ∨ (t.engState e = 0 ∧ t.fld (Reg.PNL_ENG_STATE e) Fld.PNL_ENG_STATE.RESULT = 1)) ∧
        (∀ e, e ∉ w → t.eng e = s.eng e)) ∧
     (¬ due → exec .gessoWave s = .next s)) ∧
    (∀ l, (pickWave [] l).length ≤ 6 ∧ ((pickWave [] l).map (· % 8)).Nodup ∧ (pickWave [] l).Sublist l) ∧
    (s.bootState = 4 → s.settled = true → ∃ t, exec .panelReady s = .next t ∧ Only [.regs, .boot] s t ∧ RegsBut [Reg.PNL_BOOT] s t ∧ t.bootState = 5 ∧
      t.boot = { s.boot with step := 6 } ∧ t.fld Reg.PNL_BOOT Fld.PNL_BOOT.TIME_MS = min 65535 ((s.now - s.boot.t0) / 1000000))

/-- R447 to R449, R451, R453 to R455: a powered engine locks its clock or is switched off, trains and tests, has its findings listed and its dies assigned,
and enters service, or shows the first failure; a supervised command that is in order begins, and any other shows its code.
The model's own choices it rests on: log 64, 65, 79, 80. -/
def Obligations.EnginesComeUpInSteps : Prop :=
  ∀ (s : State) (r : Req) (e : EngIx),
    let x := (s.eng e).sup
    let es := Reg.PNL_ENG_STATE e
    (s.engState e = 2 → s.pwr e = 4 → s.supervisedNow e = false →
      (s.now ≤ x.railsAt + 1000000 → ∃ t, exec (.engClockLock e) s = .next t ∧ Only [.regs, .engines] s t ∧ EngsBut e s t ∧ t.engState e = 3 ∧
        (t.eng e).count = s.master ∧ (t.eng e).clk.locked = true ∧ (t.eng e).sup = { x with stage := 2 }) ∧
      (x.railsAt + 1000000 ≤ s.now → ∃ t, exec (.noLock e) s = .next t ∧ t.pwr e = 0 ∧ t.engState e = 0 ∧ t.fld es Fld.PNL_ENG_STATE.RESULT = 3 ∧
        ∀ p ∈ t.cells, p.1 / 4096 ≠ e.val)) ∧
    (∀ (trained : Fin 4) (links : Fin 256) (findings : List Finding), s.engState e = 3 → s.boot.cmd = 0 →
      ∃ t, exec (.engTrainTest e trained links findings) s = .next t ∧ Only [.regs, .engines] s t ∧ EngsBut e s t ∧ t.engState e = 4 ∧ (t.eng e).sup.stage = 4 ∧
        (t.eng e).sup.stks = trained ∧ (t.eng e).sup.links = links ∧
        (∀ f ∈ findings, findingOk f = true → (⟨f.kind, e, f.unit, f.location.toNat, 1⟩ : Defect) ∈ (t.eng e).sup.findings) ∧
        (x.hubOnly = false → ∀ n : Fin 14, n.val < 10 → s.fld (Reg.SK_PORT e n) Fld.SK_PORT.STATE ≠ 1 → (⟨0x10, e, n / 2, 0, 1⟩ : Defect) ∈ (t.eng e).sup.findings) ∧
        (∀ n : Fin 8, netLinkExists e n = true → (bit links n = false ∨ s.routerUp (neighbour e (n % 4)) = false) → t.rdN (Reg.NET_LINK e n) = 5)) ∧
    (s.engState e = 4 → x.stage < 5 → s.supervisedNow e = false →
      (∃ t, exec (.engDefectUpdate e) s = .next t ∧ t.engState e = 4 ∧ (t.eng e).sup.stage = 5 ∧
        (s.flash.defects.length + x.findings.length < 262080 → ∀ d ∈ x.findings, t.listed d.kind d.engine d.unit d.location = true)) ∧
      (x.findings = [] → s.defectsOf e = [] → x.stks = 3 → (∀ m, m < 6 → s.stagesLost e m = 0) → 12 ≤ s.phases e → x.hubOnly = false →
        ∃ t, exec (.engDefectUpdate e) s = .next t ∧ Only [.regs, .engines] s t ∧ EngsBut e s t ∧ t.fld es Fld.PNL_ENG_STATE.RESULT = 0 ∧
          t.fld es Fld.PNL_ENG_STATE.SPARE = 4 ∧ ∀ m, m < 5 → t.rdN (Reg.CEL_DIE_INFO e m) = 896 * 64 + (if m = 4 then 7 else m) * 8 + m)) ∧
    (s.engState e = 4 → x.stage = 5 →
      let res := s.fld es Fld.PNL_ENG_STATE.RESULT
      (res = 0 → s.holder e = e.val → s.limit ≤ 2044 → ∃ t, exec (.engEnterService e) s = .next t ∧ Only [.regs, .engines, .annUp, .boot, .capture, .gapEvents] s t ∧
        EngsBut e s t ∧ t.engState e = 5 ∧ (t.eng e).up = true ∧ t.annUp = s.annUp ++ [e.val] ∧ (t.eng e).sup = { x with grown := false, findings := [], stage := 6 } ∧
        t.rdN (Reg.ENG_NEAR_LIMIT e) = s.limit ∧ t.rdN (Reg.ENG_SPREAD_SIZE e) = 3 * (2044 - s.limit) ∧
        t.fld (Reg.MC_STACK e 0) Fld.MC_STACK.STATE = 2 ∧ t.fld (Reg.MC_STACK e 1) Fld.MC_STACK.STATE = 2) ∧
      (res = 4 → ∃ t, exec (.engEnterService e) s = .next t ∧ Only [.regs, .engines, .boot, .capture, .gapEvents] s t ∧ EngsBut e s t ∧ t.engState e = 8 ∧
        (t.eng e).up = (s.eng e).up ∧ t.fld (Reg.MC_STACK e 0) Fld.MC_STACK.STATE = 2 ∧ t.fld (Reg.MC_STACK e 1) Fld.MC_STACK.STATE = 2) ∧
      (res ≠ 0 → res ≠ 4 → 1 ≤ s.pwr e → s.pwr e ≤ 4 → ∃ t, exec (.engEnterService e) s = .next t ∧ t.engState e = 8 ∧ t.pwr e = 0 ∧
        t.fld es Fld.PNL_ENG_STATE.RESULT = res)) ∧
    (∀ (cmd : Instr) (k : Nat), (cmd, k) ∈ [(.verify r, 0x01), (.edge r, 0x02), (.power r, 0x10), (.clock r, 0x11), (.train r, 0x12), (.test r, 0x13),
        (.defects r, 0x14), (.service r, 0x15), (.stepOff r, 0x1F), (.ready r, 0x20)] → Passes s r Reg.EZ_STEP k →
      let a := entered s r Reg.EZ_STEP k
      let early := (∃ p f, r = .host p f) ∧ a.boot.step < 4
      let shows := fun (code : Nat) => ∃ t, exec cmd s = .next t ∧ Only [.regs] a t ∧ RegsBut [Reg.EZ_STEP_STAT] a t ∧
        t.fld Reg.EZ_STEP_STAT Fld.EZ_STEP_STAT.CODE = code ∧ t.fld Reg.EZ_STEP_STAT Fld.EZ_STEP_STAT.STEP = k
      (a.flag Reg.EZ_STEP_STAT Fld.EZ_STEP_STAT.BUSY = true → exec cmd s = .next a) ∧
      (a.flag Reg.EZ_STEP_STAT Fld.EZ_STEP_STAT.BUSY = false →
        (early → shows 2) ∧ (¬ early → (a.supervised = false ∨ a.stepOrder k = false) → shows 1) ∧
        (¬ early → a.supervised = true → a.stepOrder k = true → ∃ t, exec cmd s = .next t ∧ t.fld Reg.EZ_STEP_STAT Fld.EZ_STEP_STAT.STEP = k ∧
          t.flash = a.flash ∧
          (k = 0x01 → t.bootState = 2 ∧ t.boot.cmd = 1 ∧ t.flag Reg.EZ_STEP_STAT Fld.EZ_STEP_STAT.BUSY = true) ∧
          (k = 0x02 → t.bootState = 3 ∧ t.boot.cmd = 2 ∧ t.flag Reg.EZ_STEP_STAT Fld.EZ_STEP_STAT.BUSY = true) ∧
          (k = 0x10 → t.boot.todo = a.stepEngines ∧ t.boot.wave = 0) ∧ (k = 0x11 → ∀ e ∈ a.stepEngines, t.engState e = 2) ∧
          ((k = 0x12 ∨ k = 0x13) → ∀ e ∈ a.stepEngines, t.engState e = 3) ∧ ((k = 0x14 ∨ k = 0x15) → ∀ e ∈ a.stepEngines, t.engState e = 4) ∧
          (k = 0x1F → ∀ e ∈ a.stepEngines, 1 ≤ a.pwr e → a.pwr e ≤ 4 → t.pwr e = 0) ∧
          (k = 0x20 → t.bootState = 5 ∧ t.boot.step = 6) ∧
          ((k = 0x1F ∨ k = 0x20) → t.flag Reg.EZ_STEP_STAT Fld.EZ_STEP_STAT.BUSY = false ∧ t.fld Reg.EZ_STEP_STAT Fld.EZ_STEP_STAT.CODE = 0))))

/-- R456, R457, R459 to R465: a reset that may be taken begins at once in its scope, and any other shows its code; what stands outside the scope is left alone,
and scratchpads, clocks and counts are kept.
The model's own choices it rests on: log 66, 74, 75, 76, 77, 78. -/
def Obligations.ResetsActInTheirScope : Prop :=
  ∀ (s : State) (r : Req) (e : EngIx) (v : Word),
    let rs := Reg.PNL_RESET_STAT
    let held := fun (t : State) (x : Nat) => (t.eng x).sup.resetAt = some s.now ∧ (t.eng x).up = false ∧ (t.eng x).contained = false ∧ t.engState x = 6 ∧ t.cvState x = 0
    (∀ (cmd : Instr) (scope : Nat), (cmd, scope) ∈ [(.engineReset r v, 1), (.partitionReset r v, 2), (.computeReset r v, 3), (.fullReset r v, 4)] →
      let w := putBits (putBits v.toNat 31 31 1) 2 0 scope
      let b := (entered s r Reg.PNL_RESET w).plainWrite Reg.PNL_RESET w
      let x := bits w 13 8
      let part := bits w 19 16
      let code := b.resetCode r scope x part
      Passes s r Reg.PNL_RESET w →
        (code ≠ 0 → ∃ t, exec cmd s = .next t ∧ Only [.regs] b t ∧ RegsBut [rs] b t ∧ t.fld rs Fld.PNL_RESET_STAT.CODE = code) ∧
        (code = 0 → ∃ t, exec cmd s = .next t ∧ t.hbm = s.hbm ∧ t.cells = s.cells ∧ t.fabs = s.fabs ∧ t.flash = s.flash ∧ t.easel = s.easel ∧ t.session = s.session ∧
          t.fld rs Fld.PNL_RESET_STAT.CODE = 0 ∧
          (scope = 1 → held t x ∧ x ∈ t.annDown ∧ t.flag rs Fld.PNL_RESET_STAT.BUSY = true) ∧
          ((scope = 2 ∨ scope = 3) → ∀ y ∈ b.resetSet scope part, held t y ∧ y ∈ t.annDown ∧ t.flag rs Fld.PNL_RESET_STAT.BUSY = true) ∧
          (scope = 3 → ∀ y : EngIx, y.val ∉ b.resetSet 3 part → (t.eng y).abortPanel = true) ∧
          (scope = 4 → t.boot.fullAt = some s.now ∧ (b.resetScope ≤ 4 → t.fld rs Fld.PNL_RESET_STAT.SCOPE = 4) ∧ t.flag rs Fld.PNL_RESET_STAT.BUSY = true ∧
            ∀ g : SiteIx, t.guestFlag g Fld.SK_GUEST_STAT.IN_RESET = true))) ∧
    (∀ at', (s.eng e).sup.resetAt = some at' → s.boot.fullAt = none →
      ((s.eng e).sup.mcDone = false → at' + 2000 ≤ s.now → ∃ t, exec (.engineResetMc e) s = .next t ∧ (t.eng e).sup.mcDone = true ∧
        t.packets = netDrain e s.packets ∧ t.fld (Reg.MC_STACK e 0) Fld.MC_STACK.STATE = 3 ∧ t.fld (Reg.MC_STACK e 1) Fld.MC_STACK.STATE = 3 ∧ t.cells = s.cells) ∧
      ((s.eng e).sup.mcDone = true → at' + 5000 ≤ s.now → (s.eng e).containNext = false → s.holder e = e.val → ∃ t, exec (.engineResetDone e) s = .next t ∧
        Only [.regs, .engines, .cells, .fabs, .cellParity, .annUp] s t ∧ EngsBut e s t ∧ t.engState e = 5 ∧ (t.eng e).up = true ∧
        (t.eng e).sup.resetAt = none ∧ e.val ∈ t.annUp ∧ (t.eng e).count = (s.eng e).count ∧ (t.eng e).clk = (s.eng e).clk ∧ (t.eng e).spmBanks = (s.eng e).spmBanks ∧
        (∀ d c, d < 4 → c < 1024 → t.cell e d c = { sp := (s.cell e d c).sp, banks := (s.cell e d c).banks }) ∧
        (∀ e' d c, e' ≠ e.val → d < 4 → c < 1024 → t.cell e' d c = s.cell e' d c) ∧ ∀ p ∈ t.fabs, p.1 / 4 ≠ e.val)) ∧
    (let er := Reg.ENG_RESET e
     let w := putBits v.toNat 16 16 1
     let a := entered s r er w
     let d := bits w 11 10
     let c := w % 1024
     Passes s r er w →
      (a.engResetCode e w ≠ 0 → ∃ t, exec (.cellReset r e v) s = .next t ∧ Only [.regs] a t ∧ RegsBut [er] a t ∧ t.fld er Fld.ENG_RESET.CODE = a.engResetCode e w) ∧
      (a.engResetCode e w = 0 → ∃ t, exec (.cellReset r e v) s = .next t ∧ Only [.regs, .cells] a t ∧ t.flag er Fld.ENG_RESET.BUSY = true ∧
        t.fld er Fld.ENG_RESET.CODE = 0 ∧ (t.cell e d c).held = true ∧ (t.cell e d c).slot = 0 ∧ (t.cell e d c).iter = 0 ∧ (t.cell e d c).sp = (s.cell e d c).sp ∧
        ((t.cell e d c).ended = true ↔ (s.cvState e = 3 ∨ s.cvState e = 4)) ∧
        ∀ e' d' c', cellKey e' d' c' ≠ cellKey e d c → t.cell e' d' c' = s.cell e' d' c')) ∧
    (let er := Reg.ENG_RESET e
     let w := putBits v.toNat 17 17 1
     let a := entered s r er w
     let d := bits w 11 10
     Passes s r er w → bit v.toNat 16 = false →
      (a.engResetCode e w ≠ 0 → ∃ t, exec (.dieReset r e v) s = .next t ∧ Only [.regs] a t ∧ RegsBut [er] a t ∧ t.fld er Fld.ENG_RESET.CODE = a.engResetCode e w) ∧
      (a.engResetCode e w = 0 → ∃ t, exec (.dieReset r e v) s = .next t ∧ Only [.regs, .engines, .cells, .fabs, .cellParity] a t ∧ EngsBut e a t ∧
        t.flag er Fld.ENG_RESET.BUSY = true ∧ t.cvState e = 0 ∧ t.fab e d = { held := true } ∧
        (∀ c, c < 1024 → t.cell e d c = { sp := (s.cell e d c).sp, banks := (s.cell e d c).banks, waits := (s.cell e d c).waits }) ∧
        ∀ d' c, d' ≠ d → d' < 4 → c < 1024 → t.cell e d' c = s.cell e d' c)) ∧
    (∀ (mode : Fin 4) (sup tray passes : Bool) (bad : Fin 2048) (at' : Nat), s.boot.fullAt = some at' → at' + 2000 ≤ s.now →
      (s.boot.step < 2 → ∃ t, exec (.fullResetApply mode sup tray passes bad) s = .next t ∧ Only [.regs, .flash, .easel, .boot] s t ∧ t.boot.fullAt = none ∧
        t.fld Reg.PWR_MODE Fld.PWR_MODE.STRAP = mode) ∧
      (3 ≤ s.boot.step → ∃ t, exec (.fullResetApply mode sup tray passes bad) s = .next t ∧ t.boot.fullAt = none ∧ t.boot.t0 = at' ∧
        t.fld rs Fld.PNL_RESET_STAT.FULLS = min (s.fld rs Fld.PNL_RESET_STAT.FULLS + 1) 255 ∧ t.flag rs Fld.PNL_RESET_STAT.BUSY = false ∧
        (∀ y : EngIx, t.pwr y = 0 ∧ (t.engState y = 0 ∨ t.engState y = 9) ∧ t.flag (Reg.PWR_ENG_BRK y) Fld.PWR_ENG_BRK.LATCHED = false) ∧
        (∀ p ∈ t.cells, 48 ≤ p.1 / 4096) ∧ (∀ a, a < 48 * 2 ^ 37 → Memory.read t.hbm a = Memory.unlisted) ∧
        t.fld Reg.PWR_MODE Fld.PWR_MODE.STRAP = mode ∧ (s.boot.keepLink = false → t.boot.link = false) ∧ t.master = s.master ∧ t.session = s.session ∧ t.mbox = s.mbox))

/-- R428, R441, R482, R535, R542, R546, R547: the inputs of the panel act once their filters are past; a loss of module input power opens every breaker and
starts a full reset that powers the link domain down; the loss of AUX 3.3 V leaves only what the flash holds.
The model's own choices it rests on: log 56, 73, 129, 164, 165, 173. -/
def Obligations.InputsActThroughTheirFilters : Prop :=
  ∀ (s : State) (ns : Fin 0x100000000),
    let lost := fun (cmd : Instr) => ∃ t, exec cmd s = .next t ∧ t.boot.link = false ∧ t.boot.fullAt = some (s.boot.fullAt.getD s.now) ∧ t.boot.keepLink = false ∧
      t.flag Reg.PWR_FAULT Fld.PWR_FAULT.INPUT_LOST = true ∧ (∀ e : EngIx, t.supplied e = false) ∧ t.flash = s.flash
    let counts := fun (cmd : Instr) (a : Nat) (f : Fld) => ∃ t, exec cmd s = .next t ∧ Only [.regs] s t ∧ RegsBut [a] s t ∧ t.fld a f = min (s.fld a f + 1) 255
    (∀ at', s.input.badSince = some at' → s.mode = 0 → s.boot.link = true → at' + 50000 ≤ s.now → lost .inputLost) ∧
    (s.boot.noPwr = false →
      (ns.val < 100000 → counts (.pwrgdLoss ns) Reg.PNL_INPUT Fld.PNL_INPUT.PWRGD_NARROW) ∧
      (100000 ≤ ns.val → ∃ t, exec (.pwrgdLoss ns) s = .next t ∧ t.flag Reg.PNL_INPUT Fld.PNL_INPUT.PWRGD = false ∧ t.boot.noPwr = true ∧
        t.boot.fullAt = some (s.boot.fullAt.getD s.now) ∧ t.boot.keepLink = false ∧ t.hbm = s.hbm ∧ t.flash = s.flash)) ∧
    (let on := s.flag Reg.PNL_INPUT Fld.PNL_INPUT.MRST
     (∃ t, exec (.mrstAssert false ns) s = .next t ∧ Only [.regs, .boot] s t ∧ RegsBut [Reg.PNL_INPUT] s t ∧ t.flag Reg.PNL_INPUT Fld.PNL_INPUT.MRST = false ∧
        t.boot = { s.boot with mrstAt := none }) ∧
     (on = false → ns.val < 1000 → counts (.mrstAssert true ns) Reg.PNL_INPUT Fld.PNL_INPUT.MRST_NARROW) ∧
     (on = false → 1000 ≤ ns.val → ∃ t, exec (.mrstAssert true ns) s = .next t ∧ t.flag Reg.PNL_INPUT Fld.PNL_INPUT.MRST = true ∧ t.boot.mrstAt = some s.now ∧
        t.boot.fullAt = some (s.boot.fullAt.getD s.now) ∧ t.hbm = s.hbm ∧ t.flash = s.flash) ∧
     (∀ at', s.boot.mrstAt = some at' → at' + 10000000000 ≤ s.now → ∃ u, u.flag Reg.PNL_INPUT Fld.PNL_INPUT.MRST_STUCK = true ∧ Only [.regs, .boot] s u ∧
        RegsBut [Reg.PNL_INPUT] s u ∧ u.boot = { s.boot with mrstAt := none } ∧ exec .mrstStuck s = .next (u.fault Src.MRST_STUCK panelScope 0))) ∧
    (∃ t, exec .mateAssert s = .next t ∧ Only [.regs] s t ∧ RegsBut [Reg.PNL_PHYS] s t ∧ t.flag Reg.PNL_PHYS Fld.PNL_PHYS.MATE = true) ∧
    (s.flag Reg.PNL_PHYS Fld.PNL_PHYS.MATE = true →
      (ns.val < 1000 → counts (.mateBreak ns) Reg.PNL_PHYS Fld.PNL_PHYS.MATE_NARROW) ∧ (1000 ≤ ns.val → lost (.mateBreak ns))) ∧
    (∀ p : HostIx,
      let present := fun (t : State) => bit (t.fld Reg.PNL_PHYS Fld.PNL_PHYS.CPRSNT) p
      (∃ t, exec (.cprsntAssert p) s = .next t ∧ Only [.regs] s t ∧ RegsBut [Reg.PNL_PHYS, Reg.HP_PORT_STAT p] s t ∧ present t = true ∧
        (s.portDie p = true → s.portState p = 0 → t.portState p = 1)) ∧
      (present s = true →
        (ns.val < 1000 → counts (.cprsntDeassert p ns) Reg.PNL_PHYS Fld.PNL_PHYS.CPRSNT_NARROW) ∧
        (1000 ≤ ns.val → ∃ u, present u = false ∧ Only [.regs] s u ∧ RegsBut [Reg.PNL_PHYS] s u ∧ exec (.cprsntDeassert p ns) s = .next (u.surpriseDown p)))) ∧
    (∀ p : LinkIx, (s.link p).present = true → ∃ t, exec (.cageOverpower p) s = .next t ∧ t.linkState p = 1 ∧ t.fld (Reg.LNK_PORT_STAT p) Fld.LNK_PORT_STAT.LANES = 0 ∧
      (t.link p).present = false ∧ (t.link p).overpower = true ∧ .pin (.cagePower p) false ∈ t.out ∧ t.hbm = s.hbm) ∧
    (∃ t, exec .aux3v3Loss s = .next t ∧ t.flash = s.flash ∧ t.freeCtr = s.freeCtr ∧ t.pending = s.pending ∧ (∃ l, t.out = s.out ++ l) ∧
      Only [.flash, .freeCtr, .session, .out, .pending] State.reset t)

/-! ### Faults and cooling (18_faults, 19_cooling) -/

/-- R468 to R472, R476, R478, R488: a fault takes its source's severity, raised to its floor and by one level where its class is pending; it is recorded, counted and
marked pending, drives FAULT_N, and at CONTAIN contains its engine; a fault of an engine that is contained, off or out of service is only recorded at NOTE.
The model's own choices it rests on: log 86, 89, 128, 130. -/
def Obligations.FaultsAreRecordedAndActedOn : Prop :=
  ∀ (s : State) (r : Req) (v : Word),
    (∀ (src : Fin 128) (scope : Fin 256) (detail : Word) (row : Source), scopeOk src scope = true → sourceRow src = some row → src.val ≠ 0x20 → src.val ≠ 0x5B →
      let dead := scope.val ≠ panelScope ∧ s.engDead scope = true
      let log := fun (x : FaultRec) => (if 512 ≤ s.faultLog.length then s.faultLog.drop 1 else s.faultLog) ++ [x]
      let counted := fun (t : State) => t.fld (Reg.FLT_SRC src) Fld.FLT_SRC.COUNT = min (s.fld (Reg.FLT_SRC src) Fld.FLT_SRC.COUNT + 1) 65535 ∧
        t.fld Reg.FLT_LOG_STAT Fld.FLT_LOG_STAT.TAIL = (s.fld Reg.FLT_LOG_STAT Fld.FLT_LOG_STAT.TAIL + 1) % 65536 ∧
        t.fld Reg.FLT_LOG_STAT Fld.FLT_LOG_STAT.LOST = (if 512 ≤ s.faultLog.length then min (s.fld Reg.FLT_LOG_STAT Fld.FLT_LOG_STAT.LOST + 1) 65535
          else s.fld Reg.FLT_LOG_STAT Fld.FLT_LOG_STAT.LOST)
      (dead → ∃ t, exec (.faultReport src scope detail none) s = .next t ∧ Only [.regs, .faultLog] s t ∧
        RegsBut [Reg.FLT_SRC src, Reg.FLT_LOG_STAT] s t ∧ counted t ∧ t.faultLog = log ⟨s.ticks, src, scope, 1, row.cls, detail.toNat⟩) ∧
      (¬ dead → src.val ≠ 3 → src.val ≠ 4 →
        let pend := s.rdN (pendReg scope)
        let set := s.fld (Reg.FLT_SRC src) Fld.FLT_SRC.SEVERITY
        let base := max row.floor (if set = 0 ∨ set = 6 ∨ set = 7 then row.dflt else set)
        let esc := s.flag (Reg.FLT_SRC src) Fld.FLT_SRC.ESC_EN && bit pend row.cls
        let sev := if esc then min (base + 1) 5 else base
        ∃ t, exec (.faultReport src scope detail none) s = .next t ∧ Only faultParts s t ∧ counted t ∧
          t.faultLog = log ⟨s.ticks, src, scope, sev + 128 * b2n esc, row.cls, detail.toNat⟩ ∧ bit (t.rdN (pendReg scope)) row.cls = true ∧
          (max 1 (s.fld Reg.FLT_PIN Fld.FLT_PIN.MIN_SEV) ≤ sev → t.flag Reg.FLT_PIN Fld.FLT_PIN.PULSE = true ∧ t.flag Reg.FLT_PIN Fld.FLT_PIN.HOLD = true ∧
            t.flag Reg.FLT_PIN Fld.FLT_PIN.ASSERTED = true ∧ t.pulseStart = s.now) ∧
          (sev < max 1 (s.fld Reg.FLT_PIN Fld.FLT_PIN.MIN_SEV) → t.rd Reg.FLT_PIN = s.rd Reg.FLT_PIN ∧ t.pulseStart = s.pulseStart) ∧
          (sev = 3 → scope.val ≠ panelScope → s.engState scope ≠ 6 → (t.eng scope).contained = true ∧ t.engState scope = 7 ∧ t.cvState scope = 8 ∧ scope.val ∈ t.annDown) ∧
          (sev = 3 → scope.val ≠ panelScope → s.engState scope = 6 → (t.eng scope).containNext = true ∧ (t.eng scope).contained = false) ∧
          (sev = 5 → t.halted = true ∧ ∀ y : EngIx, s.engDead y = false → (t.eng y).abortPanel = true ∧ (s.engState y ≠ 6 → (t.eng y).contained = true)))) ∧
    (s.flag Reg.FLT_PIN Fld.FLT_PIN.PULSE = true → s.pulseStart + 10000 ≤ s.now → ∃ t, exec .faultPulseEnd s = .next t ∧ Only [.regs, .out] s t ∧
      RegsBut [Reg.FLT_PIN] s t ∧ t.flag Reg.FLT_PIN Fld.FLT_PIN.PULSE = false ∧
      (s.flag Reg.FLT_PIN Fld.FLT_PIN.HOLD = true → t.out = s.out ∧ t.flag Reg.FLT_PIN Fld.FLT_PIN.ASSERTED = s.flag Reg.FLT_PIN Fld.FLT_PIN.ASSERTED) ∧
      (s.flag Reg.FLT_PIN Fld.FLT_PIN.HOLD = false → s.flag Reg.FLT_PIN Fld.FLT_PIN.ASSERTED = true →
        t.out = s.out ++ [.pin .faultN true] ∧ t.flag Reg.FLT_PIN Fld.FLT_PIN.ASSERTED = false)) ∧
    (let w := putBits v.toNat 31 31 1
     let src := bits w 7 0
     let scope := bits w 23 16
     Passes s r Reg.FLT_INJECT w →
      (scopeOk src scope = true → exec (.faultInject r v) s = .next ((entered s r Reg.FLT_INJECT w).fault src scope 0 true)) ∧
      (scopeOk src scope = false → exec (.faultInject r v) s = .next (entered s r Reg.FLT_INJECT w)))

/-- R201, R204, R490, R494, R495, R498, R499: each sensor's sample is taken unless the sensor fails by it; the limits act on fresh readings; the thermal level rises
every 1 ms and falls every 10 ms; and the cycles of the junction are counted on a stack of reversals.
R490 to R493, R496, R497, R499: pulses that are neither narrow nor fast give the flow, which every 100 ms or a stop makes act: FLOW_LOW, FLOW_CRIT with its shutdown,
and 50 µs later the link domain; a stuck meter is ignored until it is re-armed; the coolant is sampled.
The model's own choices it rests on: log 67, 68, 69, 70, 81, 82, 83, 84, 85, 173. -/
def Obligations.TemperaturesAndCoolantAct : Prop :=
  (∀ (s : State) (r : Req) (e : EngIx) (v : Word),
      let x := (s.eng e).therm
      let live := fun i => s.dieOn e (i / 8) = true
      (s.supplied e = true → x.failed = [] → ∀ temps : Vector (Fin 256) 48,
        ((∀ i, (h : i < 48) → live i → sampleBad 1 (SMap.find? x.last i) (temps[i]).val = false) →
          ∃ u, exec (.junctionSample e temps) s = .next (u.tempCheck e) ∧ Only [.regs, .engines] s u ∧ EngsBut e s u ∧
            RegsBut [Reg.THM_ENG_TEMP e, Reg.THM_ENG_STAT e] s u ∧
            (∀ i, (h : i < 48) → live i → SMap.find? (u.eng e).therm.last i = some (temps[i]).val) ∧
            (∀ i, (h : i < 48) → live i → ∃ j, (u.eng e).therm.j = some j ∧ (temps[i]).val ≤ j) ∧
            (∀ j, (u.eng e).therm.j = some j → ∃ (i : Nat) (h : i < 48), live i ∧ (temps[i]).val = j)) ∧
        (∀ i, (h : i < 48) → (i / 8 = 5 ∨ (s.dieAt e (i / 8)).isSome = true) → sampleBad 1 (SMap.find? x.last i) (temps[i]).val = true → ∃ t, exec (.junctionSample e temps) s = .next t ∧
          SMap.getD (t.eng e).therm.failed i false = true ∧ t.flag Reg.THM_STAT Fld.THM_STAT.SENSOR = true)) ∧
      (x.reaches 112 100 = false →
        ((x.reaches 105 95 = true ∧ x.disarmed = false) → ∃ u, s.tempCheck e = u.fault Src.TEMP_HIGH e 0 ∧ Only [.regs, .engines] s u ∧ EngsBut e s u ∧
          u.flag (Reg.THM_ENG_STAT e) Fld.THM_ENG_STAT.TEMP_HIGH = true ∧ (u.eng e).therm = { x with disarmed := true }) ∧
        (x.reaches 100 90 = false → (s.tempCheck e).eng e = { s.eng e with therm := { x with disarmed := false } } ∧ Only [.engines] s (s.tempCheck e))) ∧
      (x.reaches 112 100 = true → s.supplied e = true → (s.tempCheck e).pwr e = 5 ∧ (s.tempCheck e).engState e = 7 ∧
        (s.tempCheck e).flag (Reg.THM_ENG_STAT e) Fld.THM_ENG_STAT.TEMP_TRIP = true ∧
        (s.tempCheck e).fld (Reg.PWR_ENG_BRK e) Fld.PWR_ENG_BRK.TRIPS = s.fld (Reg.PWR_ENG_BRK e) Fld.PWR_ENG_BRK.TRIPS) ∧
      (∀ (k : Fin 2) (temp : Fin 256), s.pwr e ≠ 0 → SMap.getD x.failed (48 + k.val) false = false →
        let t0 := temp.val + 50
        let mc := Reg.MC_STACK e k
        (sampleBad 1 (SMap.find? x.last (48 + k.val)) t0 = false → ∃ u, exec (.stackTempRead e k temp) s = .next (u.tempCheck e) ∧ Only [.regs, .engines] s u ∧
          EngsBut e s u ∧ RegsBut [Reg.THM_ENG_TEMP e, mc] s u ∧ SMap.find? (u.eng e).therm.last (48 + k.val) = some t0 ∧
          (u.eng e).therm.s0 = (if k.val = 0 then some t0 else x.s0) ∧ (u.eng e).therm.s1 = (if k.val = 1 then some t0 else x.s1) ∧
          (s.supplied e = true → u.fld mc Fld.MC_STACK.TEMP = temp ∧
            u.flag mc Fld.MC_STACK.REFRESH_X2 = (if 85 < temp.val then true else if temp.val < 83 then false else s.flag mc Fld.MC_STACK.REFRESH_X2))) ∧
        (sampleBad 1 (SMap.find? x.last (48 + k.val)) t0 = true → ∃ t, exec (.stackTempRead e k temp) s = .next t ∧ Only faultParts s t ∧
          SMap.getD (t.eng e).therm.failed (48 + k.val) false = true ∧ t.flag Reg.THM_STAT Fld.THM_STAT.SENSOR = true)) ∧
      (s.noSensor e = false →
        let moves := fun (n : Nat) => ∃ t, exec (.thermalLevelStep e) s = .next t ∧ Only [.regs, .engines] s t ∧ EngsBut e s t ∧
          t.eng e = { s.eng e with therm := { x with level := n, levelAt := s.now } } ∧ (n < 16 → t.fld (Reg.THM_ENG_TEMP e) Fld.THM_ENG_TEMP.LEVEL = n)
        (x.reaches 100 90 = true → x.levelAt + 1000000 ≤ s.now → x.level < 8 → moves (x.level + 1)) ∧
        (x.reaches 97 87 = false → x.levelAt + 10000000 ≤ s.now → x.level ≠ 0 → moves (x.level - 1)) ∧
        (x.reaches 97 87 = true → x.reaches 100 90 = false → exec (.thermalLevelStep e) s = .next s)) ∧
      (let st := Reg.THM_ENG_STAT e
       let a := entered s r st v.toNat
       Passes s r st v.toNat → ∃ t, exec (.thmEngStatWrite r e v) s = .next t ∧ Only [.regs] a t ∧ RegsBut [st] a t ∧
         (∀ j, x.j = some j → 50 ≤ j → j < 256 → t.fld st Fld.THM_ENG_STAT.MAX = j - 50) ∧
         ∀ n, 30 ≤ n → n ≤ 31 → bit (t.rdN st) n = (bit (s.rdN st) n && !bit v.toNat n)) ∧
      (∀ j, x.j = some j → x.cycleAt + 100000000 ≤ s.now →
        let turns := fun (up : Option Bool) (stack : List Nat) => ∃ t, exec (.thermalCycleSample e) s = .next t ∧ Only [.regs, .engines] s t ∧ EngsBut e s t ∧
          (t.eng e).therm = { x with cycleAt := s.now, extreme := some j, rising := up, stack := stack }
        (x.extreme = none → turns none x.stack) ∧
        (∀ m, x.extreme = some m →
          let pushed := (rainflow (x.stack.length + 1) (m :: x.stack) []).1
          (m + 2 ≤ j → x.rising ≠ some true → turns (some true) pushed) ∧ (j + 2 ≤ m → x.rising ≠ some false → turns (some false) pushed) ∧
          (m < j → x.rising = some true → turns (some true) x.stack) ∧ (j < m → x.rising = some false → turns (some false) x.stack))) ∧
      (∃ t, exec .thermalCycleSave s = .next t ∧ Only [.flash] s t ∧ t.flash = { s.flash with cycles := t.flash.cycles, reversals := t.flash.reversals } ∧
        ∀ y : EngIx, (∀ n : Fin 4, SMap.getD t.flash.cycles (y.val * 4 + n.val) 0 = s.rdN (Reg.THM_ENG_CYCLE y n)) ∧
          SMap.getD t.flash.reversals y.val [] = (s.eng y).therm.stack)) ∧
  (∀ (s : State) (r : Req) (v : Word),
      let x := s.flow
      let f := s.flowNow
      let acts := fun (cmd : Instr) (f : Nat) => s.flowStuck = false → f < 65536 → ∃ t, exec cmd s = .next t ∧ t.fld Reg.THM_FLOW Fld.THM_FLOW.FLOW = f ∧
        (300 ≤ f → Only [.regs, .flow] s t ∧ t.flag Reg.THM_STAT Fld.THM_STAT.FLOW_CRIT = false ∧
          t.flag Reg.THM_STAT Fld.THM_STAT.FLOW_LOW = (decide (f < 320) && s.flag Reg.THM_STAT Fld.THM_STAT.FLOW_LOW)) ∧
        (120 ≤ f → f < 300 → t.flag Reg.THM_STAT Fld.THM_STAT.FLOW_LOW = true ∧ t.flag Reg.THM_STAT Fld.THM_STAT.FLOW_CRIT = false ∧ t.hbm = s.hbm) ∧
        (f < 120 → t.flag Reg.THM_STAT Fld.THM_STAT.FLOW_CRIT = true ∧
          (s.flag Reg.THM_STAT Fld.THM_STAT.FLOW_CRIT = false → t.flag Reg.THM_STAT Fld.THM_STAT.SHUTDOWN = true ∧ t.flow.critAt = some s.now ∧ t.halted = true ∧
            ∀ e : EngIx, t.supplied e = false))
      (∀ ns : Fin 0x100000000, s.flowStuck = false →
        let fast := ∃ at', x.last = some at' ∧ (s.now - at') * s.ppl < 400000000
        (ns.val < 100000 → ∃ t, exec (.flowPulse ns) s = .next t ∧ Only [.regs] s t ∧ RegsBut [Reg.THM_FLOW_CNT] s t ∧
          t.fld Reg.THM_FLOW_CNT Fld.THM_FLOW_CNT.NARROW = min (s.fld Reg.THM_FLOW_CNT Fld.THM_FLOW_CNT.NARROW + 1) 65535) ∧
        (100000 ≤ ns.val → fast → ∃ t, exec (.flowPulse ns) s = .next t ∧ Only [.regs] s t ∧ RegsBut [Reg.THM_FLOW_CNT] s t ∧
          t.fld Reg.THM_FLOW_CNT Fld.THM_FLOW_CNT.FAST = min (s.fld Reg.THM_FLOW_CNT Fld.THM_FLOW_CNT.FAST + 1) 65535) ∧
        (100000 ≤ ns.val → ¬ fast → ∃ t, exec (.flowPulse ns) s = .next t ∧ Only [.flow] s t ∧
          t.flow = { x with last := some s.now, pulses := (x.pulses.filter fun t => decide (s.now < t + 1000000000)) ++ [s.now] })) ∧
      (x.updAt + 100000000 ≤ s.now → acts .flowUpdate f) ∧
      (s.flowStopped = true → acts .flowZero 0) ∧
      (s.flowStuck = false → ∃ u, u.flowStuck = true ∧ u.fld Reg.THM_FLOW Fld.THM_FLOW.FLOW = 65535 ∧ u.flow.okSince = none ∧ Only [.regs, .flow] s u ∧
        RegsBut [Reg.THM_STAT, Reg.THM_FLOW] s u ∧ exec .flowStuck s = .next (u.fault Src.FLOW_STUCK panelScope 0)) ∧
      (let w := putBits v.toNat 31 31 1
       let a := entered s r Reg.THM_FLOW_CFG w
       Passes s r Reg.THM_FLOW_CFG w → s.flowStuck = true → ∃ t, exec (.rearm r v) s = .next t ∧ Only [.regs, .flow] a t ∧
         RegsBut [Reg.THM_FLOW_CFG, Reg.THM_STAT, Reg.THM_FLOW] a t ∧ t.flowStuck = false ∧ t.fld Reg.THM_FLOW Fld.THM_FLOW.FLOW = 0 ∧
         t.flow = { x with since := s.now, pulses := [], last := none, okSince := none }) ∧
      (let a := entered s r Reg.THM_FLOW_CNT v.toNat
       Passes s r Reg.THM_FLOW_CNT v.toNat → ∃ t, exec (.thmFlowCntClear r v) s = .next t ∧ t.rdN Reg.THM_FLOW_CNT = 0 ∧ Only [.regs] a t ∧ RegsBut [Reg.THM_FLOW_CNT] a t) ∧
      (∀ at', x.critAt = some at' → at' + 50000 ≤ s.now → ∃ t, exec .shutdownLinkOff s = .next t ∧ t.boot.link = false ∧ t.flow.critAt = none ∧
        t.boot.fullAt = some (s.boot.fullAt.getD s.now) ∧ t.boot.keepLink = false ∧ t.flash = s.flash) ∧
      (∀ i i2 o o2 : Fin 4096, x.failed = [] → (∀ p ∈ [(0, i.val), (1, i2.val), (2, o.val), (3, o2.val)], sampleBad 10 (SMap.find? x.coolant p.1) p.2 = false) →
        ∃ t, exec (.coolantSample i i2 o o2) s = .next t ∧ t.flow.failed = [] ∧ SMap.find? t.flow.coolant 0 = some i.val ∧ SMap.find? t.flow.coolant 2 = some o.val ∧
          (500 ≤ i.val → t.fld Reg.THM_COOLANT Fld.THM_COOLANT.INLET = i.val - 500) ∧ (500 ≤ o.val → t.fld Reg.THM_COOLANT Fld.THM_COOLANT.OUTLET = o.val - 500) ∧
          ((i.val < 680 ∨ 900 < i.val) → t.flag Reg.THM_STAT Fld.THM_STAT.INLET_RANGE = true) ∧
          (685 ≤ i.val → i.val ≤ 895 → t.flag Reg.THM_STAT Fld.THM_STAT.INLET_RANGE = false) ∧
          (685 ≤ i.val → i.val ≤ 895 → s.flowStuck = false → Only [.regs, .flow] s t ∧ RegsBut [Reg.THM_COOLANT, Reg.THM_STAT] s t) ∧
          (s.flowStuck = true → i.val + 250 < o.val → t.flag Reg.THM_STAT Fld.THM_STAT.FLOW_LOW = true) ∧
          (s.flowStuck = true → o.val ≤ i.val + 250 → t.flag Reg.THM_STAT Fld.THM_STAT.FLOW_LOW = false)) ∧
      (∀ k, k < 4 → SMap.getD x.failed k false = false → ∀ i i2 o o2 : Fin 4096, sampleBad 10 (SMap.find? x.coolant k) ([i.val, i2.val, o.val, o2.val].getD k 0) = true →
        ∃ t, exec (.coolantSample i i2 o o2) s = .next t ∧ SMap.getD t.flow.failed k false = true ∧ t.flag Reg.THM_STAT Fld.THM_STAT.SENSOR = true))

/-! ### Easel, the mailbox and the change record (20_easel_security_record) -/

/-- R516, R517, R518, R520: every operation is a request with its OPCODE and payload; on a host mailbox its response is put in the port's buffer with DONE and STATUS, one
written while another runs is discarded with REJ, and the management port and the sideband answer with a frame, tagged in a session.
The model's own choices it rests on: log 6, 87, 138, 139, 140, 142, 143, 167. -/
def Obligations.MailboxRequestsAreAnswered : Prop :=
  ∀ (s : State) (src : MbSrc) (seq : Word) (how : MbHow) (b32 : Vector Byte 32) (b68 : Vector Byte 68) (kind found : Fin 256) (w v : Word) (q : Word64)
    (data : List Byte) (count : Fin 65536) (reason : Byte),
    (∀ (cmd : Instr) (op : Nat) (pl : List Byte) (fd : Nat), (cmd, op, pl, fd) ∈ [
        (.info src seq how, 0x01, [], 0), (.getCert src seq how, 0x02, [], 0), (.attest src seq how b32, 0x03, b32.toList, 0),
        (.imgBegin src seq how kind w, 0x10, leBytes 1 kind ++ leBytes 3 0 ++ leBytes 4 w.toNat, 0),
        (.imgChunk src seq how w data, 0x11, leBytes 4 w.toNat ++ leBytes 4 0 ++ data.take 4072, 0), (.imgEnd src seq how, 0x12, [], 0),
        (.imgAbort src seq how, 0x13, [], 0), (.fwActivate src seq how found, 0x14, [], found.val), (.handover src seq how kind, 0x20, leBytes 1 kind, 0),
        (.accept src seq how, 0x21, [], 0), (.setOwner src seq how kind, 0x22, leBytes 1 kind, 0), (.setToken src seq how b32, 0x23, b32.toList, 0),
        (.ownerKey src seq how kind b68, 0x24, leBytes 1 kind ++ leBytes 3 0 ++ b68.toList, 0), (.chainKey src seq how b32, 0x25, b32.toList, 0),
        (.superviseNext src seq how, 0x26, [], 0), (.logRead src seq how q count, 0x30, leBytes 8 q.toNat ++ leBytes 2 count, 0),
        (.logCheckpoint src seq how q, 0x31, leBytes 8 q.toNat, 0), (.defectRead src seq how w count, 0x32, leBytes 4 w.toNat ++ leBytes 2 count, 0),
        (.telemetry src seq how, 0x33, [], 0), (.verdict src seq how count w reason, 0x40, leBytes 2 count ++ leBytes 2 0 ++ leBytes 4 w.toNat ++ [reason], 0),
        (.regRead src seq how w, 0x50, leBytes 4 w.toNat ++ leBytes 4 0, 0), (.regWrite src seq how w v, 0x51, leBytes 4 w.toNat ++ leBytes 4 v.toNat, 0),
        (.open src seq how, 0x60, [], 0), (.prove src seq how b32, 0x61, b32.toList, 0), (.close src seq how, 0x62, [], 0)] →
      let stat := fun p => Reg.EZ_MB_STAT p
      (∀ p, src = .port p → s.portUp p = true →
        (s.flag (stat p) Fld.EZ_MB_STAT.BUSY = false → s.duties = true → ∀ m x, (filed s p op seq.toNat pl).mbRequest src op pl true how fd = (m, x) →
          exec cmd s = .next (m.mbDone p seq.toNat x)) ∧
        (s.flag (stat p) Fld.EZ_MB_STAT.BUSY = true → ∃ t, exec cmd s = .next t ∧ Only [.mbox, .regs] s t ∧ RegsBut [stat p] s t ∧
          t.flag (stat p) Fld.EZ_MB_STAT.REJ = true)) ∧
      (s.session.isOpen = false → ∀ m x, s.mbRequest src op pl true how fd = (m, x) →
        (src = .mgmt → s.mbServed .mgmt = true → exec cmd s = .next (m.emit (.mgmt (x.bytes seq.toNat)))) ∧
        (src = .i3c → s.duties = true → exec cmd s = .next (m.emit (.i3c (x.bytes seq.toNat))))) ∧
      (s.session.isOpen = true → src = .mgmt → s.mbServed .mgmt = true →
        ∀ m x, (s.onSession fun y => { y with rx := y.rx + 1, at' := s.now }).mbRequest src op pl true how fd = (m, x) → m.session.isOpen = true →
          exec cmd s = .next (m.mgmtSend true (x.bytes seq.toNat)))) ∧
    (∀ (m : State) (p : HostIx) (x : MbResp) (n : Nat),
      let t := m.mbDone p n x
      let a := Reg.EZ_MB_STAT p
      Only [.mbox, .regs, .msixPend, .out] m t ∧ RegsBut [a] m t ∧ t.flag a Fld.EZ_MB_STAT.BUSY = false ∧ t.flag a Fld.EZ_MB_STAT.DONE = true ∧
        t.fld a Fld.EZ_MB_STAT.STATUS = x.status % 256 ∧ Memory.readN t.mbox (mbRspAt p) (x.bytes n).length = x.bytes n) ∧
    (∀ (op n : Nat) (pl : List Byte), op < 65536 → n < 2 ^ 32 → pl.length ≤ 4080 → s.mbServed .mgmt = true →
      let body := mbBytes op n pl
      (s.session.isOpen = false → ∀ m x, s.mbRequest .mgmt op pl true how 0 = (m, x) → exec (.mgmtFrame body how) s = .next (m.emit (.mgmt (x.bytes n)))) ∧
      (∀ nonce token, s.session.isOpen = true → s.session.nonce = some nonce → s.flash.token = some token →
        let tag := kmac token (nonce ++ leBytes 8 s.session.rx ++ body) (label "LMY SESSION")
        (∀ m x, (s.onSession fun y => { y with rx := y.rx + 1, at' := s.now }).mbRequest .mgmt op pl true how 0 = (m, x) → m.session.isOpen = true →
          exec (.mgmtFrame (body ++ tag) how) s = .next (m.mgmtSend true (x.bytes n))) ∧
        (∀ other, other.length = 32 → other ≠ tag → exec (.mgmtFrame (body ++ other) how) s = .next s)))

/-- R507 to R511, R515, R517 to R525, R531: an operation of known opcode, good payload and sufficient right has its effect and status, and any other is refused with
its status and no effect.
The model's own choices it rests on: log 4, 5, 6, 62, 138, 139, 141, 144, 145, 146, 147, 148, 149, 150, 151, 152, 153, 154, 155, 157. -/
def Obligations.MailboxOperationsActByRight : Prop :=
  ∀ (s : State) (src : MbSrc),
    let f := s.flash
    let run := fun (op : Nat) (pl : List Byte) => s.mbRequest src op pl true .run 0
    let bad := fun (n : Nat) => (⟨n, [], 0, 0⟩ : MbResp)
    let good := fun (data : List Byte) => (⟨0, data, 0, 0⟩ : MbResp)
    let sets := fun (op : Nat) (pl : List Byte) (more : List Part) (p : Flash → Prop) => s.mbMay src op = true →
      (s.easel.sigNext < 2 ^ 40 → (∃ t, run op pl = (t, good []) ∧ p t.flash ∧ (s.capture.length < 4096 → ∃ y, t.capture = s.capture ++ [y] ∧ y.kind = 7) ∧ Only (more ++ [.regs, .capture, .gapEvents, .flash, .easel]) s t) ∧
        s.mbRequest src op pl true .flashFails 0 = (s, bad 7)) ∧ (2 ^ 40 ≤ s.easel.sigNext → run op pl = (s, bad 0xA))
    (∀ (op : Nat) (pl : List Byte) (fits : Bool) (found : Nat),
      (∃ x, s.mbRequest src op pl fits .busy found = (s.fresh, x) ∧ x.status = 1 ∧ 100 ≤ x.retry ∧ x.retry ≤ 65535 ∧ x.data = []) ∧
      s.mbRequest src op pl fits .interrupted found = (s, bad 8) ∧
      ∀ how, (how = .run ∨ how = .flashFails) →
        (mbKnown op = false → s.mbRequest src op pl fits how found = (s, bad 2)) ∧
        (mbKnown op = true → (fits = false ∨ mbArgsOk op pl = false) → s.mbRequest src op pl fits how found = (s, bad 3)) ∧
        (mbKnown op = true → fits = true → mbArgsOk op pl = true → s.mbMay src op = false → s.mbRequest src op pl fits how found = (s, bad 4))) ∧
    -- identity
    (s.mbMay src 1 = true → run 1 [] = (s, good (s.regBytes Reg.EZ_INFO ++ s.regBytes Reg.EZ_FW_SVN ++ s.regBytes (Reg.SEC_SERIAL 0) ++
      s.regBytes (Reg.SEC_SERIAL 1) ++ s.regBytes Reg.SEC_ROLE))) ∧
    (s.mbMay src 2 = true → run 2 [] = (s, good (slice Config.deviceCertificate 0 2948))) ∧
    (∀ nonce : Vector Byte 32, s.mbMay src 3 = true → s.easel.sigNext < 2 ^ 40 → ∃ t, run 3 nonce.toList = (t, good (s.report nonce.toList ++
      devSig s.easel.sigNext (shake (s.report nonce.toList)))) ∧ t.easel.sigNext = s.easel.sigNext + 1 ∧ Only [.easel, .flash, .regs] s t) ∧
    -- image deliveries
    (∀ (kind : Nat) (total : Word), s.mbMay src 0x10 = true → (kind = 1 ∧ total.toNat ≤ 0x100000 ∨ kind = 2 ∧ total.toNat ≤ 0x4000000 ∨ kind = 3 ∧ total.toNat = 2884) →
      let pl := leBytes 1 kind ++ leBytes 3 0 ++ leBytes 4 total.toNat
      (s.delivery = none → (s.romWaits = false ∨ kind = 2) → run 0x10 pl =
        ({ s with delivery := some { src := mbNo src, kind := kind, total := total.toNat, at' := s.now } }, good [])) ∧
      (s.delivery.isSome = true → run 0x10 pl = (s, bad 5))) ∧
    (∀ d, s.delivery = some d →
      (∀ (off : Word) (data : List Byte), s.mbMay src 0x11 = true →
        let pl := leBytes 4 off.toNat ++ leBytes 4 0 ++ data
        (d.src = mbNo src → off.toNat + data.length ≤ d.total → run 0x11 pl =
          ({ s with delivery := some { d with chunks := d.chunks ++ [(off.toNat, data)], at' := s.now } }, good [])) ∧
        (d.src ≠ mbNo src → run 0x11 pl = (s, bad 5))) ∧
      (s.mbMay src 0x12 = true → d.src = mbNo src → (d.whole = false → run 0x12 [] = (s, bad 3)) ∧
        (d.whole = true → run 0x12 [] = State.mbImage { s with delivery := none } src d.kind d.bytes true)) ∧
      (s.mbMay src 0x13 = true → d.src = mbNo src → run 0x13 [] = ({ s with delivery := none }, good []))) ∧
    (∀ b : List Byte,
      let gc := groundCode b (s.groundKey b)
      let fc := fwCode b f.minSvn
      (gc = 0 → ∃ t, s.mbImage src 1 b true = (t, good []) ∧ t.flash = { f with pendingGround := some (groundOf b) } ∧ Only [.regs, .capture, .gapEvents, .flash] s t) ∧
      (gc ≠ 0 → ∃ t, s.mbImage src 1 b true = (t, ⟨6, [], gc, 0⟩) ∧ t.flash = f) ∧
      (fc = 0 → ∃ t, s.mbImage src 2 b true = (t, good []) ∧ t.flash.minSvn = max f.minSvn (fwMinSvn b) ∧
        SMap.find? t.flash.slots (1 - s.easel.slot) = some ⟨leAt b 4 4, fwSvn b, fwMinSvn b, slice b (fwBody b) 32⟩ ∧
        SMap.find? t.flash.slots s.easel.slot = SMap.find? f.slots s.easel.slot) ∧
      (fc ≠ 0 → s.mbImage src 2 b true = (s, ⟨6, [], fc, 0⟩)) ∧
      (qualCode b = 0 → ∃ t, s.mbImage src 3 b true = (t, good []) ∧ SMap.find? t.flash.quals (byteAt b 4) = some b ∧ Only [.flash] s t) ∧
      (qualCode b ≠ 0 → s.mbImage src 3 b true = (s, ⟨6, [], qualCode b, 0⟩))) ∧
    (∀ (w : FwSlot) (found : Nat), s.mbMay src 0x14 = true → s.flag Reg.EZ_INFO Fld.EZ_INFO.STANDBY_OK = true → SMap.find? f.slots (1 - s.easel.slot) = some w →
      (found ≠ 0 → s.mbRequest src 0x14 [] true .run found = (s, ⟨6, [], found, 0⟩)) ∧
      (w.svn < f.minSvn → run 0x14 [] = (s, ⟨6, [], 0x20, 0⟩)) ∧
      (f.minSvn ≤ w.svn → ∃ t, run 0x14 [] = (t, good []) ∧ t.easel.slot = 1 - s.easel.slot ∧ t.delivery = none ∧ t.session.isOpen = false ∧
        t.fld Reg.EZ_TAKEOVER Fld.EZ_TAKEOVER.PLANNED = min (s.fld Reg.EZ_TAKEOVER Fld.EZ_TAKEOVER.PLANNED + 1) 255 ∧
        t.fld Reg.EZ_INFO Fld.EZ_INFO.ACTIVE = 1 - s.fld Reg.EZ_INFO Fld.EZ_INFO.ACTIVE)) ∧
    -- roles and keys
    (∀ q, q ≤ 1 → s.mbMay src 0x20 = true → (q = f.owner → run 0x20 (leBytes 1 q) = (s, bad 3)) ∧
      (q ≠ f.owner → ∃ t, run 0x20 (leBytes 1 q) = (t, good []) ∧ t.easel.handover = some (q, s.now) ∧ Only [.easel, .regs] s t)) ∧
    (∀ q at', s.easel.handover = some (q, at') → s.mbMay src 0x21 = true → s.easel.sigNext < 2 ^ 40 →
      (s.now ≤ at' + 10000000000 → ∃ t, run 0x21 [] = (t, good []) ∧ t.flash.owner = q ∧ t.easel.handover = none) ∧
      (at' + 10000000000 < s.now → run 0x21 [] = (s, bad 5))) ∧
    (∀ q, q ≤ 1 → sets 0x22 (leBytes 1 q) [] fun g => g.owner = q) ∧
    (∀ k : Vector Byte 32, (sets 0x23 k.toList [] fun g => g.token = keyOrNone k.toList) ∧ (sets 0x25 k.toList [] fun g => g.chainKey = some k.toList)) ∧
    (∀ (n : Nat) (k : Vector Byte 68), 1 ≤ n → n ≤ 3 → sets 0x24 (leBytes 1 n ++ leBytes 3 0 ++ k.toList) [] fun g => SMap.find? g.ownerKeys n = keyOrNone k.toList) ∧
    (sets 0x26 [] [.freeCtr] fun g => g.supervise = true) ∧
    -- the record, the list, telemetry and verdicts
    (∀ (q : Word64) (n : Nat), 1 ≤ n → n ≤ 255 → s.mbMay src 0x30 = true → run 0x30 (leBytes 8 q.toNat ++ leBytes 2 n) = (s, good (f.entries q.toNat n))) ∧
    (∀ q : Word64, s.mbMay src 0x31 = true →
      (∀ c, f.checkpoints.find? (fun (c : Checkpoint) => c.seq == q.toNat) = some c → run 0x31 (leBytes 8 q.toNat) = (s, good (leBytes 8 c.seq ++ c.link ++ c.sig))) ∧
      (f.checkpoints.find? (fun (c : Checkpoint) => c.seq == q.toNat) = none → run 0x31 (leBytes 8 q.toNat) = (s, bad 3))) ∧
    (∀ (q : Word) (n : Nat), 1 ≤ n → n ≤ 2043 → s.mbMay src 0x32 = true → run 0x32 (leBytes 4 q.toNat ++ leBytes 2 n) =
      (s, good (Config.defectHeader f.defects.length ++ ((f.defects.drop q.toNat).take n).flatMap DefectEnt.bytes))) ∧
    (s.mbMay src 0x33 = true → s.easel.telemetry ≠ [] → run 0x33 [] = (s, good s.easel.telemetry)) ∧
    (∀ (panel : Fin 65536) (epoch : Word) (why : Byte), s.mbMay src 0x40 = true →
      let pl := leBytes 2 panel ++ leBytes 2 0 ++ leBytes 4 epoch.toNat ++ [why]
      (f.chainKey = none → run 0x40 pl = (s, bad 5)) ∧
      (∀ k, f.chainKey = some k →
        let head := leBytes 2 panel ++ leBytes 2 s.panelNo ++ leBytes 4 epoch.toNat ++ [why] ++ leBytes 23 0
        ∃ t, run 0x40 pl = (t, good []) ∧ t.verdictIn = s.verdictIn ++ [head ++ verdictTag k head] ∧ t.hbm = s.hbm ∧ t.flash = f)) ∧
    -- registers and sessions
    (∀ a v : Word, a.toNat % 4 = 0 → a.toNat < 0x10000000 →
      (s.mbMay src 0x50 = true → (s.mayRead .service a.toNat = false → run 0x50 (leBytes 4 a.toNat ++ leBytes 4 v.toNat) = (s, bad 4)) ∧
        (s.mayRead .service a.toNat = true → mailboxOf a.toNat = none → run 0x50 (leBytes 4 a.toNat ++ leBytes 4 v.toNat) =
          ((s.latchRead a.toNat).1, good (leBytes 4 (s.latchRead a.toNat).2)))) ∧
      (s.mbMay src 0x51 = true → (s.mayWrite .service a.toNat = false → run 0x51 (leBytes 4 a.toNat ++ leBytes 4 v.toNat) = (s, bad 4)) ∧
        (s.mayWrite .service a.toNat = true → s.capture.length < 4032 → run 0x51 (leBytes 4 a.toNat ++ leBytes 4 v.toNat) =
          (s.regWrite .service a.toNat v.toNat, good [])))) ∧
    (s.mbMay src 0x60 = true → s.session.isOpen = false → s.session.blocked ≤ s.now → ∃ n, run 0x60 [] =
      (s.onSession fun x => { x with nonce := some n, nonces := x.nonces + 1 }, good n) ∧ n.length = 32) ∧
    (∀ (n key : List Byte) (proof : Vector Byte 32), s.mbMay src 0x61 = true → s.session.isOpen = false → s.session.nonce = some n → f.token = some key →
      let want := kmac key n (label "LMY SERVICE")
      (want = proof.toList → ∃ t, run 0x61 proof.toList = (t, good []) ∧ t.session = { s.session with isOpen := true, rx := 0, tx := 0, at' := s.now } ∧
        Only [.session, .regs, .capture, .gapEvents] s t) ∧
      (want ≠ proof.toList → run 0x61 proof.toList = (s.onSession fun x => { x with nonce := none, blocked := s.now + 10000000000 }, bad 9))) ∧
    (s.mbMay src 0x62 = true → s.session.isOpen = true → ∃ t, run 0x62 [] = (t, good []) ∧ t.session = { s.session with isOpen := false, nonce := none } ∧
      Only [.session, .regs, .capture, .gapEvents] s t)

/-- R500 to R507, R519, R520, R524 to R530, R389, R390: Easel sheds load in steps, is taken over by its standby or stops, resumes and answers what was in progress, drains
the capture FIFO into the chained record, appends findings, samples telemetry, counts verdicts towards an expulsion, and lets sessions, deliveries and offers lapse.
The model's own choices it rests on: log 4, 5, 63, 140, 156, 158, 159, 160, 161, 162, 163. -/
def Obligations.EaselKeepsItsRecordAndDuties : Prop :=
  ∀ (s : State) (r : Req),
    let z := s.easel
    let info := Reg.EZ_INFO
    (∀ load : Fin 101, s.duties = true →
      let since := z.coolSince.getD (s.now - 10000000)
      (90 ≤ load.val → ∃ u, u.shed = min 3 (s.shed + 1) ∧ u.easel = { z with coolSince := none } ∧ Only [.regs, .easel] s u ∧ RegsBut [info] s u ∧
        (s.shed ≠ 0 → exec (.easelLoadWindow load) s = .next u) ∧ (s.shed = 0 → exec (.easelLoadWindow load) s = .next (u.fault Src.EASEL_SHED panelScope 0))) ∧
      (70 ≤ load.val → load.val < 90 → ∃ t, exec (.easelLoadWindow load) s = .next t ∧ Only [.easel] s t ∧ t.easel = { z with coolSince := none }) ∧
      (load.val < 70 → ∃ t, exec (.easelLoadWindow load) s = .next t ∧ Only [.regs, .easel] s t ∧ RegsBut [info] s t ∧
        (since + 100000000 ≤ s.now → t.shed = s.shed - 1 ∧ t.easel = { z with coolSince := some s.now }) ∧
        (s.now < since + 100000000 → t.shed = s.shed ∧ t.easel = { z with coolSince := some since }))) ∧
    (∀ cause : Fin 2, s.duties = true →
      (s.flag info Fld.EZ_INFO.STANDBY_OK = false → exec (.easelTakeover cause) s = .next (s.onEasel fun x => { x with stopped := true })) ∧
      (s.flag info Fld.EZ_INFO.STANDBY_OK = true → ∃ u, exec (.easelTakeover cause) s = .next (u.fault Src.EASEL_TAKEOVER panelScope 0) ∧
        Only [.regs, .easel, .delivery, .session, .capture, .gapEvents] s u ∧ u.fld info Fld.EZ_INFO.ACTIVE = 1 - s.fld info Fld.EZ_INFO.ACTIVE ∧
        u.flag info Fld.EZ_INFO.STANDBY_OK = false ∧ u.fld Reg.EZ_TAKEOVER Fld.EZ_TAKEOVER.CAUSE = cause.val + 1 ∧
        u.fld Reg.EZ_TAKEOVER Fld.EZ_TAKEOVER.UNPLANNED = min (s.fld Reg.EZ_TAKEOVER Fld.EZ_TAKEOVER.UNPLANNED + 1) 255 ∧ u.delivery = none ∧
        u.session.isOpen = false ∧ u.easel = { z with takeoverAt := some s.now, sigNext := s.flash.journal, former := true })) ∧
    (z.takeoverAt.isSome = true → ∃ t, exec .easelResume s = .next t ∧ Only [.regs, .easel, .mbox, .msixPend, .out] s t ∧ t.easel = { z with takeoverAt := none } ∧
      ∀ p : HostIx, (s.flag (Reg.EZ_MB_STAT p) Fld.EZ_MB_STAT.BUSY = true → t.flag (Reg.EZ_MB_STAT p) Fld.EZ_MB_STAT.DONE = true ∧
          t.fld (Reg.EZ_MB_STAT p) Fld.EZ_MB_STAT.STATUS = 8) ∧ t.flag (Reg.EZ_MB_STAT p) Fld.EZ_MB_STAT.BUSY = false) ∧
    (∀ d, s.delivery = some d → d.at' + 60000000000 ≤ s.now → exec .imgIdleTimeout s = .next { s with delivery := none }) ∧
    (∀ q at', z.handover = some (q, at') → at' + 10000000000 ≤ s.now → ∃ t, exec .handoverLapse s = .next t ∧ t.easel = { z with handover := none } ∧
      t.flag Reg.SEC_ROLE Fld.SEC_ROLE.HANDOVER = false ∧ Only [.easel, .regs] s t) ∧
    (s.session.isOpen = true → s.session.at' + 600000000000 ≤ s.now → ∃ t, exec .sessionIdle s = .next t ∧
      t.session = { s.session with isOpen := false, nonce := none } ∧ Only [.session, .regs, .capture, .gapEvents] s t) ∧
    -- the record
    (s.duties = true → ∀ x rest, s.capture = x :: rest → s.flash.seq % 4096 ≠ 4095 →
      let q := s.flash.seq
      let head := s.entryHead q x
      let link := shake (s.flash.prevLink ++ head)
      ∃ t, exec (.logDrain 1) s = .next t ∧ Only [.regs, .flash, .capture, .gapWrites, .gapEvents] s t ∧ t.flash.seq = q + 1 ∧ t.flash.link = link ∧
        SMap.find? t.flash.record q = some (head ++ link) ∧ (524288 ≤ q → q % 4096 ≠ 4095 → SMap.find? t.flash.record (q - 524288) = none) ∧
        (s.gapWrites = 0 → s.gapEvents = 0 → t.capture = rest)) ∧
    (s.duties = true → s.capture = [] → (s.gapWrites ≠ 0 ∨ s.gapEvents ≠ 0) → ∃ t, exec (.logDrain 1) s = .next t ∧ t.gapWrites = 0 ∧ t.gapEvents = 0 ∧
      t.capture = [⟨s.ticks, 0x0E, 4, 0, 0, s.gapWrites, s.gapEvents, []⟩] ∧ t.flash = s.flash) ∧
    (∀ v : Word, Passes s r (Reg.LOG_UTC 1) v.toNat → ∃ t, exec (.logUtcCommit r v) s = .next t ∧
      t.utc = some (v.toNat * 2 ^ 32 + s.rdN (Reg.LOG_UTC 0), s.ticks) ∧ t.hbm = s.hbm ∧ t.flash = s.flash) ∧
    (∀ d rest, s.defectQ = d :: rest → s.duties = true → s.flash.defects.length < 262080 → ∃ t, exec .defectAppend s = .next t ∧
      Only [.defectQ, .regs, .engines, .flash, .easel, .capture, .gapEvents] s t ∧ t.defectQ = rest ∧ t.flash.defects = s.flash.defects ++ [⟨d, s.ticks⟩] ∧
      t.fld Reg.PNL_DEFECT Fld.PNL_DEFECT.ENTRIES = s.flash.defects.length + 1 ∧ (d.engine < 48 → (t.eng d.engine).sup.grown = true)) ∧
    (s.duties = true → z.telemetryAt + (if s.shed = 3 then 100000000 else 1000000) ≤ s.now → ∃ t, exec .telemetrySample s = .next t ∧ Only [.easel, .flash] s t ∧
      t.easel = { z with telemetry := s.sample, telemetryAt := s.now } ∧ t.flash.history.getLast? = some s.sample) ∧
    -- verdicts
    (∀ x rest, s.verdictIn = x :: rest → s.duties = true →
      (s.verdictOk x = false → ∃ t, exec .verdictCheck s = .next t ∧ Only [.verdictIn, .regs] s t ∧ RegsBut [Reg.LNK_QUORUM] s t ∧ t.verdictIn = rest ∧
        t.fld Reg.LNK_QUORUM Fld.LNK_QUORUM.BAD = min (s.fld Reg.LNK_QUORUM Fld.LNK_QUORUM.BAD + 1) 65535) ∧
      (s.verdictOk x = true →
        let v : Nat × Nat × Nat := (leAt x 0 2, leAt x 4 4, leAt x 2 2)
        let l := if z.verdicts.contains v then z.verdicts else z.verdicts ++ [v]
        let votes := (l.filter fun (u : Nat × Nat × Nat) => u.1 == v.1 && u.2.1 == v.2.1).length
        (2 * votes ≤ s.managers.length → ∃ t, exec .verdictCheck s = .next t ∧ Only [.verdictIn, .easel] s t ∧ t.verdictIn = rest ∧ t.easel = { z with verdicts := l }) ∧
        (s.managers.length < 2 * votes → ∀ i : Fin 16, (∀ j, j < i → s.flag (Reg.LNK_EXPEL j) Fld.LNK_EXPEL.VALID = true) →
          s.flag (Reg.LNK_EXPEL i) Fld.LNK_EXPEL.VALID = false → ∃ t, exec .verdictCheck s = .next t ∧ t.verdictIn = rest ∧ t.expelled v.1 = true ∧
            SMap.find? t.easel.epochs v.1 = some v.2.1 ∧ t.hbm = s.hbm)))

/-! ### The control space (00_scope) -/

/-- R5, R7, R8, R10: a 32-bit write of a register with no behaviour of its own sets its RW fields, clears an RW1C bit by a 1, and leaves RO fields and
reserved bits; a 64-bit write covers two adjacent registers, the lower first; any other size or alignment has no effect.
The model's own choices it rests on: log 132, 135. -/
def Obligations.RegisterWritesSetFields : Prop :=
  ∀ (s : State) (r : Req) (e : EngIx) (p : HostIx) (g : Fin 4) (w : Fin 8) (v : Word64),
    let at32 := v.toNat % 2 ^ 32
    let whole := ∀ q f, r = .host q f → f.val = 0
    let sets := fun (a x y n : Nat) => ∀ f ∈ regFields a, match f.acc with
      | .rw => bits y f.hi f.lo = bits n f.hi f.lo
      | .w1c => ∀ i, f.lo ≤ i → i ≤ f.hi → bit y i = (bit x i && !bit n i)
      | .ro | .wo => bits y f.hi f.lo = bits x f.hi f.lo
    (whole → ∀ off : Fin 0x10000000, off.val ∈ [Reg.NET_WDOG e, Reg.NET_INJ e, Reg.NET_FAULT e, Reg.NET_ABORT_STAT e, Reg.PT_CTX_SEL e, Reg.HP_WIN p w,
        Reg.SK_GUEST_ACCESS g, Reg.SK_GUEST_TIMEOUT g, Reg.PWR_LIMIT, Reg.FLT_LOG_SEL, Reg.LOG_UTC 0] → Passes s r off at32 →
      let a := entered s r off at32
      ∃ t, exec (.registerWrite r false off 4 v) s = .next t ∧ Only [.regs] a t ∧ RegsBut [off] a t ∧ sets off (a.rdN off) (t.rdN off) at32 ∧
        ∀ i : Fin 32, (∀ f ∈ regFields off, i.val < f.lo ∨ f.hi < i.val) → bit (t.rdN off) i = bit (a.rdN off) i) ∧
    (whole → s.reqLive r = true → s.mayWrite r (Reg.HP_WIN p (2 * w)) = true → s.mayWrite r (Reg.HP_WIN p (2 * w + 1)) = true → s.capture.length < 4032 →
      ∀ off : Fin 0x10000000, off.val = Reg.HP_WIN p (2 * w) →
      ∃ t, exec (.registerWrite r false off 8 v) s = .next t ∧ Only [.regs, .capture] s t ∧ RegsBut [off, off + 4, Reg.LOG_STAT] s t ∧
        sets off (s.rdN off) (t.rdN off) at32 ∧ sets off (s.rdN (off + 4)) (t.rdN (off + 4)) (v.toNat / 2 ^ 32) ∧ t.capture.length = s.capture.length + 1) ∧
    (∀ (b : Bool) (off : Fin 0x10000000) (n : Fin 17), (n.val ≠ 4 ∧ n.val ≠ 8) ∨ off.val % n.val ≠ 0 → exec (.registerWrite r b off n v) s = .next s)

/-- R12, R13, R333, R334: a write of a reserved range is discarded and a read of it returns 0; the block of an engine that is held in reset or powered down reads as all ones and
takes no write, and that of a contained engine is read but takes no write; a write that its function may not make is discarded with code ACCESS. -/
def Obligations.ReservedDownAndForeignBlocks : Prop :=
  ∀ (s : State) (r : Req) (off : Fin 0x10000000) (v : Word64),
    let o := off.val
    (∀ q f, r = .host q f → f.val = 0) → o % 4 = 0 → s.reqLive r = true →
      (((0xA00000 ≤ o ∧ o < 0x1000000) ∨ 0xD000000 ≤ o) → exec (.registerWrite r false off 4 v) s = .next s) ∧
      (inEngine o = true → s.mayWrite r o = true → (s.engineUp (engineOf o) = false ∨ (s.eng (engineOf o)).contained = true) → s.capture.length < 4032 →
        ∃ t, exec (.registerWrite r false off 4 v) s = .next t ∧ Only [.capture, .regs] s t ∧ ∀ a, inEngine a = true → t.rd a = s.rd a) ∧
      (inEngine o = true → s.mayRead r o = true → SMap.find? s.latches o = none →
        (s.engineUp (engineOf o) = false → s.ctlRead r o = (s, some 0xFFFFFFFF)) ∧
        (s.engineUp (engineOf o) = true → (s.ctlRead r o).2 = some (s.engRead' (engineOf o) o))) ∧
      (((0xA00000 ≤ o ∧ o < 0x1000000) ∨ 0xD000000 ≤ o) → r ≠ .service → SMap.find? s.latches o = none → SMap.find? s.regs o = none → (s.ctlRead r o).2 = some 0) ∧
      (∀ q f, r = .host q f → s.mayWrite r o = false → mailboxOf o = none → ¬ (inEngine o = true ∧ engOff o = 0x80028) →
        exec (.registerWrite r false off 4 v) s = .next (s.werr q f.val 1 0xC (barOffset r o)))

/-! ### The machine as a whole -/

/-- A step takes the command at the front of the queue and carries it out on the state with the queue's rest. -/
def Obligations.StepTakesFrontCommand : Prop :=
  ∀ (s : State) (c : Instr) (rest : List Instr), s.pending = c :: rest →
    step s = exec c { s with pending := rest } ∧ ∃ t, step s = .next t ∧ t.pending = rest

/-- With no command waiting a step is one tick: 1 ns of the always-on time passes and every cell and die reset in progress ends (the model's choice).
The model's own choices it rests on: log 66. -/
def Obligations.IdleStepIsOneTick : Prop :=
  ∀ s : State, s.pending = [] → ∃ t, step s = .next t ∧ t = s.tick ∧ t.now = s.now + 1 ∧ t.hbm = s.hbm ∧ t.pending = [] ∧
    (∀ e d c, (t.cell e d c).held = false) ∧ Only [.now, .master, .regs, .engines, .cells, .fabs, .beat] s t

/-- Every command goes on: it has its effect or leaves the state, and none touches the queue.
The model's own choices it rests on: log 175. -/
def Obligations.EveryCommandGoesOn : Prop :=
  ∀ (c : Instr) (s : State), ∃ t, exec c s = .next t ∧ t.pending = s.pending

/-- Every step keeps the stores of the panel, the stacks and the mailbox buffers, in their one canonical form. -/
def Obligations.StepKeepsStoresCanonical : Prop :=
  ∀ s t : State, Safety.StoresWf s → step s = .next t → Safety.StoresWf t

/-- The stores are in canonical form right after reset. -/
def Obligations.ResetStoresCanonical : Prop := Safety.StoresWf State.reset ∧ State.reset.pending = [] ∧ State.reset.mbox = []

/-- R526, R530: SEQ of the change record is never set back by any step, and while it stands the entries and the chain value LINK stand too.
The model's own choices it rests on: log 4. -/
def Obligations.ChangeRecordOnlyGrows : Prop :=
  ∀ s t : State, step s = .next t → s.flash.seq ≤ t.flash.seq ∧
    (t.flash.seq = s.flash.seq → t.flash.record = s.flash.record ∧ t.flash.link = s.flash.link)

/-- R417, R442, R463: the ground image in force, the near split and the primary FEIDs change at the verification of a bring-up, at a full reset and at the loss of
the always-on supply, and by no other command.
The model's own choices it rests on: log 71, 75. -/
def Obligations.GroundImageChangesOnlyAtBringUp : Prop :=
  ∀ (c : Instr) (s t : State), (∀ x, c ≠ .groundVerify x) → (∀ m a b d x, c ≠ .fullResetApply m a b d x) → c ≠ .aux3v3Loss → exec c s = .next t →
    t.ground = s.ground ∧ t.limit = s.limit ∧ t.primary = s.primary

/-- R6: right after reset every register reads the reset value of its fields; no engine is up, each is powered down and not contained, its canvas is EMPTY; the ports are down, no
fault is logged, nothing waits in the capture FIFO, the cadence count is 0. The empty flash and the stacks reading 0 are the model's choices (logs 3, 71).
The model's own choices it rests on: log 3, 71, 72, 78, 178. -/
def Obligations.ResetLeaves : Prop :=
  let s := State.reset
  (∀ a, s.rd a = regReset a) ∧
  (∀ e : EngIx, s.engineUp e = false ∧ (s.eng e).contained = false ∧ s.cvState e = Cv.EMPTY ∧ s.pwr e = Pw.OFF ∧ s.engTicks e = 0) ∧
  (∀ p : HostIx, s.portUp p = false ∧ s.portState p = 0) ∧ (∀ (p : HostIx) (k : Fin 64), s.qcState p k = Qc.FREE) ∧
  s.faultLog = [] ∧ s.capture = [] ∧ s.halted = false ∧ s.ticks = 0 ∧ s.now = 0 ∧ s.flash = { } ∧ s.hbm = [] ∧
  s.fld (Reg.NET_WDOG 0) Fld.NET_WDOG.LIMIT_EXP = 12 ∧ s.fld (Reg.SK_GUEST_TIMEOUT 0) Fld.SK_GUEST_TIMEOUT.US = 100

end
end

