-- ==== Sys2Proof/Laws/State.lean ====
section
/-! SUPPORT. What each update of the state leaves: one lemma per field and update of Machine/Ops.lean, true by `rfl`. -/
namespace Sys2Proof.Machine

@[simp] theorem State.wr_now (s : State) (a v : Nat) : (s.wr a v).now = s.now := rfl
@[simp] theorem State.wr_master (s : State) (a v : Nat) : (s.wr a v).master = s.master := rfl
@[simp] theorem State.wr_freeCtr (s : State) (a v : Nat) : (s.wr a v).freeCtr = s.freeCtr := rfl
@[simp] theorem State.wr_defectQ (s : State) (a v : Nat) : (s.wr a v).defectQ = s.defectQ := rfl
@[simp] theorem State.wr_hbm (s : State) (a v : Nat) : (s.wr a v).hbm = s.hbm := rfl
@[simp] theorem State.wr_limit (s : State) (a v : Nat) : (s.wr a v).limit = s.limit := rfl
@[simp] theorem State.wr_edgeDown (s : State) (a v : Nat) : (s.wr a v).edgeDown = s.edgeDown := rfl
@[simp] theorem State.wr_edgeFeid (s : State) (a v : Nat) : (s.wr a v).edgeFeid = s.edgeFeid := rfl
@[simp] theorem State.wr_primary (s : State) (a v : Nat) : (s.wr a v).primary = s.primary := rfl
@[simp] theorem State.wr_engines (s : State) (a v : Nat) : (s.wr a v).engines = s.engines := rfl
@[simp] theorem State.wr_cells (s : State) (a v : Nat) : (s.wr a v).cells = s.cells := rfl
@[simp] theorem State.wr_fabs (s : State) (a v : Nat) : (s.wr a v).fabs = s.fabs := rfl
@[simp] theorem State.wr_ground (s : State) (a v : Nat) : (s.wr a v).ground = s.ground := rfl
@[simp] theorem State.wr_faultLog (s : State) (a v : Nat) : (s.wr a v).faultLog = s.faultLog := rfl
@[simp] theorem State.wr_cellParity (s : State) (a v : Nat) : (s.wr a v).cellParity = s.cellParity := rfl
@[simp] theorem State.wr_armCopies (s : State) (a v : Nat) : (s.wr a v).armCopies = s.armCopies := rfl
@[simp] theorem State.wr_halted (s : State) (a v : Nat) : (s.wr a v).halted = s.halted := rfl
@[simp] theorem State.wr_capture (s : State) (a v : Nat) : (s.wr a v).capture = s.capture := rfl
@[simp] theorem State.wr_gapWrites (s : State) (a v : Nat) : (s.wr a v).gapWrites = s.gapWrites := rfl
@[simp] theorem State.wr_gapEvents (s : State) (a v : Nat) : (s.wr a v).gapEvents = s.gapEvents := rfl
@[simp] theorem State.wr_events (s : State) (a v : Nat) : (s.wr a v).events = s.events := rfl
@[simp] theorem State.wr_pulseStart (s : State) (a v : Nat) : (s.wr a v).pulseStart = s.pulseStart := rfl
@[simp] theorem State.wr_annDown (s : State) (a v : Nat) : (s.wr a v).annDown = s.annDown := rfl
@[simp] theorem State.wr_annUp (s : State) (a v : Nat) : (s.wr a v).annUp = s.annUp := rfl
@[simp] theorem State.wr_adoptQ (s : State) (a v : Nat) : (s.wr a v).adoptQ = s.adoptQ := rfl
@[simp] theorem State.wr_members (s : State) (a v : Nat) : (s.wr a v).members = s.members := rfl
@[simp] theorem State.wr_packets (s : State) (a v : Nat) : (s.wr a v).packets = s.packets := rfl
@[simp] theorem State.wr_links (s : State) (a v : Nat) : (s.wr a v).links = s.links := rfl
@[simp] theorem State.wr_linkIn (s : State) (a v : Nat) : (s.wr a v).linkIn = s.linkIn := rfl
@[simp] theorem State.wr_colls (s : State) (a v : Nat) : (s.wr a v).colls = s.colls := rfl
@[simp] theorem State.wr_collIn (s : State) (a v : Nat) : (s.wr a v).collIn = s.collIn := rfl
@[simp] theorem State.wr_verdictSeen (s : State) (a v : Nat) : (s.wr a v).verdictSeen = s.verdictSeen := rfl
@[simp] theorem State.wr_verdictIn (s : State) (a v : Nat) : (s.wr a v).verdictIn = s.verdictIn := rfl
@[simp] theorem State.wr_pair (s : State) (a v : Nat) : (s.wr a v).pair = s.pair := rfl
@[simp] theorem State.wr_adoptLost (s : State) (a v : Nat) : (s.wr a v).adoptLost = s.adoptLost := rfl
@[simp] theorem State.wr_ports (s : State) (a v : Nat) : (s.wr a v).ports = s.ports := rfl
@[simp] theorem State.wr_qctx (s : State) (a v : Nat) : (s.wr a v).qctx = s.qctx := rfl
@[simp] theorem State.wr_feeds (s : State) (a v : Nat) : (s.wr a v).feeds = s.feeds := rfl
@[simp] theorem State.wr_cfgSpace (s : State) (a v : Nat) : (s.wr a v).cfgSpace = s.cfgSpace := rfl
@[simp] theorem State.wr_msix (s : State) (a v : Nat) : (s.wr a v).msix = s.msix := rfl
@[simp] theorem State.wr_msixPend (s : State) (a v : Nat) : (s.wr a v).msixPend = s.msixPend := rfl
@[simp] theorem State.wr_beat (s : State) (a v : Nat) : (s.wr a v).beat = s.beat := rfl
@[simp] theorem State.wr_setPend (s : State) (a v : Nat) : (s.wr a v).setPend = s.setPend := rfl
@[simp] theorem State.wr_edgeMark (s : State) (a v : Nat) : (s.wr a v).edgeMark = s.edgeMark := rfl
@[simp] theorem State.wr_stages (s : State) (a v : Nat) : (s.wr a v).stages = s.stages := rfl
@[simp] theorem State.wr_skFail (s : State) (a v : Nat) : (s.wr a v).skFail = s.skFail := rfl
@[simp] theorem State.wr_guestWaits (s : State) (a v : Nat) : (s.wr a v).guestWaits = s.guestWaits := rfl
@[simp] theorem State.wr_guestTag (s : State) (a v : Nat) : (s.wr a v).guestTag = s.guestTag := rfl
@[simp] theorem State.wr_guestHeld (s : State) (a v : Nat) : (s.wr a v).guestHeld = s.guestHeld := rfl
@[simp] theorem State.wr_rampQ (s : State) (a v : Nat) : (s.wr a v).rampQ = s.rampQ := rfl
@[simp] theorem State.wr_input (s : State) (a v : Nat) : (s.wr a v).input = s.input := rfl
@[simp] theorem State.wr_flow (s : State) (a v : Nat) : (s.wr a v).flow = s.flow := rfl
@[simp] theorem State.wr_boot (s : State) (a v : Nat) : (s.wr a v).boot = s.boot := rfl
@[simp] theorem State.wr_flash (s : State) (a v : Nat) : (s.wr a v).flash = s.flash := rfl
@[simp] theorem State.wr_delivery (s : State) (a v : Nat) : (s.wr a v).delivery = s.delivery := rfl
@[simp] theorem State.wr_session (s : State) (a v : Nat) : (s.wr a v).session = s.session := rfl
@[simp] theorem State.wr_mbox (s : State) (a v : Nat) : (s.wr a v).mbox = s.mbox := rfl
@[simp] theorem State.wr_latches (s : State) (a v : Nat) : (s.wr a v).latches = s.latches := rfl
@[simp] theorem State.wr_utc (s : State) (a v : Nat) : (s.wr a v).utc = s.utc := rfl
@[simp] theorem State.wr_easel (s : State) (a v : Nat) : (s.wr a v).easel = s.easel := rfl
@[simp] theorem State.wr_out (s : State) (a v : Nat) : (s.wr a v).out = s.out := rfl
@[simp] theorem State.wr_pending (s : State) (a v : Nat) : (s.wr a v).pending = s.pending := rfl

@[simp] theorem State.setFld_now (s : State) (a : Nat) (f : Fld) (v : Nat) : (s.setFld a f v).now = s.now := rfl
@[simp] theorem State.setFld_master (s : State) (a : Nat) (f : Fld) (v : Nat) : (s.setFld a f v).master = s.master := rfl
@[simp] theorem State.setFld_freeCtr (s : State) (a : Nat) (f : Fld) (v : Nat) : (s.setFld a f v).freeCtr = s.freeCtr := rfl
@[simp] theorem State.setFld_defectQ (s : State) (a : Nat) (f : Fld) (v : Nat) : (s.setFld a f v).defectQ = s.defectQ := rfl
@[simp] theorem State.setFld_hbm (s : State) (a : Nat) (f : Fld) (v : Nat) : (s.setFld a f v).hbm = s.hbm := rfl
@[simp] theorem State.setFld_limit (s : State) (a : Nat) (f : Fld) (v : Nat) : (s.setFld a f v).limit = s.limit := rfl
@[simp] theorem State.setFld_edgeDown (s : State) (a : Nat) (f : Fld) (v : Nat) : (s.setFld a f v).edgeDown = s.edgeDown := rfl
@[simp] theorem State.setFld_edgeFeid (s : State) (a : Nat) (f : Fld) (v : Nat) : (s.setFld a f v).edgeFeid = s.edgeFeid := rfl
@[simp] theorem State.setFld_primary (s : State) (a : Nat) (f : Fld) (v : Nat) : (s.setFld a f v).primary = s.primary := rfl
@[simp] theorem State.setFld_engines (s : State) (a : Nat) (f : Fld) (v : Nat) : (s.setFld a f v).engines = s.engines := rfl
@[simp] theorem State.setFld_cells (s : State) (a : Nat) (f : Fld) (v : Nat) : (s.setFld a f v).cells = s.cells := rfl
@[simp] theorem State.setFld_fabs (s : State) (a : Nat) (f : Fld) (v : Nat) : (s.setFld a f v).fabs = s.fabs := rfl
@[simp] theorem State.setFld_ground (s : State) (a : Nat) (f : Fld) (v : Nat) : (s.setFld a f v).ground = s.ground := rfl
@[simp] theorem State.setFld_faultLog (s : State) (a : Nat) (f : Fld) (v : Nat) : (s.setFld a f v).faultLog = s.faultLog := rfl
@[simp] theorem State.setFld_cellParity (s : State) (a : Nat) (f : Fld) (v : Nat) : (s.setFld a f v).cellParity = s.cellParity := rfl
@[simp] theorem State.setFld_armCopies (s : State) (a : Nat) (f : Fld) (v : Nat) : (s.setFld a f v).armCopies = s.armCopies := rfl
@[simp] theorem State.setFld_halted (s : State) (a : Nat) (f : Fld) (v : Nat) : (s.setFld a f v).halted = s.halted := rfl
@[simp] theorem State.setFld_capture (s : State) (a : Nat) (f : Fld) (v : Nat) : (s.setFld a f v).capture = s.capture := rfl
@[simp] theorem State.setFld_gapWrites (s : State) (a : Nat) (f : Fld) (v : Nat) : (s.setFld a f v).gapWrites = s.gapWrites := rfl
@[simp] theorem State.setFld_gapEvents (s : State) (a : Nat) (f : Fld) (v : Nat) : (s.setFld a f v).gapEvents = s.gapEvents := rfl
@[simp] theorem State.setFld_events (s : State) (a : Nat) (f : Fld) (v : Nat) : (s.setFld a f v).events = s.events := rfl
@[simp] theorem State.setFld_pulseStart (s : State) (a : Nat) (f : Fld) (v : Nat) : (s.setFld a f v).pulseStart = s.pulseStart := rfl
@[simp] theorem State.setFld_annDown (s : State) (a : Nat) (f : Fld) (v : Nat) : (s.setFld a f v).annDown = s.annDown := rfl
@[simp] theorem State.setFld_annUp (s : State) (a : Nat) (f : Fld) (v : Nat) : (s.setFld a f v).annUp = s.annUp := rfl
@[simp] theorem State.setFld_adoptQ (s : State) (a : Nat) (f : Fld) (v : Nat) : (s.setFld a f v).adoptQ = s.adoptQ := rfl
@[simp] theorem State.setFld_members (s : State) (a : Nat) (f : Fld) (v : Nat) : (s.setFld a f v).members = s.members := rfl
@[simp] theorem State.setFld_packets (s : State) (a : Nat) (f : Fld) (v : Nat) : (s.setFld a f v).packets = s.packets := rfl
@[simp] theorem State.setFld_links (s : State) (a : Nat) (f : Fld) (v : Nat) : (s.setFld a f v).links = s.links := rfl
@[simp] theorem State.setFld_linkIn (s : State) (a : Nat) (f : Fld) (v : Nat) : (s.setFld a f v).linkIn = s.linkIn := rfl
@[simp] theorem State.setFld_colls (s : State) (a : Nat) (f : Fld) (v : Nat) : (s.setFld a f v).colls = s.colls := rfl
@[simp] theorem State.setFld_collIn (s : State) (a : Nat) (f : Fld) (v : Nat) : (s.setFld a f v).collIn = s.collIn := rfl
@[simp] theorem State.setFld_verdictSeen (s : State) (a : Nat) (f : Fld) (v : Nat) : (s.setFld a f v).verdictSeen = s.verdictSeen := rfl
@[simp] theorem State.setFld_verdictIn (s : State) (a : Nat) (f : Fld) (v : Nat) : (s.setFld a f v).verdictIn = s.verdictIn := rfl
@[simp] theorem State.setFld_pair (s : State) (a : Nat) (f : Fld) (v : Nat) : (s.setFld a f v).pair = s.pair := rfl
@[simp] theorem State.setFld_adoptLost (s : State) (a : Nat) (f : Fld) (v : Nat) : (s.setFld a f v).adoptLost = s.adoptLost := rfl
@[simp] theorem State.setFld_ports (s : State) (a : Nat) (f : Fld) (v : Nat) : (s.setFld a f v).ports = s.ports := rfl
@[simp] theorem State.setFld_qctx (s : State) (a : Nat) (f : Fld) (v : Nat) : (s.setFld a f v).qctx = s.qctx := rfl
@[simp] theorem State.setFld_feeds (s : State) (a : Nat) (f : Fld) (v : Nat) : (s.setFld a f v).feeds = s.feeds := rfl
@[simp] theorem State.setFld_cfgSpace (s : State) (a : Nat) (f : Fld) (v : Nat) : (s.setFld a f v).cfgSpace = s.cfgSpace := rfl
@[simp] theorem State.setFld_msix (s : State) (a : Nat) (f : Fld) (v : Nat) : (s.setFld a f v).msix = s.msix := rfl
@[simp] theorem State.setFld_msixPend (s : State) (a : Nat) (f : Fld) (v : Nat) : (s.setFld a f v).msixPend = s.msixPend := rfl
@[simp] theorem State.setFld_beat (s : State) (a : Nat) (f : Fld) (v : Nat) : (s.setFld a f v).beat = s.beat := rfl
@[simp] theorem State.setFld_setPend (s : State) (a : Nat) (f : Fld) (v : Nat) : (s.setFld a f v).setPend = s.setPend := rfl
@[simp] theorem State.setFld_edgeMark (s : State) (a : Nat) (f : Fld) (v : Nat) : (s.setFld a f v).edgeMark = s.edgeMark := rfl
@[simp] theorem State.setFld_stages (s : State) (a : Nat) (f : Fld) (v : Nat) : (s.setFld a f v).stages = s.stages := rfl
@[simp] theorem State.setFld_skFail (s : State) (a : Nat) (f : Fld) (v : Nat) : (s.setFld a f v).skFail = s.skFail := rfl
@[simp] theorem State.setFld_guestWaits (s : State) (a : Nat) (f : Fld) (v : Nat) : (s.setFld a f v).guestWaits = s.guestWaits := rfl
@[simp] theorem State.setFld_guestTag (s : State) (a : Nat) (f : Fld) (v : Nat) : (s.setFld a f v).guestTag = s.guestTag := rfl
@[simp] theorem State.setFld_guestHeld (s : State) (a : Nat) (f : Fld) (v : Nat) : (s.setFld a f v).guestHeld = s.guestHeld := rfl
@[simp] theorem State.setFld_rampQ (s : State) (a : Nat) (f : Fld) (v : Nat) : (s.setFld a f v).rampQ = s.rampQ := rfl
@[simp] theorem State.setFld_input (s : State) (a : Nat) (f : Fld) (v : Nat) : (s.setFld a f v).input = s.input := rfl
@[simp] theorem State.setFld_flow (s : State) (a : Nat) (f : Fld) (v : Nat) : (s.setFld a f v).flow = s.flow := rfl
@[simp] theorem State.setFld_boot (s : State) (a : Nat) (f : Fld) (v : Nat) : (s.setFld a f v).boot = s.boot := rfl
@[simp] theorem State.setFld_flash (s : State) (a : Nat) (f : Fld) (v : Nat) : (s.setFld a f v).flash = s.flash := rfl
@[simp] theorem State.setFld_delivery (s : State) (a : Nat) (f : Fld) (v : Nat) : (s.setFld a f v).delivery = s.delivery := rfl
@[simp] theorem State.setFld_session (s : State) (a : Nat) (f : Fld) (v : Nat) : (s.setFld a f v).session = s.session := rfl
@[simp] theorem State.setFld_mbox (s : State) (a : Nat) (f : Fld) (v : Nat) : (s.setFld a f v).mbox = s.mbox := rfl
@[simp] theorem State.setFld_latches (s : State) (a : Nat) (f : Fld) (v : Nat) : (s.setFld a f v).latches = s.latches := rfl
@[simp] theorem State.setFld_utc (s : State) (a : Nat) (f : Fld) (v : Nat) : (s.setFld a f v).utc = s.utc := rfl
@[simp] theorem State.setFld_easel (s : State) (a : Nat) (f : Fld) (v : Nat) : (s.setFld a f v).easel = s.easel := rfl
@[simp] theorem State.setFld_out (s : State) (a : Nat) (f : Fld) (v : Nat) : (s.setFld a f v).out = s.out := rfl
@[simp] theorem State.setFld_pending (s : State) (a : Nat) (f : Fld) (v : Nat) : (s.setFld a f v).pending = s.pending := rfl

@[simp] theorem State.setFlag_now (s : State) (a : Nat) (f : Fld) (b : Bool) : (s.setFlag a f b).now = s.now := rfl
@[simp] theorem State.setFlag_master (s : State) (a : Nat) (f : Fld) (b : Bool) : (s.setFlag a f b).master = s.master := rfl
@[simp] theorem State.setFlag_freeCtr (s : State) (a : Nat) (f : Fld) (b : Bool) : (s.setFlag a f b).freeCtr = s.freeCtr := rfl
@[simp] theorem State.setFlag_defectQ (s : State) (a : Nat) (f : Fld) (b : Bool) : (s.setFlag a f b).defectQ = s.defectQ := rfl
@[simp] theorem State.setFlag_hbm (s : State) (a : Nat) (f : Fld) (b : Bool) : (s.setFlag a f b).hbm = s.hbm := rfl
@[simp] theorem State.setFlag_limit (s : State) (a : Nat) (f : Fld) (b : Bool) : (s.setFlag a f b).limit = s.limit := rfl
@[simp] theorem State.setFlag_edgeDown (s : State) (a : Nat) (f : Fld) (b : Bool) : (s.setFlag a f b).edgeDown = s.edgeDown := rfl
@[simp] theorem State.setFlag_edgeFeid (s : State) (a : Nat) (f : Fld) (b : Bool) : (s.setFlag a f b).edgeFeid = s.edgeFeid := rfl
@[simp] theorem State.setFlag_primary (s : State) (a : Nat) (f : Fld) (b : Bool) : (s.setFlag a f b).primary = s.primary := rfl
@[simp] theorem State.setFlag_engines (s : State) (a : Nat) (f : Fld) (b : Bool) : (s.setFlag a f b).engines = s.engines := rfl
@[simp] theorem State.setFlag_cells (s : State) (a : Nat) (f : Fld) (b : Bool) : (s.setFlag a f b).cells = s.cells := rfl
@[simp] theorem State.setFlag_fabs (s : State) (a : Nat) (f : Fld) (b : Bool) : (s.setFlag a f b).fabs = s.fabs := rfl
@[simp] theorem State.setFlag_ground (s : State) (a : Nat) (f : Fld) (b : Bool) : (s.setFlag a f b).ground = s.ground := rfl
@[simp] theorem State.setFlag_faultLog (s : State) (a : Nat) (f : Fld) (b : Bool) : (s.setFlag a f b).faultLog = s.faultLog := rfl
@[simp] theorem State.setFlag_cellParity (s : State) (a : Nat) (f : Fld) (b : Bool) : (s.setFlag a f b).cellParity = s.cellParity := rfl
@[simp] theorem State.setFlag_armCopies (s : State) (a : Nat) (f : Fld) (b : Bool) : (s.setFlag a f b).armCopies = s.armCopies := rfl
@[simp] theorem State.setFlag_halted (s : State) (a : Nat) (f : Fld) (b : Bool) : (s.setFlag a f b).halted = s.halted := rfl
@[simp] theorem State.setFlag_capture (s : State) (a : Nat) (f : Fld) (b : Bool) : (s.setFlag a f b).capture = s.capture := rfl
@[simp] theorem State.setFlag_gapWrites (s : State) (a : Nat) (f : Fld) (b : Bool) : (s.setFlag a f b).gapWrites = s.gapWrites := rfl
@[simp] theorem State.setFlag_gapEvents (s : State) (a : Nat) (f : Fld) (b : Bool) : (s.setFlag a f b).gapEvents = s.gapEvents := rfl
@[simp] theorem State.setFlag_events (s : State) (a : Nat) (f : Fld) (b : Bool) : (s.setFlag a f b).events = s.events := rfl
@[simp] theorem State.setFlag_pulseStart (s : State) (a : Nat) (f : Fld) (b : Bool) : (s.setFlag a f b).pulseStart = s.pulseStart := rfl
@[simp] theorem State.setFlag_annDown (s : State) (a : Nat) (f : Fld) (b : Bool) : (s.setFlag a f b).annDown = s.annDown := rfl
@[simp] theorem State.setFlag_annUp (s : State) (a : Nat) (f : Fld) (b : Bool) : (s.setFlag a f b).annUp = s.annUp := rfl
@[simp] theorem State.setFlag_adoptQ (s : State) (a : Nat) (f : Fld) (b : Bool) : (s.setFlag a f b).adoptQ = s.adoptQ := rfl
@[simp] theorem State.setFlag_members (s : State) (a : Nat) (f : Fld) (b : Bool) : (s.setFlag a f b).members = s.members := rfl
@[simp] theorem State.setFlag_packets (s : State) (a : Nat) (f : Fld) (b : Bool) : (s.setFlag a f b).packets = s.packets := rfl
@[simp] theorem State.setFlag_links (s : State) (a : Nat) (f : Fld) (b : Bool) : (s.setFlag a f b).links = s.links := rfl
@[simp] theorem State.setFlag_linkIn (s : State) (a : Nat) (f : Fld) (b : Bool) : (s.setFlag a f b).linkIn = s.linkIn := rfl
@[simp] theorem State.setFlag_colls (s : State) (a : Nat) (f : Fld) (b : Bool) : (s.setFlag a f b).colls = s.colls := rfl
@[simp] theorem State.setFlag_collIn (s : State) (a : Nat) (f : Fld) (b : Bool) : (s.setFlag a f b).collIn = s.collIn := rfl
@[simp] theorem State.setFlag_verdictSeen (s : State) (a : Nat) (f : Fld) (b : Bool) : (s.setFlag a f b).verdictSeen = s.verdictSeen := rfl
@[simp] theorem State.setFlag_verdictIn (s : State) (a : Nat) (f : Fld) (b : Bool) : (s.setFlag a f b).verdictIn = s.verdictIn := rfl
@[simp] theorem State.setFlag_pair (s : State) (a : Nat) (f : Fld) (b : Bool) : (s.setFlag a f b).pair = s.pair := rfl
@[simp] theorem State.setFlag_adoptLost (s : State) (a : Nat) (f : Fld) (b : Bool) : (s.setFlag a f b).adoptLost = s.adoptLost := rfl
@[simp] theorem State.setFlag_ports (s : State) (a : Nat) (f : Fld) (b : Bool) : (s.setFlag a f b).ports = s.ports := rfl
@[simp] theorem State.setFlag_qctx (s : State) (a : Nat) (f : Fld) (b : Bool) : (s.setFlag a f b).qctx = s.qctx := rfl
@[simp] theorem State.setFlag_feeds (s : State) (a : Nat) (f : Fld) (b : Bool) : (s.setFlag a f b).feeds = s.feeds := rfl
@[simp] theorem State.setFlag_cfgSpace (s : State) (a : Nat) (f : Fld) (b : Bool) : (s.setFlag a f b).cfgSpace = s.cfgSpace := rfl
@[simp] theorem State.setFlag_msix (s : State) (a : Nat) (f : Fld) (b : Bool) : (s.setFlag a f b).msix = s.msix := rfl
@[simp] theorem State.setFlag_msixPend (s : State) (a : Nat) (f : Fld) (b : Bool) : (s.setFlag a f b).msixPend = s.msixPend := rfl
@[simp] theorem State.setFlag_beat (s : State) (a : Nat) (f : Fld) (b : Bool) : (s.setFlag a f b).beat = s.beat := rfl
@[simp] theorem State.setFlag_setPend (s : State) (a : Nat) (f : Fld) (b : Bool) : (s.setFlag a f b).setPend = s.setPend := rfl
@[simp] theorem State.setFlag_edgeMark (s : State) (a : Nat) (f : Fld) (b : Bool) : (s.setFlag a f b).edgeMark = s.edgeMark := rfl
@[simp] theorem State.setFlag_stages (s : State) (a : Nat) (f : Fld) (b : Bool) : (s.setFlag a f b).stages = s.stages := rfl
@[simp] theorem State.setFlag_skFail (s : State) (a : Nat) (f : Fld) (b : Bool) : (s.setFlag a f b).skFail = s.skFail := rfl
@[simp] theorem State.setFlag_guestWaits (s : State) (a : Nat) (f : Fld) (b : Bool) : (s.setFlag a f b).guestWaits = s.guestWaits := rfl
@[simp] theorem State.setFlag_guestTag (s : State) (a : Nat) (f : Fld) (b : Bool) : (s.setFlag a f b).guestTag = s.guestTag := rfl
@[simp] theorem State.setFlag_guestHeld (s : State) (a : Nat) (f : Fld) (b : Bool) : (s.setFlag a f b).guestHeld = s.guestHeld := rfl
@[simp] theorem State.setFlag_rampQ (s : State) (a : Nat) (f : Fld) (b : Bool) : (s.setFlag a f b).rampQ = s.rampQ := rfl
@[simp] theorem State.setFlag_input (s : State) (a : Nat) (f : Fld) (b : Bool) : (s.setFlag a f b).input = s.input := rfl
@[simp] theorem State.setFlag_flow (s : State) (a : Nat) (f : Fld) (b : Bool) : (s.setFlag a f b).flow = s.flow := rfl
@[simp] theorem State.setFlag_boot (s : State) (a : Nat) (f : Fld) (b : Bool) : (s.setFlag a f b).boot = s.boot := rfl
@[simp] theorem State.setFlag_flash (s : State) (a : Nat) (f : Fld) (b : Bool) : (s.setFlag a f b).flash = s.flash := rfl
@[simp] theorem State.setFlag_delivery (s : State) (a : Nat) (f : Fld) (b : Bool) : (s.setFlag a f b).delivery = s.delivery := rfl
@[simp] theorem State.setFlag_session (s : State) (a : Nat) (f : Fld) (b : Bool) : (s.setFlag a f b).session = s.session := rfl
@[simp] theorem State.setFlag_mbox (s : State) (a : Nat) (f : Fld) (b : Bool) : (s.setFlag a f b).mbox = s.mbox := rfl
@[simp] theorem State.setFlag_latches (s : State) (a : Nat) (f : Fld) (b : Bool) : (s.setFlag a f b).latches = s.latches := rfl
@[simp] theorem State.setFlag_utc (s : State) (a : Nat) (f : Fld) (b : Bool) : (s.setFlag a f b).utc = s.utc := rfl
@[simp] theorem State.setFlag_easel (s : State) (a : Nat) (f : Fld) (b : Bool) : (s.setFlag a f b).easel = s.easel := rfl
@[simp] theorem State.setFlag_out (s : State) (a : Nat) (f : Fld) (b : Bool) : (s.setFlag a f b).out = s.out := rfl
@[simp] theorem State.setFlag_pending (s : State) (a : Nat) (f : Fld) (b : Bool) : (s.setFlag a f b).pending = s.pending := rfl

@[simp] theorem State.satFld_now (s : State) (a : Nat) (f : Fld) (k : Nat) : (s.satFld a f k).now = s.now := rfl
@[simp] theorem State.satFld_master (s : State) (a : Nat) (f : Fld) (k : Nat) : (s.satFld a f k).master = s.master := rfl
@[simp] theorem State.satFld_freeCtr (s : State) (a : Nat) (f : Fld) (k : Nat) : (s.satFld a f k).freeCtr = s.freeCtr := rfl
@[simp] theorem State.satFld_defectQ (s : State) (a : Nat) (f : Fld) (k : Nat) : (s.satFld a f k).defectQ = s.defectQ := rfl
@[simp] theorem State.satFld_hbm (s : State) (a : Nat) (f : Fld) (k : Nat) : (s.satFld a f k).hbm = s.hbm := rfl
@[simp] theorem State.satFld_limit (s : State) (a : Nat) (f : Fld) (k : Nat) : (s.satFld a f k).limit = s.limit := rfl
@[simp] theorem State.satFld_edgeDown (s : State) (a : Nat) (f : Fld) (k : Nat) : (s.satFld a f k).edgeDown = s.edgeDown := rfl
@[simp] theorem State.satFld_edgeFeid (s : State) (a : Nat) (f : Fld) (k : Nat) : (s.satFld a f k).edgeFeid = s.edgeFeid := rfl
@[simp] theorem State.satFld_primary (s : State) (a : Nat) (f : Fld) (k : Nat) : (s.satFld a f k).primary = s.primary := rfl
@[simp] theorem State.satFld_engines (s : State) (a : Nat) (f : Fld) (k : Nat) : (s.satFld a f k).engines = s.engines := rfl
@[simp] theorem State.satFld_cells (s : State) (a : Nat) (f : Fld) (k : Nat) : (s.satFld a f k).cells = s.cells := rfl
@[simp] theorem State.satFld_fabs (s : State) (a : Nat) (f : Fld) (k : Nat) : (s.satFld a f k).fabs = s.fabs := rfl
@[simp] theorem State.satFld_ground (s : State) (a : Nat) (f : Fld) (k : Nat) : (s.satFld a f k).ground = s.ground := rfl
@[simp] theorem State.satFld_faultLog (s : State) (a : Nat) (f : Fld) (k : Nat) : (s.satFld a f k).faultLog = s.faultLog := rfl
@[simp] theorem State.satFld_cellParity (s : State) (a : Nat) (f : Fld) (k : Nat) : (s.satFld a f k).cellParity = s.cellParity := rfl
@[simp] theorem State.satFld_armCopies (s : State) (a : Nat) (f : Fld) (k : Nat) : (s.satFld a f k).armCopies = s.armCopies := rfl
@[simp] theorem State.satFld_halted (s : State) (a : Nat) (f : Fld) (k : Nat) : (s.satFld a f k).halted = s.halted := rfl
@[simp] theorem State.satFld_capture (s : State) (a : Nat) (f : Fld) (k : Nat) : (s.satFld a f k).capture = s.capture := rfl
@[simp] theorem State.satFld_gapWrites (s : State) (a : Nat) (f : Fld) (k : Nat) : (s.satFld a f k).gapWrites = s.gapWrites := rfl
@[simp] theorem State.satFld_gapEvents (s : State) (a : Nat) (f : Fld) (k : Nat) : (s.satFld a f k).gapEvents = s.gapEvents := rfl
@[simp] theorem State.satFld_events (s : State) (a : Nat) (f : Fld) (k : Nat) : (s.satFld a f k).events = s.events := rfl
@[simp] theorem State.satFld_pulseStart (s : State) (a : Nat) (f : Fld) (k : Nat) : (s.satFld a f k).pulseStart = s.pulseStart := rfl
@[simp] theorem State.satFld_annDown (s : State) (a : Nat) (f : Fld) (k : Nat) : (s.satFld a f k).annDown = s.annDown := rfl
@[simp] theorem State.satFld_annUp (s : State) (a : Nat) (f : Fld) (k : Nat) : (s.satFld a f k).annUp = s.annUp := rfl
@[simp] theorem State.satFld_adoptQ (s : State) (a : Nat) (f : Fld) (k : Nat) : (s.satFld a f k).adoptQ = s.adoptQ := rfl
@[simp] theorem State.satFld_members (s : State) (a : Nat) (f : Fld) (k : Nat) : (s.satFld a f k).members = s.members := rfl
@[simp] theorem State.satFld_packets (s : State) (a : Nat) (f : Fld) (k : Nat) : (s.satFld a f k).packets = s.packets := rfl
@[simp] theorem State.satFld_links (s : State) (a : Nat) (f : Fld) (k : Nat) : (s.satFld a f k).links = s.links := rfl
@[simp] theorem State.satFld_linkIn (s : State) (a : Nat) (f : Fld) (k : Nat) : (s.satFld a f k).linkIn = s.linkIn := rfl
@[simp] theorem State.satFld_colls (s : State) (a : Nat) (f : Fld) (k : Nat) : (s.satFld a f k).colls = s.colls := rfl
@[simp] theorem State.satFld_collIn (s : State) (a : Nat) (f : Fld) (k : Nat) : (s.satFld a f k).collIn = s.collIn := rfl
@[simp] theorem State.satFld_verdictSeen (s : State) (a : Nat) (f : Fld) (k : Nat) : (s.satFld a f k).verdictSeen = s.verdictSeen := rfl
@[simp] theorem State.satFld_verdictIn (s : State) (a : Nat) (f : Fld) (k : Nat) : (s.satFld a f k).verdictIn = s.verdictIn := rfl
@[simp] theorem State.satFld_pair (s : State) (a : Nat) (f : Fld) (k : Nat) : (s.satFld a f k).pair = s.pair := rfl
@[simp] theorem State.satFld_adoptLost (s : State) (a : Nat) (f : Fld) (k : Nat) : (s.satFld a f k).adoptLost = s.adoptLost := rfl
@[simp] theorem State.satFld_ports (s : State) (a : Nat) (f : Fld) (k : Nat) : (s.satFld a f k).ports = s.ports := rfl
@[simp] theorem State.satFld_qctx (s : State) (a : Nat) (f : Fld) (k : Nat) : (s.satFld a f k).qctx = s.qctx := rfl
@[simp] theorem State.satFld_feeds (s : State) (a : Nat) (f : Fld) (k : Nat) : (s.satFld a f k).feeds = s.feeds := rfl
@[simp] theorem State.satFld_cfgSpace (s : State) (a : Nat) (f : Fld) (k : Nat) : (s.satFld a f k).cfgSpace = s.cfgSpace := rfl
@[simp] theorem State.satFld_msix (s : State) (a : Nat) (f : Fld) (k : Nat) : (s.satFld a f k).msix = s.msix := rfl
@[simp] theorem State.satFld_msixPend (s : State) (a : Nat) (f : Fld) (k : Nat) : (s.satFld a f k).msixPend = s.msixPend := rfl
@[simp] theorem State.satFld_beat (s : State) (a : Nat) (f : Fld) (k : Nat) : (s.satFld a f k).beat = s.beat := rfl
@[simp] theorem State.satFld_setPend (s : State) (a : Nat) (f : Fld) (k : Nat) : (s.satFld a f k).setPend = s.setPend := rfl
@[simp] theorem State.satFld_edgeMark (s : State) (a : Nat) (f : Fld) (k : Nat) : (s.satFld a f k).edgeMark = s.edgeMark := rfl
@[simp] theorem State.satFld_stages (s : State) (a : Nat) (f : Fld) (k : Nat) : (s.satFld a f k).stages = s.stages := rfl
@[simp] theorem State.satFld_skFail (s : State) (a : Nat) (f : Fld) (k : Nat) : (s.satFld a f k).skFail = s.skFail := rfl
@[simp] theorem State.satFld_guestWaits (s : State) (a : Nat) (f : Fld) (k : Nat) : (s.satFld a f k).guestWaits = s.guestWaits := rfl
@[simp] theorem State.satFld_guestTag (s : State) (a : Nat) (f : Fld) (k : Nat) : (s.satFld a f k).guestTag = s.guestTag := rfl
@[simp] theorem State.satFld_guestHeld (s : State) (a : Nat) (f : Fld) (k : Nat) : (s.satFld a f k).guestHeld = s.guestHeld := rfl
@[simp] theorem State.satFld_rampQ (s : State) (a : Nat) (f : Fld) (k : Nat) : (s.satFld a f k).rampQ = s.rampQ := rfl
@[simp] theorem State.satFld_input (s : State) (a : Nat) (f : Fld) (k : Nat) : (s.satFld a f k).input = s.input := rfl
@[simp] theorem State.satFld_flow (s : State) (a : Nat) (f : Fld) (k : Nat) : (s.satFld a f k).flow = s.flow := rfl
@[simp] theorem State.satFld_boot (s : State) (a : Nat) (f : Fld) (k : Nat) : (s.satFld a f k).boot = s.boot := rfl
@[simp] theorem State.satFld_flash (s : State) (a : Nat) (f : Fld) (k : Nat) : (s.satFld a f k).flash = s.flash := rfl
@[simp] theorem State.satFld_delivery (s : State) (a : Nat) (f : Fld) (k : Nat) : (s.satFld a f k).delivery = s.delivery := rfl
@[simp] theorem State.satFld_session (s : State) (a : Nat) (f : Fld) (k : Nat) : (s.satFld a f k).session = s.session := rfl
@[simp] theorem State.satFld_mbox (s : State) (a : Nat) (f : Fld) (k : Nat) : (s.satFld a f k).mbox = s.mbox := rfl
@[simp] theorem State.satFld_latches (s : State) (a : Nat) (f : Fld) (k : Nat) : (s.satFld a f k).latches = s.latches := rfl
@[simp] theorem State.satFld_utc (s : State) (a : Nat) (f : Fld) (k : Nat) : (s.satFld a f k).utc = s.utc := rfl
@[simp] theorem State.satFld_easel (s : State) (a : Nat) (f : Fld) (k : Nat) : (s.satFld a f k).easel = s.easel := rfl
@[simp] theorem State.satFld_out (s : State) (a : Nat) (f : Fld) (k : Nat) : (s.satFld a f k).out = s.out := rfl
@[simp] theorem State.satFld_pending (s : State) (a : Nat) (f : Fld) (k : Nat) : (s.satFld a f k).pending = s.pending := rfl

@[simp] theorem State.addFld_now (s : State) (a : Nat) (f : Fld) (k : Nat) : (s.addFld a f k).now = s.now := rfl
@[simp] theorem State.addFld_master (s : State) (a : Nat) (f : Fld) (k : Nat) : (s.addFld a f k).master = s.master := rfl
@[simp] theorem State.addFld_freeCtr (s : State) (a : Nat) (f : Fld) (k : Nat) : (s.addFld a f k).freeCtr = s.freeCtr := rfl
@[simp] theorem State.addFld_defectQ (s : State) (a : Nat) (f : Fld) (k : Nat) : (s.addFld a f k).defectQ = s.defectQ := rfl
@[simp] theorem State.addFld_hbm (s : State) (a : Nat) (f : Fld) (k : Nat) : (s.addFld a f k).hbm = s.hbm := rfl
@[simp] theorem State.addFld_limit (s : State) (a : Nat) (f : Fld) (k : Nat) : (s.addFld a f k).limit = s.limit := rfl
@[simp] theorem State.addFld_edgeDown (s : State) (a : Nat) (f : Fld) (k : Nat) : (s.addFld a f k).edgeDown = s.edgeDown := rfl
@[simp] theorem State.addFld_edgeFeid (s : State) (a : Nat) (f : Fld) (k : Nat) : (s.addFld a f k).edgeFeid = s.edgeFeid := rfl
@[simp] theorem State.addFld_primary (s : State) (a : Nat) (f : Fld) (k : Nat) : (s.addFld a f k).primary = s.primary := rfl
@[simp] theorem State.addFld_engines (s : State) (a : Nat) (f : Fld) (k : Nat) : (s.addFld a f k).engines = s.engines := rfl
@[simp] theorem State.addFld_cells (s : State) (a : Nat) (f : Fld) (k : Nat) : (s.addFld a f k).cells = s.cells := rfl
@[simp] theorem State.addFld_fabs (s : State) (a : Nat) (f : Fld) (k : Nat) : (s.addFld a f k).fabs = s.fabs := rfl
@[simp] theorem State.addFld_ground (s : State) (a : Nat) (f : Fld) (k : Nat) : (s.addFld a f k).ground = s.ground := rfl
@[simp] theorem State.addFld_faultLog (s : State) (a : Nat) (f : Fld) (k : Nat) : (s.addFld a f k).faultLog = s.faultLog := rfl
@[simp] theorem State.addFld_cellParity (s : State) (a : Nat) (f : Fld) (k : Nat) : (s.addFld a f k).cellParity = s.cellParity := rfl
@[simp] theorem State.addFld_armCopies (s : State) (a : Nat) (f : Fld) (k : Nat) : (s.addFld a f k).armCopies = s.armCopies := rfl
@[simp] theorem State.addFld_halted (s : State) (a : Nat) (f : Fld) (k : Nat) : (s.addFld a f k).halted = s.halted := rfl
@[simp] theorem State.addFld_capture (s : State) (a : Nat) (f : Fld) (k : Nat) : (s.addFld a f k).capture = s.capture := rfl
@[simp] theorem State.addFld_gapWrites (s : State) (a : Nat) (f : Fld) (k : Nat) : (s.addFld a f k).gapWrites = s.gapWrites := rfl
@[simp] theorem State.addFld_gapEvents (s : State) (a : Nat) (f : Fld) (k : Nat) : (s.addFld a f k).gapEvents = s.gapEvents := rfl
@[simp] theorem State.addFld_events (s : State) (a : Nat) (f : Fld) (k : Nat) : (s.addFld a f k).events = s.events := rfl
@[simp] theorem State.addFld_pulseStart (s : State) (a : Nat) (f : Fld) (k : Nat) : (s.addFld a f k).pulseStart = s.pulseStart := rfl
@[simp] theorem State.addFld_annDown (s : State) (a : Nat) (f : Fld) (k : Nat) : (s.addFld a f k).annDown = s.annDown := rfl
@[simp] theorem State.addFld_annUp (s : State) (a : Nat) (f : Fld) (k : Nat) : (s.addFld a f k).annUp = s.annUp := rfl
@[simp] theorem State.addFld_adoptQ (s : State) (a : Nat) (f : Fld) (k : Nat) : (s.addFld a f k).adoptQ = s.adoptQ := rfl
@[simp] theorem State.addFld_members (s : State) (a : Nat) (f : Fld) (k : Nat) : (s.addFld a f k).members = s.members := rfl
@[simp] theorem State.addFld_packets (s : State) (a : Nat) (f : Fld) (k : Nat) : (s.addFld a f k).packets = s.packets := rfl
@[simp] theorem State.addFld_links (s : State) (a : Nat) (f : Fld) (k : Nat) : (s.addFld a f k).links = s.links := rfl
@[simp] theorem State.addFld_linkIn (s : State) (a : Nat) (f : Fld) (k : Nat) : (s.addFld a f k).linkIn = s.linkIn := rfl
@[simp] theorem State.addFld_colls (s : State) (a : Nat) (f : Fld) (k : Nat) : (s.addFld a f k).colls = s.colls := rfl
@[simp] theorem State.addFld_collIn (s : State) (a : Nat) (f : Fld) (k : Nat) : (s.addFld a f k).collIn = s.collIn := rfl
@[simp] theorem State.addFld_verdictSeen (s : State) (a : Nat) (f : Fld) (k : Nat) : (s.addFld a f k).verdictSeen = s.verdictSeen := rfl
@[simp] theorem State.addFld_verdictIn (s : State) (a : Nat) (f : Fld) (k : Nat) : (s.addFld a f k).verdictIn = s.verdictIn := rfl
@[simp] theorem State.addFld_pair (s : State) (a : Nat) (f : Fld) (k : Nat) : (s.addFld a f k).pair = s.pair := rfl
@[simp] theorem State.addFld_adoptLost (s : State) (a : Nat) (f : Fld) (k : Nat) : (s.addFld a f k).adoptLost = s.adoptLost := rfl
@[simp] theorem State.addFld_ports (s : State) (a : Nat) (f : Fld) (k : Nat) : (s.addFld a f k).ports = s.ports := rfl
@[simp] theorem State.addFld_qctx (s : State) (a : Nat) (f : Fld) (k : Nat) : (s.addFld a f k).qctx = s.qctx := rfl
@[simp] theorem State.addFld_feeds (s : State) (a : Nat) (f : Fld) (k : Nat) : (s.addFld a f k).feeds = s.feeds := rfl
@[simp] theorem State.addFld_cfgSpace (s : State) (a : Nat) (f : Fld) (k : Nat) : (s.addFld a f k).cfgSpace = s.cfgSpace := rfl
@[simp] theorem State.addFld_msix (s : State) (a : Nat) (f : Fld) (k : Nat) : (s.addFld a f k).msix = s.msix := rfl
@[simp] theorem State.addFld_msixPend (s : State) (a : Nat) (f : Fld) (k : Nat) : (s.addFld a f k).msixPend = s.msixPend := rfl
@[simp] theorem State.addFld_beat (s : State) (a : Nat) (f : Fld) (k : Nat) : (s.addFld a f k).beat = s.beat := rfl
@[simp] theorem State.addFld_setPend (s : State) (a : Nat) (f : Fld) (k : Nat) : (s.addFld a f k).setPend = s.setPend := rfl
@[simp] theorem State.addFld_edgeMark (s : State) (a : Nat) (f : Fld) (k : Nat) : (s.addFld a f k).edgeMark = s.edgeMark := rfl
@[simp] theorem State.addFld_stages (s : State) (a : Nat) (f : Fld) (k : Nat) : (s.addFld a f k).stages = s.stages := rfl
@[simp] theorem State.addFld_skFail (s : State) (a : Nat) (f : Fld) (k : Nat) : (s.addFld a f k).skFail = s.skFail := rfl
@[simp] theorem State.addFld_guestWaits (s : State) (a : Nat) (f : Fld) (k : Nat) : (s.addFld a f k).guestWaits = s.guestWaits := rfl
@[simp] theorem State.addFld_guestTag (s : State) (a : Nat) (f : Fld) (k : Nat) : (s.addFld a f k).guestTag = s.guestTag := rfl
@[simp] theorem State.addFld_guestHeld (s : State) (a : Nat) (f : Fld) (k : Nat) : (s.addFld a f k).guestHeld = s.guestHeld := rfl
@[simp] theorem State.addFld_rampQ (s : State) (a : Nat) (f : Fld) (k : Nat) : (s.addFld a f k).rampQ = s.rampQ := rfl
@[simp] theorem State.addFld_input (s : State) (a : Nat) (f : Fld) (k : Nat) : (s.addFld a f k).input = s.input := rfl
@[simp] theorem State.addFld_flow (s : State) (a : Nat) (f : Fld) (k : Nat) : (s.addFld a f k).flow = s.flow := rfl
@[simp] theorem State.addFld_boot (s : State) (a : Nat) (f : Fld) (k : Nat) : (s.addFld a f k).boot = s.boot := rfl
@[simp] theorem State.addFld_flash (s : State) (a : Nat) (f : Fld) (k : Nat) : (s.addFld a f k).flash = s.flash := rfl
@[simp] theorem State.addFld_delivery (s : State) (a : Nat) (f : Fld) (k : Nat) : (s.addFld a f k).delivery = s.delivery := rfl
@[simp] theorem State.addFld_session (s : State) (a : Nat) (f : Fld) (k : Nat) : (s.addFld a f k).session = s.session := rfl
@[simp] theorem State.addFld_mbox (s : State) (a : Nat) (f : Fld) (k : Nat) : (s.addFld a f k).mbox = s.mbox := rfl
@[simp] theorem State.addFld_latches (s : State) (a : Nat) (f : Fld) (k : Nat) : (s.addFld a f k).latches = s.latches := rfl
@[simp] theorem State.addFld_utc (s : State) (a : Nat) (f : Fld) (k : Nat) : (s.addFld a f k).utc = s.utc := rfl
@[simp] theorem State.addFld_easel (s : State) (a : Nat) (f : Fld) (k : Nat) : (s.addFld a f k).easel = s.easel := rfl
@[simp] theorem State.addFld_out (s : State) (a : Nat) (f : Fld) (k : Nat) : (s.addFld a f k).out = s.out := rfl
@[simp] theorem State.addFld_pending (s : State) (a : Nat) (f : Fld) (k : Nat) : (s.addFld a f k).pending = s.pending := rfl

@[simp] theorem State.rstReg_now (s : State) (a : Nat) : (s.rstReg a).now = s.now := rfl
@[simp] theorem State.rstReg_master (s : State) (a : Nat) : (s.rstReg a).master = s.master := rfl
@[simp] theorem State.rstReg_freeCtr (s : State) (a : Nat) : (s.rstReg a).freeCtr = s.freeCtr := rfl
@[simp] theorem State.rstReg_defectQ (s : State) (a : Nat) : (s.rstReg a).defectQ = s.defectQ := rfl
@[simp] theorem State.rstReg_hbm (s : State) (a : Nat) : (s.rstReg a).hbm = s.hbm := rfl
@[simp] theorem State.rstReg_limit (s : State) (a : Nat) : (s.rstReg a).limit = s.limit := rfl
@[simp] theorem State.rstReg_edgeDown (s : State) (a : Nat) : (s.rstReg a).edgeDown = s.edgeDown := rfl
@[simp] theorem State.rstReg_edgeFeid (s : State) (a : Nat) : (s.rstReg a).edgeFeid = s.edgeFeid := rfl
@[simp] theorem State.rstReg_primary (s : State) (a : Nat) : (s.rstReg a).primary = s.primary := rfl
@[simp] theorem State.rstReg_engines (s : State) (a : Nat) : (s.rstReg a).engines = s.engines := rfl
@[simp] theorem State.rstReg_cells (s : State) (a : Nat) : (s.rstReg a).cells = s.cells := rfl
@[simp] theorem State.rstReg_fabs (s : State) (a : Nat) : (s.rstReg a).fabs = s.fabs := rfl
@[simp] theorem State.rstReg_ground (s : State) (a : Nat) : (s.rstReg a).ground = s.ground := rfl
@[simp] theorem State.rstReg_faultLog (s : State) (a : Nat) : (s.rstReg a).faultLog = s.faultLog := rfl
@[simp] theorem State.rstReg_cellParity (s : State) (a : Nat) : (s.rstReg a).cellParity = s.cellParity := rfl
@[simp] theorem State.rstReg_armCopies (s : State) (a : Nat) : (s.rstReg a).armCopies = s.armCopies := rfl
@[simp] theorem State.rstReg_halted (s : State) (a : Nat) : (s.rstReg a).halted = s.halted := rfl
@[simp] theorem State.rstReg_capture (s : State) (a : Nat) : (s.rstReg a).capture = s.capture := rfl
@[simp] theorem State.rstReg_gapWrites (s : State) (a : Nat) : (s.rstReg a).gapWrites = s.gapWrites := rfl
@[simp] theorem State.rstReg_gapEvents (s : State) (a : Nat) : (s.rstReg a).gapEvents = s.gapEvents := rfl
@[simp] theorem State.rstReg_events (s : State) (a : Nat) : (s.rstReg a).events = s.events := rfl
@[simp] theorem State.rstReg_pulseStart (s : State) (a : Nat) : (s.rstReg a).pulseStart = s.pulseStart := rfl
@[simp] theorem State.rstReg_annDown (s : State) (a : Nat) : (s.rstReg a).annDown = s.annDown := rfl
@[simp] theorem State.rstReg_annUp (s : State) (a : Nat) : (s.rstReg a).annUp = s.annUp := rfl
@[simp] theorem State.rstReg_adoptQ (s : State) (a : Nat) : (s.rstReg a).adoptQ = s.adoptQ := rfl
@[simp] theorem State.rstReg_members (s : State) (a : Nat) : (s.rstReg a).members = s.members := rfl
@[simp] theorem State.rstReg_packets (s : State) (a : Nat) : (s.rstReg a).packets = s.packets := rfl
@[simp] theorem State.rstReg_links (s : State) (a : Nat) : (s.rstReg a).links = s.links := rfl
@[simp] theorem State.rstReg_linkIn (s : State) (a : Nat) : (s.rstReg a).linkIn = s.linkIn := rfl
@[simp] theorem State.rstReg_colls (s : State) (a : Nat) : (s.rstReg a).colls = s.colls := rfl
@[simp] theorem State.rstReg_collIn (s : State) (a : Nat) : (s.rstReg a).collIn = s.collIn := rfl
@[simp] theorem State.rstReg_verdictSeen (s : State) (a : Nat) : (s.rstReg a).verdictSeen = s.verdictSeen := rfl
@[simp] theorem State.rstReg_verdictIn (s : State) (a : Nat) : (s.rstReg a).verdictIn = s.verdictIn := rfl
@[simp] theorem State.rstReg_pair (s : State) (a : Nat) : (s.rstReg a).pair = s.pair := rfl
@[simp] theorem State.rstReg_adoptLost (s : State) (a : Nat) : (s.rstReg a).adoptLost = s.adoptLost := rfl
@[simp] theorem State.rstReg_ports (s : State) (a : Nat) : (s.rstReg a).ports = s.ports := rfl
@[simp] theorem State.rstReg_qctx (s : State) (a : Nat) : (s.rstReg a).qctx = s.qctx := rfl
@[simp] theorem State.rstReg_feeds (s : State) (a : Nat) : (s.rstReg a).feeds = s.feeds := rfl
@[simp] theorem State.rstReg_cfgSpace (s : State) (a : Nat) : (s.rstReg a).cfgSpace = s.cfgSpace := rfl
@[simp] theorem State.rstReg_msix (s : State) (a : Nat) : (s.rstReg a).msix = s.msix := rfl
@[simp] theorem State.rstReg_msixPend (s : State) (a : Nat) : (s.rstReg a).msixPend = s.msixPend := rfl
@[simp] theorem State.rstReg_beat (s : State) (a : Nat) : (s.rstReg a).beat = s.beat := rfl
@[simp] theorem State.rstReg_setPend (s : State) (a : Nat) : (s.rstReg a).setPend = s.setPend := rfl
@[simp] theorem State.rstReg_edgeMark (s : State) (a : Nat) : (s.rstReg a).edgeMark = s.edgeMark := rfl
@[simp] theorem State.rstReg_stages (s : State) (a : Nat) : (s.rstReg a).stages = s.stages := rfl
@[simp] theorem State.rstReg_skFail (s : State) (a : Nat) : (s.rstReg a).skFail = s.skFail := rfl
@[simp] theorem State.rstReg_guestWaits (s : State) (a : Nat) : (s.rstReg a).guestWaits = s.guestWaits := rfl
@[simp] theorem State.rstReg_guestTag (s : State) (a : Nat) : (s.rstReg a).guestTag = s.guestTag := rfl
@[simp] theorem State.rstReg_guestHeld (s : State) (a : Nat) : (s.rstReg a).guestHeld = s.guestHeld := rfl
@[simp] theorem State.rstReg_rampQ (s : State) (a : Nat) : (s.rstReg a).rampQ = s.rampQ := rfl
@[simp] theorem State.rstReg_input (s : State) (a : Nat) : (s.rstReg a).input = s.input := rfl
@[simp] theorem State.rstReg_flow (s : State) (a : Nat) : (s.rstReg a).flow = s.flow := rfl
@[simp] theorem State.rstReg_boot (s : State) (a : Nat) : (s.rstReg a).boot = s.boot := rfl
@[simp] theorem State.rstReg_flash (s : State) (a : Nat) : (s.rstReg a).flash = s.flash := rfl
@[simp] theorem State.rstReg_delivery (s : State) (a : Nat) : (s.rstReg a).delivery = s.delivery := rfl
@[simp] theorem State.rstReg_session (s : State) (a : Nat) : (s.rstReg a).session = s.session := rfl
@[simp] theorem State.rstReg_mbox (s : State) (a : Nat) : (s.rstReg a).mbox = s.mbox := rfl
@[simp] theorem State.rstReg_latches (s : State) (a : Nat) : (s.rstReg a).latches = s.latches := rfl
@[simp] theorem State.rstReg_utc (s : State) (a : Nat) : (s.rstReg a).utc = s.utc := rfl
@[simp] theorem State.rstReg_easel (s : State) (a : Nat) : (s.rstReg a).easel = s.easel := rfl
@[simp] theorem State.rstReg_out (s : State) (a : Nat) : (s.rstReg a).out = s.out := rfl
@[simp] theorem State.rstReg_pending (s : State) (a : Nat) : (s.rstReg a).pending = s.pending := rfl

@[simp] theorem State.rstRange_now (s : State) (lo n : Nat) : (s.rstRange lo n).now = s.now := rfl
@[simp] theorem State.rstRange_master (s : State) (lo n : Nat) : (s.rstRange lo n).master = s.master := rfl
@[simp] theorem State.rstRange_freeCtr (s : State) (lo n : Nat) : (s.rstRange lo n).freeCtr = s.freeCtr := rfl
@[simp] theorem State.rstRange_defectQ (s : State) (lo n : Nat) : (s.rstRange lo n).defectQ = s.defectQ := rfl
@[simp] theorem State.rstRange_hbm (s : State) (lo n : Nat) : (s.rstRange lo n).hbm = s.hbm := rfl
@[simp] theorem State.rstRange_limit (s : State) (lo n : Nat) : (s.rstRange lo n).limit = s.limit := rfl
@[simp] theorem State.rstRange_edgeDown (s : State) (lo n : Nat) : (s.rstRange lo n).edgeDown = s.edgeDown := rfl
@[simp] theorem State.rstRange_edgeFeid (s : State) (lo n : Nat) : (s.rstRange lo n).edgeFeid = s.edgeFeid := rfl
@[simp] theorem State.rstRange_primary (s : State) (lo n : Nat) : (s.rstRange lo n).primary = s.primary := rfl
@[simp] theorem State.rstRange_engines (s : State) (lo n : Nat) : (s.rstRange lo n).engines = s.engines := rfl
@[simp] theorem State.rstRange_cells (s : State) (lo n : Nat) : (s.rstRange lo n).cells = s.cells := rfl
@[simp] theorem State.rstRange_fabs (s : State) (lo n : Nat) : (s.rstRange lo n).fabs = s.fabs := rfl
@[simp] theorem State.rstRange_ground (s : State) (lo n : Nat) : (s.rstRange lo n).ground = s.ground := rfl
@[simp] theorem State.rstRange_faultLog (s : State) (lo n : Nat) : (s.rstRange lo n).faultLog = s.faultLog := rfl
@[simp] theorem State.rstRange_cellParity (s : State) (lo n : Nat) : (s.rstRange lo n).cellParity = s.cellParity := rfl
@[simp] theorem State.rstRange_armCopies (s : State) (lo n : Nat) : (s.rstRange lo n).armCopies = s.armCopies := rfl
@[simp] theorem State.rstRange_halted (s : State) (lo n : Nat) : (s.rstRange lo n).halted = s.halted := rfl
@[simp] theorem State.rstRange_capture (s : State) (lo n : Nat) : (s.rstRange lo n).capture = s.capture := rfl
@[simp] theorem State.rstRange_gapWrites (s : State) (lo n : Nat) : (s.rstRange lo n).gapWrites = s.gapWrites := rfl
@[simp] theorem State.rstRange_gapEvents (s : State) (lo n : Nat) : (s.rstRange lo n).gapEvents = s.gapEvents := rfl
@[simp] theorem State.rstRange_events (s : State) (lo n : Nat) : (s.rstRange lo n).events = s.events := rfl
@[simp] theorem State.rstRange_pulseStart (s : State) (lo n : Nat) : (s.rstRange lo n).pulseStart = s.pulseStart := rfl
@[simp] theorem State.rstRange_annDown (s : State) (lo n : Nat) : (s.rstRange lo n).annDown = s.annDown := rfl
@[simp] theorem State.rstRange_annUp (s : State) (lo n : Nat) : (s.rstRange lo n).annUp = s.annUp := rfl
@[simp] theorem State.rstRange_adoptQ (s : State) (lo n : Nat) : (s.rstRange lo n).adoptQ = s.adoptQ := rfl
@[simp] theorem State.rstRange_members (s : State) (lo n : Nat) : (s.rstRange lo n).members = s.members := rfl
@[simp] theorem State.rstRange_packets (s : State) (lo n : Nat) : (s.rstRange lo n).packets = s.packets := rfl
@[simp] theorem State.rstRange_links (s : State) (lo n : Nat) : (s.rstRange lo n).links = s.links := rfl
@[simp] theorem State.rstRange_linkIn (s : State) (lo n : Nat) : (s.rstRange lo n).linkIn = s.linkIn := rfl
@[simp] theorem State.rstRange_colls (s : State) (lo n : Nat) : (s.rstRange lo n).colls = s.colls := rfl
@[simp] theorem State.rstRange_collIn (s : State) (lo n : Nat) : (s.rstRange lo n).collIn = s.collIn := rfl
@[simp] theorem State.rstRange_verdictSeen (s : State) (lo n : Nat) : (s.rstRange lo n).verdictSeen = s.verdictSeen := rfl
@[simp] theorem State.rstRange_verdictIn (s : State) (lo n : Nat) : (s.rstRange lo n).verdictIn = s.verdictIn := rfl
@[simp] theorem State.rstRange_pair (s : State) (lo n : Nat) : (s.rstRange lo n).pair = s.pair := rfl
@[simp] theorem State.rstRange_adoptLost (s : State) (lo n : Nat) : (s.rstRange lo n).adoptLost = s.adoptLost := rfl
@[simp] theorem State.rstRange_ports (s : State) (lo n : Nat) : (s.rstRange lo n).ports = s.ports := rfl
@[simp] theorem State.rstRange_qctx (s : State) (lo n : Nat) : (s.rstRange lo n).qctx = s.qctx := rfl
@[simp] theorem State.rstRange_feeds (s : State) (lo n : Nat) : (s.rstRange lo n).feeds = s.feeds := rfl
@[simp] theorem State.rstRange_cfgSpace (s : State) (lo n : Nat) : (s.rstRange lo n).cfgSpace = s.cfgSpace := rfl
@[simp] theorem State.rstRange_msix (s : State) (lo n : Nat) : (s.rstRange lo n).msix = s.msix := rfl
@[simp] theorem State.rstRange_msixPend (s : State) (lo n : Nat) : (s.rstRange lo n).msixPend = s.msixPend := rfl
@[simp] theorem State.rstRange_beat (s : State) (lo n : Nat) : (s.rstRange lo n).beat = s.beat := rfl
@[simp] theorem State.rstRange_setPend (s : State) (lo n : Nat) : (s.rstRange lo n).setPend = s.setPend := rfl
@[simp] theorem State.rstRange_edgeMark (s : State) (lo n : Nat) : (s.rstRange lo n).edgeMark = s.edgeMark := rfl
@[simp] theorem State.rstRange_stages (s : State) (lo n : Nat) : (s.rstRange lo n).stages = s.stages := rfl
@[simp] theorem State.rstRange_skFail (s : State) (lo n : Nat) : (s.rstRange lo n).skFail = s.skFail := rfl
@[simp] theorem State.rstRange_guestWaits (s : State) (lo n : Nat) : (s.rstRange lo n).guestWaits = s.guestWaits := rfl
@[simp] theorem State.rstRange_guestTag (s : State) (lo n : Nat) : (s.rstRange lo n).guestTag = s.guestTag := rfl
@[simp] theorem State.rstRange_guestHeld (s : State) (lo n : Nat) : (s.rstRange lo n).guestHeld = s.guestHeld := rfl
@[simp] theorem State.rstRange_rampQ (s : State) (lo n : Nat) : (s.rstRange lo n).rampQ = s.rampQ := rfl
@[simp] theorem State.rstRange_input (s : State) (lo n : Nat) : (s.rstRange lo n).input = s.input := rfl
@[simp] theorem State.rstRange_flow (s : State) (lo n : Nat) : (s.rstRange lo n).flow = s.flow := rfl
@[simp] theorem State.rstRange_boot (s : State) (lo n : Nat) : (s.rstRange lo n).boot = s.boot := rfl
@[simp] theorem State.rstRange_flash (s : State) (lo n : Nat) : (s.rstRange lo n).flash = s.flash := rfl
@[simp] theorem State.rstRange_delivery (s : State) (lo n : Nat) : (s.rstRange lo n).delivery = s.delivery := rfl
@[simp] theorem State.rstRange_session (s : State) (lo n : Nat) : (s.rstRange lo n).session = s.session := rfl
@[simp] theorem State.rstRange_mbox (s : State) (lo n : Nat) : (s.rstRange lo n).mbox = s.mbox := rfl
@[simp] theorem State.rstRange_latches (s : State) (lo n : Nat) : (s.rstRange lo n).latches = s.latches := rfl
@[simp] theorem State.rstRange_utc (s : State) (lo n : Nat) : (s.rstRange lo n).utc = s.utc := rfl
@[simp] theorem State.rstRange_easel (s : State) (lo n : Nat) : (s.rstRange lo n).easel = s.easel := rfl
@[simp] theorem State.rstRange_out (s : State) (lo n : Nat) : (s.rstRange lo n).out = s.out := rfl
@[simp] theorem State.rstRange_pending (s : State) (lo n : Nat) : (s.rstRange lo n).pending = s.pending := rfl

@[simp] theorem State.setEng_now (s : State) (e : Nat) (g : Engine) : (s.setEng e g).now = s.now := rfl
@[simp] theorem State.setEng_master (s : State) (e : Nat) (g : Engine) : (s.setEng e g).master = s.master := rfl
@[simp] theorem State.setEng_freeCtr (s : State) (e : Nat) (g : Engine) : (s.setEng e g).freeCtr = s.freeCtr := rfl
@[simp] theorem State.setEng_defectQ (s : State) (e : Nat) (g : Engine) : (s.setEng e g).defectQ = s.defectQ := rfl
@[simp] theorem State.setEng_regs (s : State) (e : Nat) (g : Engine) : (s.setEng e g).regs = s.regs := rfl
@[simp] theorem State.setEng_hbm (s : State) (e : Nat) (g : Engine) : (s.setEng e g).hbm = s.hbm := rfl
@[simp] theorem State.setEng_limit (s : State) (e : Nat) (g : Engine) : (s.setEng e g).limit = s.limit := rfl
@[simp] theorem State.setEng_edgeDown (s : State) (e : Nat) (g : Engine) : (s.setEng e g).edgeDown = s.edgeDown := rfl
@[simp] theorem State.setEng_edgeFeid (s : State) (e : Nat) (g : Engine) : (s.setEng e g).edgeFeid = s.edgeFeid := rfl
@[simp] theorem State.setEng_primary (s : State) (e : Nat) (g : Engine) : (s.setEng e g).primary = s.primary := rfl
@[simp] theorem State.setEng_cells (s : State) (e : Nat) (g : Engine) : (s.setEng e g).cells = s.cells := rfl
@[simp] theorem State.setEng_fabs (s : State) (e : Nat) (g : Engine) : (s.setEng e g).fabs = s.fabs := rfl
@[simp] theorem State.setEng_ground (s : State) (e : Nat) (g : Engine) : (s.setEng e g).ground = s.ground := rfl
@[simp] theorem State.setEng_faultLog (s : State) (e : Nat) (g : Engine) : (s.setEng e g).faultLog = s.faultLog := rfl
@[simp] theorem State.setEng_cellParity (s : State) (e : Nat) (g : Engine) : (s.setEng e g).cellParity = s.cellParity := rfl
@[simp] theorem State.setEng_armCopies (s : State) (e : Nat) (g : Engine) : (s.setEng e g).armCopies = s.armCopies := rfl
@[simp] theorem State.setEng_halted (s : State) (e : Nat) (g : Engine) : (s.setEng e g).halted = s.halted := rfl
@[simp] theorem State.setEng_capture (s : State) (e : Nat) (g : Engine) : (s.setEng e g).capture = s.capture := rfl
@[simp] theorem State.setEng_gapWrites (s : State) (e : Nat) (g : Engine) : (s.setEng e g).gapWrites = s.gapWrites := rfl
@[simp] theorem State.setEng_gapEvents (s : State) (e : Nat) (g : Engine) : (s.setEng e g).gapEvents = s.gapEvents := rfl
@[simp] theorem State.setEng_events (s : State) (e : Nat) (g : Engine) : (s.setEng e g).events = s.events := rfl
@[simp] theorem State.setEng_pulseStart (s : State) (e : Nat) (g : Engine) : (s.setEng e g).pulseStart = s.pulseStart := rfl
@[simp] theorem State.setEng_annDown (s : State) (e : Nat) (g : Engine) : (s.setEng e g).annDown = s.annDown := rfl
@[simp] theorem State.setEng_annUp (s : State) (e : Nat) (g : Engine) : (s.setEng e g).annUp = s.annUp := rfl
@[simp] theorem State.setEng_adoptQ (s : State) (e : Nat) (g : Engine) : (s.setEng e g).adoptQ = s.adoptQ := rfl
@[simp] theorem State.setEng_members (s : State) (e : Nat) (g : Engine) : (s.setEng e g).members = s.members := rfl
@[simp] theorem State.setEng_packets (s : State) (e : Nat) (g : Engine) : (s.setEng e g).packets = s.packets := rfl
@[simp] theorem State.setEng_links (s : State) (e : Nat) (g : Engine) : (s.setEng e g).links = s.links := rfl
@[simp] theorem State.setEng_linkIn (s : State) (e : Nat) (g : Engine) : (s.setEng e g).linkIn = s.linkIn := rfl
@[simp] theorem State.setEng_colls (s : State) (e : Nat) (g : Engine) : (s.setEng e g).colls = s.colls := rfl
@[simp] theorem State.setEng_collIn (s : State) (e : Nat) (g : Engine) : (s.setEng e g).collIn = s.collIn := rfl
@[simp] theorem State.setEng_verdictSeen (s : State) (e : Nat) (g : Engine) : (s.setEng e g).verdictSeen = s.verdictSeen := rfl
@[simp] theorem State.setEng_verdictIn (s : State) (e : Nat) (g : Engine) : (s.setEng e g).verdictIn = s.verdictIn := rfl
@[simp] theorem State.setEng_pair (s : State) (e : Nat) (g : Engine) : (s.setEng e g).pair = s.pair := rfl
@[simp] theorem State.setEng_adoptLost (s : State) (e : Nat) (g : Engine) : (s.setEng e g).adoptLost = s.adoptLost := rfl
@[simp] theorem State.setEng_ports (s : State) (e : Nat) (g : Engine) : (s.setEng e g).ports = s.ports := rfl
@[simp] theorem State.setEng_qctx (s : State) (e : Nat) (g : Engine) : (s.setEng e g).qctx = s.qctx := rfl
@[simp] theorem State.setEng_feeds (s : State) (e : Nat) (g : Engine) : (s.setEng e g).feeds = s.feeds := rfl
@[simp] theorem State.setEng_cfgSpace (s : State) (e : Nat) (g : Engine) : (s.setEng e g).cfgSpace = s.cfgSpace := rfl
@[simp] theorem State.setEng_msix (s : State) (e : Nat) (g : Engine) : (s.setEng e g).msix = s.msix := rfl
@[simp] theorem State.setEng_msixPend (s : State) (e : Nat) (g : Engine) : (s.setEng e g).msixPend = s.msixPend := rfl
@[simp] theorem State.setEng_beat (s : State) (e : Nat) (g : Engine) : (s.setEng e g).beat = s.beat := rfl
@[simp] theorem State.setEng_setPend (s : State) (e : Nat) (g : Engine) : (s.setEng e g).setPend = s.setPend := rfl
@[simp] theorem State.setEng_edgeMark (s : State) (e : Nat) (g : Engine) : (s.setEng e g).edgeMark = s.edgeMark := rfl
@[simp] theorem State.setEng_stages (s : State) (e : Nat) (g : Engine) : (s.setEng e g).stages = s.stages := rfl
@[simp] theorem State.setEng_skFail (s : State) (e : Nat) (g : Engine) : (s.setEng e g).skFail = s.skFail := rfl
@[simp] theorem State.setEng_guestWaits (s : State) (e : Nat) (g : Engine) : (s.setEng e g).guestWaits = s.guestWaits := rfl
@[simp] theorem State.setEng_guestTag (s : State) (e : Nat) (g : Engine) : (s.setEng e g).guestTag = s.guestTag := rfl
@[simp] theorem State.setEng_guestHeld (s : State) (e : Nat) (g : Engine) : (s.setEng e g).guestHeld = s.guestHeld := rfl
@[simp] theorem State.setEng_rampQ (s : State) (e : Nat) (g : Engine) : (s.setEng e g).rampQ = s.rampQ := rfl
@[simp] theorem State.setEng_input (s : State) (e : Nat) (g : Engine) : (s.setEng e g).input = s.input := rfl
@[simp] theorem State.setEng_flow (s : State) (e : Nat) (g : Engine) : (s.setEng e g).flow = s.flow := rfl
@[simp] theorem State.setEng_boot (s : State) (e : Nat) (g : Engine) : (s.setEng e g).boot = s.boot := rfl
@[simp] theorem State.setEng_flash (s : State) (e : Nat) (g : Engine) : (s.setEng e g).flash = s.flash := rfl
@[simp] theorem State.setEng_delivery (s : State) (e : Nat) (g : Engine) : (s.setEng e g).delivery = s.delivery := rfl
@[simp] theorem State.setEng_session (s : State) (e : Nat) (g : Engine) : (s.setEng e g).session = s.session := rfl
@[simp] theorem State.setEng_mbox (s : State) (e : Nat) (g : Engine) : (s.setEng e g).mbox = s.mbox := rfl
@[simp] theorem State.setEng_latches (s : State) (e : Nat) (g : Engine) : (s.setEng e g).latches = s.latches := rfl
@[simp] theorem State.setEng_utc (s : State) (e : Nat) (g : Engine) : (s.setEng e g).utc = s.utc := rfl
@[simp] theorem State.setEng_easel (s : State) (e : Nat) (g : Engine) : (s.setEng e g).easel = s.easel := rfl
@[simp] theorem State.setEng_out (s : State) (e : Nat) (g : Engine) : (s.setEng e g).out = s.out := rfl
@[simp] theorem State.setEng_pending (s : State) (e : Nat) (g : Engine) : (s.setEng e g).pending = s.pending := rfl

@[simp] theorem State.onEng_now (s : State) (e : Nat) (f : Engine → Engine) : (s.onEng e f).now = s.now := rfl
@[simp] theorem State.onEng_master (s : State) (e : Nat) (f : Engine → Engine) : (s.onEng e f).master = s.master := rfl
@[simp] theorem State.onEng_freeCtr (s : State) (e : Nat) (f : Engine → Engine) : (s.onEng e f).freeCtr = s.freeCtr := rfl
@[simp] theorem State.onEng_defectQ (s : State) (e : Nat) (f : Engine → Engine) : (s.onEng e f).defectQ = s.defectQ := rfl
@[simp] theorem State.onEng_regs (s : State) (e : Nat) (f : Engine → Engine) : (s.onEng e f).regs = s.regs := rfl
@[simp] theorem State.onEng_hbm (s : State) (e : Nat) (f : Engine → Engine) : (s.onEng e f).hbm = s.hbm := rfl
@[simp] theorem State.onEng_limit (s : State) (e : Nat) (f : Engine → Engine) : (s.onEng e f).limit = s.limit := rfl
@[simp] theorem State.onEng_edgeDown (s : State) (e : Nat) (f : Engine → Engine) : (s.onEng e f).edgeDown = s.edgeDown := rfl
@[simp] theorem State.onEng_edgeFeid (s : State) (e : Nat) (f : Engine → Engine) : (s.onEng e f).edgeFeid = s.edgeFeid := rfl
@[simp] theorem State.onEng_primary (s : State) (e : Nat) (f : Engine → Engine) : (s.onEng e f).primary = s.primary := rfl
@[simp] theorem State.onEng_cells (s : State) (e : Nat) (f : Engine → Engine) : (s.onEng e f).cells = s.cells := rfl
@[simp] theorem State.onEng_fabs (s : State) (e : Nat) (f : Engine → Engine) : (s.onEng e f).fabs = s.fabs := rfl
@[simp] theorem State.onEng_ground (s : State) (e : Nat) (f : Engine → Engine) : (s.onEng e f).ground = s.ground := rfl
@[simp] theorem State.onEng_faultLog (s : State) (e : Nat) (f : Engine → Engine) : (s.onEng e f).faultLog = s.faultLog := rfl
@[simp] theorem State.onEng_cellParity (s : State) (e : Nat) (f : Engine → Engine) : (s.onEng e f).cellParity = s.cellParity := rfl
@[simp] theorem State.onEng_armCopies (s : State) (e : Nat) (f : Engine → Engine) : (s.onEng e f).armCopies = s.armCopies := rfl
@[simp] theorem State.onEng_halted (s : State) (e : Nat) (f : Engine → Engine) : (s.onEng e f).halted = s.halted := rfl
@[simp] theorem State.onEng_capture (s : State) (e : Nat) (f : Engine → Engine) : (s.onEng e f).capture = s.capture := rfl
@[simp] theorem State.onEng_gapWrites (s : State) (e : Nat) (f : Engine → Engine) : (s.onEng e f).gapWrites = s.gapWrites := rfl
@[simp] theorem State.onEng_gapEvents (s : State) (e : Nat) (f : Engine → Engine) : (s.onEng e f).gapEvents = s.gapEvents := rfl
@[simp] theorem State.onEng_events (s : State) (e : Nat) (f : Engine → Engine) : (s.onEng e f).events = s.events := rfl
@[simp] theorem State.onEng_pulseStart (s : State) (e : Nat) (f : Engine → Engine) : (s.onEng e f).pulseStart = s.pulseStart := rfl
@[simp] theorem State.onEng_annDown (s : State) (e : Nat) (f : Engine → Engine) : (s.onEng e f).annDown = s.annDown := rfl
@[simp] theorem State.onEng_annUp (s : State) (e : Nat) (f : Engine → Engine) : (s.onEng e f).annUp = s.annUp := rfl
@[simp] theorem State.onEng_adoptQ (s : State) (e : Nat) (f : Engine → Engine) : (s.onEng e f).adoptQ = s.adoptQ := rfl
@[simp] theorem State.onEng_members (s : State) (e : Nat) (f : Engine → Engine) : (s.onEng e f).members = s.members := rfl
@[simp] theorem State.onEng_packets (s : State) (e : Nat) (f : Engine → Engine) : (s.onEng e f).packets = s.packets := rfl
@[simp] theorem State.onEng_links (s : State) (e : Nat) (f : Engine → Engine) : (s.onEng e f).links = s.links := rfl
@[simp] theorem State.onEng_linkIn (s : State) (e : Nat) (f : Engine → Engine) : (s.onEng e f).linkIn = s.linkIn := rfl
@[simp] theorem State.onEng_colls (s : State) (e : Nat) (f : Engine → Engine) : (s.onEng e f).colls = s.colls := rfl
@[simp] theorem State.onEng_collIn (s : State) (e : Nat) (f : Engine → Engine) : (s.onEng e f).collIn = s.collIn := rfl
@[simp] theorem State.onEng_verdictSeen (s : State) (e : Nat) (f : Engine → Engine) : (s.onEng e f).verdictSeen = s.verdictSeen := rfl
@[simp] theorem State.onEng_verdictIn (s : State) (e : Nat) (f : Engine → Engine) : (s.onEng e f).verdictIn = s.verdictIn := rfl
@[simp] theorem State.onEng_pair (s : State) (e : Nat) (f : Engine → Engine) : (s.onEng e f).pair = s.pair := rfl
@[simp] theorem State.onEng_adoptLost (s : State) (e : Nat) (f : Engine → Engine) : (s.onEng e f).adoptLost = s.adoptLost := rfl
@[simp] theorem State.onEng_ports (s : State) (e : Nat) (f : Engine → Engine) : (s.onEng e f).ports = s.ports := rfl
@[simp] theorem State.onEng_qctx (s : State) (e : Nat) (f : Engine → Engine) : (s.onEng e f).qctx = s.qctx := rfl
@[simp] theorem State.onEng_feeds (s : State) (e : Nat) (f : Engine → Engine) : (s.onEng e f).feeds = s.feeds := rfl
@[simp] theorem State.onEng_cfgSpace (s : State) (e : Nat) (f : Engine → Engine) : (s.onEng e f).cfgSpace = s.cfgSpace := rfl
@[simp] theorem State.onEng_msix (s : State) (e : Nat) (f : Engine → Engine) : (s.onEng e f).msix = s.msix := rfl
@[simp] theorem State.onEng_msixPend (s : State) (e : Nat) (f : Engine → Engine) : (s.onEng e f).msixPend = s.msixPend := rfl
@[simp] theorem State.onEng_beat (s : State) (e : Nat) (f : Engine → Engine) : (s.onEng e f).beat = s.beat := rfl
@[simp] theorem State.onEng_setPend (s : State) (e : Nat) (f : Engine → Engine) : (s.onEng e f).setPend = s.setPend := rfl
@[simp] theorem State.onEng_edgeMark (s : State) (e : Nat) (f : Engine → Engine) : (s.onEng e f).edgeMark = s.edgeMark := rfl
@[simp] theorem State.onEng_stages (s : State) (e : Nat) (f : Engine → Engine) : (s.onEng e f).stages = s.stages := rfl
@[simp] theorem State.onEng_skFail (s : State) (e : Nat) (f : Engine → Engine) : (s.onEng e f).skFail = s.skFail := rfl
@[simp] theorem State.onEng_guestWaits (s : State) (e : Nat) (f : Engine → Engine) : (s.onEng e f).guestWaits = s.guestWaits := rfl
@[simp] theorem State.onEng_guestTag (s : State) (e : Nat) (f : Engine → Engine) : (s.onEng e f).guestTag = s.guestTag := rfl
@[simp] theorem State.onEng_guestHeld (s : State) (e : Nat) (f : Engine → Engine) : (s.onEng e f).guestHeld = s.guestHeld := rfl
@[simp] theorem State.onEng_rampQ (s : State) (e : Nat) (f : Engine → Engine) : (s.onEng e f).rampQ = s.rampQ := rfl
@[simp] theorem State.onEng_input (s : State) (e : Nat) (f : Engine → Engine) : (s.onEng e f).input = s.input := rfl
@[simp] theorem State.onEng_flow (s : State) (e : Nat) (f : Engine → Engine) : (s.onEng e f).flow = s.flow := rfl
@[simp] theorem State.onEng_boot (s : State) (e : Nat) (f : Engine → Engine) : (s.onEng e f).boot = s.boot := rfl
@[simp] theorem State.onEng_flash (s : State) (e : Nat) (f : Engine → Engine) : (s.onEng e f).flash = s.flash := rfl
@[simp] theorem State.onEng_delivery (s : State) (e : Nat) (f : Engine → Engine) : (s.onEng e f).delivery = s.delivery := rfl
@[simp] theorem State.onEng_session (s : State) (e : Nat) (f : Engine → Engine) : (s.onEng e f).session = s.session := rfl
@[simp] theorem State.onEng_mbox (s : State) (e : Nat) (f : Engine → Engine) : (s.onEng e f).mbox = s.mbox := rfl
@[simp] theorem State.onEng_latches (s : State) (e : Nat) (f : Engine → Engine) : (s.onEng e f).latches = s.latches := rfl
@[simp] theorem State.onEng_utc (s : State) (e : Nat) (f : Engine → Engine) : (s.onEng e f).utc = s.utc := rfl
@[simp] theorem State.onEng_easel (s : State) (e : Nat) (f : Engine → Engine) : (s.onEng e f).easel = s.easel := rfl
@[simp] theorem State.onEng_out (s : State) (e : Nat) (f : Engine → Engine) : (s.onEng e f).out = s.out := rfl
@[simp] theorem State.onEng_pending (s : State) (e : Nat) (f : Engine → Engine) : (s.onEng e f).pending = s.pending := rfl

@[simp] theorem State.setCell_now (s : State) (e d c : Nat) (x : Cell) : (s.setCell e d c x).now = s.now := rfl
@[simp] theorem State.setCell_master (s : State) (e d c : Nat) (x : Cell) : (s.setCell e d c x).master = s.master := rfl
@[simp] theorem State.setCell_freeCtr (s : State) (e d c : Nat) (x : Cell) : (s.setCell e d c x).freeCtr = s.freeCtr := rfl
@[simp] theorem State.setCell_defectQ (s : State) (e d c : Nat) (x : Cell) : (s.setCell e d c x).defectQ = s.defectQ := rfl
@[simp] theorem State.setCell_regs (s : State) (e d c : Nat) (x : Cell) : (s.setCell e d c x).regs = s.regs := rfl
@[simp] theorem State.setCell_hbm (s : State) (e d c : Nat) (x : Cell) : (s.setCell e d c x).hbm = s.hbm := rfl
@[simp] theorem State.setCell_limit (s : State) (e d c : Nat) (x : Cell) : (s.setCell e d c x).limit = s.limit := rfl
@[simp] theorem State.setCell_edgeDown (s : State) (e d c : Nat) (x : Cell) : (s.setCell e d c x).edgeDown = s.edgeDown := rfl
@[simp] theorem State.setCell_edgeFeid (s : State) (e d c : Nat) (x : Cell) : (s.setCell e d c x).edgeFeid = s.edgeFeid := rfl
@[simp] theorem State.setCell_primary (s : State) (e d c : Nat) (x : Cell) : (s.setCell e d c x).primary = s.primary := rfl
@[simp] theorem State.setCell_engines (s : State) (e d c : Nat) (x : Cell) : (s.setCell e d c x).engines = s.engines := rfl
@[simp] theorem State.setCell_fabs (s : State) (e d c : Nat) (x : Cell) : (s.setCell e d c x).fabs = s.fabs := rfl
@[simp] theorem State.setCell_ground (s : State) (e d c : Nat) (x : Cell) : (s.setCell e d c x).ground = s.ground := rfl
@[simp] theorem State.setCell_faultLog (s : State) (e d c : Nat) (x : Cell) : (s.setCell e d c x).faultLog = s.faultLog := rfl
@[simp] theorem State.setCell_cellParity (s : State) (e d c : Nat) (x : Cell) : (s.setCell e d c x).cellParity = s.cellParity := rfl
@[simp] theorem State.setCell_armCopies (s : State) (e d c : Nat) (x : Cell) : (s.setCell e d c x).armCopies = s.armCopies := rfl
@[simp] theorem State.setCell_halted (s : State) (e d c : Nat) (x : Cell) : (s.setCell e d c x).halted = s.halted := rfl
@[simp] theorem State.setCell_capture (s : State) (e d c : Nat) (x : Cell) : (s.setCell e d c x).capture = s.capture := rfl
@[simp] theorem State.setCell_gapWrites (s : State) (e d c : Nat) (x : Cell) : (s.setCell e d c x).gapWrites = s.gapWrites := rfl
@[simp] theorem State.setCell_gapEvents (s : State) (e d c : Nat) (x : Cell) : (s.setCell e d c x).gapEvents = s.gapEvents := rfl
@[simp] theorem State.setCell_events (s : State) (e d c : Nat) (x : Cell) : (s.setCell e d c x).events = s.events := rfl
@[simp] theorem State.setCell_pulseStart (s : State) (e d c : Nat) (x : Cell) : (s.setCell e d c x).pulseStart = s.pulseStart := rfl
@[simp] theorem State.setCell_annDown (s : State) (e d c : Nat) (x : Cell) : (s.setCell e d c x).annDown = s.annDown := rfl
@[simp] theorem State.setCell_annUp (s : State) (e d c : Nat) (x : Cell) : (s.setCell e d c x).annUp = s.annUp := rfl
@[simp] theorem State.setCell_adoptQ (s : State) (e d c : Nat) (x : Cell) : (s.setCell e d c x).adoptQ = s.adoptQ := rfl
@[simp] theorem State.setCell_members (s : State) (e d c : Nat) (x : Cell) : (s.setCell e d c x).members = s.members := rfl
@[simp] theorem State.setCell_packets (s : State) (e d c : Nat) (x : Cell) : (s.setCell e d c x).packets = s.packets := rfl
@[simp] theorem State.setCell_links (s : State) (e d c : Nat) (x : Cell) : (s.setCell e d c x).links = s.links := rfl
@[simp] theorem State.setCell_linkIn (s : State) (e d c : Nat) (x : Cell) : (s.setCell e d c x).linkIn = s.linkIn := rfl
@[simp] theorem State.setCell_colls (s : State) (e d c : Nat) (x : Cell) : (s.setCell e d c x).colls = s.colls := rfl
@[simp] theorem State.setCell_collIn (s : State) (e d c : Nat) (x : Cell) : (s.setCell e d c x).collIn = s.collIn := rfl
@[simp] theorem State.setCell_verdictSeen (s : State) (e d c : Nat) (x : Cell) : (s.setCell e d c x).verdictSeen = s.verdictSeen := rfl
@[simp] theorem State.setCell_verdictIn (s : State) (e d c : Nat) (x : Cell) : (s.setCell e d c x).verdictIn = s.verdictIn := rfl
@[simp] theorem State.setCell_pair (s : State) (e d c : Nat) (x : Cell) : (s.setCell e d c x).pair = s.pair := rfl
@[simp] theorem State.setCell_adoptLost (s : State) (e d c : Nat) (x : Cell) : (s.setCell e d c x).adoptLost = s.adoptLost := rfl
@[simp] theorem State.setCell_ports (s : State) (e d c : Nat) (x : Cell) : (s.setCell e d c x).ports = s.ports := rfl
@[simp] theorem State.setCell_qctx (s : State) (e d c : Nat) (x : Cell) : (s.setCell e d c x).qctx = s.qctx := rfl
@[simp] theorem State.setCell_feeds (s : State) (e d c : Nat) (x : Cell) : (s.setCell e d c x).feeds = s.feeds := rfl
@[simp] theorem State.setCell_cfgSpace (s : State) (e d c : Nat) (x : Cell) : (s.setCell e d c x).cfgSpace = s.cfgSpace := rfl
@[simp] theorem State.setCell_msix (s : State) (e d c : Nat) (x : Cell) : (s.setCell e d c x).msix = s.msix := rfl
@[simp] theorem State.setCell_msixPend (s : State) (e d c : Nat) (x : Cell) : (s.setCell e d c x).msixPend = s.msixPend := rfl
@[simp] theorem State.setCell_beat (s : State) (e d c : Nat) (x : Cell) : (s.setCell e d c x).beat = s.beat := rfl
@[simp] theorem State.setCell_setPend (s : State) (e d c : Nat) (x : Cell) : (s.setCell e d c x).setPend = s.setPend := rfl
@[simp] theorem State.setCell_edgeMark (s : State) (e d c : Nat) (x : Cell) : (s.setCell e d c x).edgeMark = s.edgeMark := rfl
@[simp] theorem State.setCell_stages (s : State) (e d c : Nat) (x : Cell) : (s.setCell e d c x).stages = s.stages := rfl
@[simp] theorem State.setCell_skFail (s : State) (e d c : Nat) (x : Cell) : (s.setCell e d c x).skFail = s.skFail := rfl
@[simp] theorem State.setCell_guestWaits (s : State) (e d c : Nat) (x : Cell) : (s.setCell e d c x).guestWaits = s.guestWaits := rfl
@[simp] theorem State.setCell_guestTag (s : State) (e d c : Nat) (x : Cell) : (s.setCell e d c x).guestTag = s.guestTag := rfl
@[simp] theorem State.setCell_guestHeld (s : State) (e d c : Nat) (x : Cell) : (s.setCell e d c x).guestHeld = s.guestHeld := rfl
@[simp] theorem State.setCell_rampQ (s : State) (e d c : Nat) (x : Cell) : (s.setCell e d c x).rampQ = s.rampQ := rfl
@[simp] theorem State.setCell_input (s : State) (e d c : Nat) (x : Cell) : (s.setCell e d c x).input = s.input := rfl
@[simp] theorem State.setCell_flow (s : State) (e d c : Nat) (x : Cell) : (s.setCell e d c x).flow = s.flow := rfl
@[simp] theorem State.setCell_boot (s : State) (e d c : Nat) (x : Cell) : (s.setCell e d c x).boot = s.boot := rfl
@[simp] theorem State.setCell_flash (s : State) (e d c : Nat) (x : Cell) : (s.setCell e d c x).flash = s.flash := rfl
@[simp] theorem State.setCell_delivery (s : State) (e d c : Nat) (x : Cell) : (s.setCell e d c x).delivery = s.delivery := rfl
@[simp] theorem State.setCell_session (s : State) (e d c : Nat) (x : Cell) : (s.setCell e d c x).session = s.session := rfl
@[simp] theorem State.setCell_mbox (s : State) (e d c : Nat) (x : Cell) : (s.setCell e d c x).mbox = s.mbox := rfl
@[simp] theorem State.setCell_latches (s : State) (e d c : Nat) (x : Cell) : (s.setCell e d c x).latches = s.latches := rfl
@[simp] theorem State.setCell_utc (s : State) (e d c : Nat) (x : Cell) : (s.setCell e d c x).utc = s.utc := rfl
@[simp] theorem State.setCell_easel (s : State) (e d c : Nat) (x : Cell) : (s.setCell e d c x).easel = s.easel := rfl
@[simp] theorem State.setCell_out (s : State) (e d c : Nat) (x : Cell) : (s.setCell e d c x).out = s.out := rfl
@[simp] theorem State.setCell_pending (s : State) (e d c : Nat) (x : Cell) : (s.setCell e d c x).pending = s.pending := rfl

@[simp] theorem State.onCell_now (s : State) (e d c : Nat) (f : Cell → Cell) : (s.onCell e d c f).now = s.now := rfl
@[simp] theorem State.onCell_master (s : State) (e d c : Nat) (f : Cell → Cell) : (s.onCell e d c f).master = s.master := rfl
@[simp] theorem State.onCell_freeCtr (s : State) (e d c : Nat) (f : Cell → Cell) : (s.onCell e d c f).freeCtr = s.freeCtr := rfl
@[simp] theorem State.onCell_defectQ (s : State) (e d c : Nat) (f : Cell → Cell) : (s.onCell e d c f).defectQ = s.defectQ := rfl
@[simp] theorem State.onCell_regs (s : State) (e d c : Nat) (f : Cell → Cell) : (s.onCell e d c f).regs = s.regs := rfl
@[simp] theorem State.onCell_hbm (s : State) (e d c : Nat) (f : Cell → Cell) : (s.onCell e d c f).hbm = s.hbm := rfl
@[simp] theorem State.onCell_limit (s : State) (e d c : Nat) (f : Cell → Cell) : (s.onCell e d c f).limit = s.limit := rfl
@[simp] theorem State.onCell_edgeDown (s : State) (e d c : Nat) (f : Cell → Cell) : (s.onCell e d c f).edgeDown = s.edgeDown := rfl
@[simp] theorem State.onCell_edgeFeid (s : State) (e d c : Nat) (f : Cell → Cell) : (s.onCell e d c f).edgeFeid = s.edgeFeid := rfl
@[simp] theorem State.onCell_primary (s : State) (e d c : Nat) (f : Cell → Cell) : (s.onCell e d c f).primary = s.primary := rfl
@[simp] theorem State.onCell_engines (s : State) (e d c : Nat) (f : Cell → Cell) : (s.onCell e d c f).engines = s.engines := rfl
@[simp] theorem State.onCell_fabs (s : State) (e d c : Nat) (f : Cell → Cell) : (s.onCell e d c f).fabs = s.fabs := rfl
@[simp] theorem State.onCell_ground (s : State) (e d c : Nat) (f : Cell → Cell) : (s.onCell e d c f).ground = s.ground := rfl
@[simp] theorem State.onCell_faultLog (s : State) (e d c : Nat) (f : Cell → Cell) : (s.onCell e d c f).faultLog = s.faultLog := rfl
@[simp] theorem State.onCell_cellParity (s : State) (e d c : Nat) (f : Cell → Cell) : (s.onCell e d c f).cellParity = s.cellParity := rfl
@[simp] theorem State.onCell_armCopies (s : State) (e d c : Nat) (f : Cell → Cell) : (s.onCell e d c f).armCopies = s.armCopies := rfl
@[simp] theorem State.onCell_halted (s : State) (e d c : Nat) (f : Cell → Cell) : (s.onCell e d c f).halted = s.halted := rfl
@[simp] theorem State.onCell_capture (s : State) (e d c : Nat) (f : Cell → Cell) : (s.onCell e d c f).capture = s.capture := rfl
@[simp] theorem State.onCell_gapWrites (s : State) (e d c : Nat) (f : Cell → Cell) : (s.onCell e d c f).gapWrites = s.gapWrites := rfl
@[simp] theorem State.onCell_gapEvents (s : State) (e d c : Nat) (f : Cell → Cell) : (s.onCell e d c f).gapEvents = s.gapEvents := rfl
@[simp] theorem State.onCell_events (s : State) (e d c : Nat) (f : Cell → Cell) : (s.onCell e d c f).events = s.events := rfl
@[simp] theorem State.onCell_pulseStart (s : State) (e d c : Nat) (f : Cell → Cell) : (s.onCell e d c f).pulseStart = s.pulseStart := rfl
@[simp] theorem State.onCell_annDown (s : State) (e d c : Nat) (f : Cell → Cell) : (s.onCell e d c f).annDown = s.annDown := rfl
@[simp] theorem State.onCell_annUp (s : State) (e d c : Nat) (f : Cell → Cell) : (s.onCell e d c f).annUp = s.annUp := rfl
@[simp] theorem State.onCell_adoptQ (s : State) (e d c : Nat) (f : Cell → Cell) : (s.onCell e d c f).adoptQ = s.adoptQ := rfl
@[simp] theorem State.onCell_members (s : State) (e d c : Nat) (f : Cell → Cell) : (s.onCell e d c f).members = s.members := rfl
@[simp] theorem State.onCell_packets (s : State) (e d c : Nat) (f : Cell → Cell) : (s.onCell e d c f).packets = s.packets := rfl
@[simp] theorem State.onCell_links (s : State) (e d c : Nat) (f : Cell → Cell) : (s.onCell e d c f).links = s.links := rfl
@[simp] theorem State.onCell_linkIn (s : State) (e d c : Nat) (f : Cell → Cell) : (s.onCell e d c f).linkIn = s.linkIn := rfl
@[simp] theorem State.onCell_colls (s : State) (e d c : Nat) (f : Cell → Cell) : (s.onCell e d c f).colls = s.colls := rfl
@[simp] theorem State.onCell_collIn (s : State) (e d c : Nat) (f : Cell → Cell) : (s.onCell e d c f).collIn = s.collIn := rfl
@[simp] theorem State.onCell_verdictSeen (s : State) (e d c : Nat) (f : Cell → Cell) : (s.onCell e d c f).verdictSeen = s.verdictSeen := rfl
@[simp] theorem State.onCell_verdictIn (s : State) (e d c : Nat) (f : Cell → Cell) : (s.onCell e d c f).verdictIn = s.verdictIn := rfl
@[simp] theorem State.onCell_pair (s : State) (e d c : Nat) (f : Cell → Cell) : (s.onCell e d c f).pair = s.pair := rfl
@[simp] theorem State.onCell_adoptLost (s : State) (e d c : Nat) (f : Cell → Cell) : (s.onCell e d c f).adoptLost = s.adoptLost := rfl
@[simp] theorem State.onCell_ports (s : State) (e d c : Nat) (f : Cell → Cell) : (s.onCell e d c f).ports = s.ports := rfl
@[simp] theorem State.onCell_qctx (s : State) (e d c : Nat) (f : Cell → Cell) : (s.onCell e d c f).qctx = s.qctx := rfl
@[simp] theorem State.onCell_feeds (s : State) (e d c : Nat) (f : Cell → Cell) : (s.onCell e d c f).feeds = s.feeds := rfl
@[simp] theorem State.onCell_cfgSpace (s : State) (e d c : Nat) (f : Cell → Cell) : (s.onCell e d c f).cfgSpace = s.cfgSpace := rfl
@[simp] theorem State.onCell_msix (s : State) (e d c : Nat) (f : Cell → Cell) : (s.onCell e d c f).msix = s.msix := rfl
@[simp] theorem State.onCell_msixPend (s : State) (e d c : Nat) (f : Cell → Cell) : (s.onCell e d c f).msixPend = s.msixPend := rfl
@[simp] theorem State.onCell_beat (s : State) (e d c : Nat) (f : Cell → Cell) : (s.onCell e d c f).beat = s.beat := rfl
@[simp] theorem State.onCell_setPend (s : State) (e d c : Nat) (f : Cell → Cell) : (s.onCell e d c f).setPend = s.setPend := rfl
@[simp] theorem State.onCell_edgeMark (s : State) (e d c : Nat) (f : Cell → Cell) : (s.onCell e d c f).edgeMark = s.edgeMark := rfl
@[simp] theorem State.onCell_stages (s : State) (e d c : Nat) (f : Cell → Cell) : (s.onCell e d c f).stages = s.stages := rfl
@[simp] theorem State.onCell_skFail (s : State) (e d c : Nat) (f : Cell → Cell) : (s.onCell e d c f).skFail = s.skFail := rfl
@[simp] theorem State.onCell_guestWaits (s : State) (e d c : Nat) (f : Cell → Cell) : (s.onCell e d c f).guestWaits = s.guestWaits := rfl
@[simp] theorem State.onCell_guestTag (s : State) (e d c : Nat) (f : Cell → Cell) : (s.onCell e d c f).guestTag = s.guestTag := rfl
@[simp] theorem State.onCell_guestHeld (s : State) (e d c : Nat) (f : Cell → Cell) : (s.onCell e d c f).guestHeld = s.guestHeld := rfl
@[simp] theorem State.onCell_rampQ (s : State) (e d c : Nat) (f : Cell → Cell) : (s.onCell e d c f).rampQ = s.rampQ := rfl
@[simp] theorem State.onCell_input (s : State) (e d c : Nat) (f : Cell → Cell) : (s.onCell e d c f).input = s.input := rfl
@[simp] theorem State.onCell_flow (s : State) (e d c : Nat) (f : Cell → Cell) : (s.onCell e d c f).flow = s.flow := rfl
@[simp] theorem State.onCell_boot (s : State) (e d c : Nat) (f : Cell → Cell) : (s.onCell e d c f).boot = s.boot := rfl
@[simp] theorem State.onCell_flash (s : State) (e d c : Nat) (f : Cell → Cell) : (s.onCell e d c f).flash = s.flash := rfl
@[simp] theorem State.onCell_delivery (s : State) (e d c : Nat) (f : Cell → Cell) : (s.onCell e d c f).delivery = s.delivery := rfl
@[simp] theorem State.onCell_session (s : State) (e d c : Nat) (f : Cell → Cell) : (s.onCell e d c f).session = s.session := rfl
@[simp] theorem State.onCell_mbox (s : State) (e d c : Nat) (f : Cell → Cell) : (s.onCell e d c f).mbox = s.mbox := rfl
@[simp] theorem State.onCell_latches (s : State) (e d c : Nat) (f : Cell → Cell) : (s.onCell e d c f).latches = s.latches := rfl
@[simp] theorem State.onCell_utc (s : State) (e d c : Nat) (f : Cell → Cell) : (s.onCell e d c f).utc = s.utc := rfl
@[simp] theorem State.onCell_easel (s : State) (e d c : Nat) (f : Cell → Cell) : (s.onCell e d c f).easel = s.easel := rfl
@[simp] theorem State.onCell_out (s : State) (e d c : Nat) (f : Cell → Cell) : (s.onCell e d c f).out = s.out := rfl
@[simp] theorem State.onCell_pending (s : State) (e d c : Nat) (f : Cell → Cell) : (s.onCell e d c f).pending = s.pending := rfl

@[simp] theorem State.onCells_now (s : State) (e : Nat) (d : Option Nat) (f : Cell → Cell) : (s.onCells e d f).now = s.now := rfl
@[simp] theorem State.onCells_master (s : State) (e : Nat) (d : Option Nat) (f : Cell → Cell) : (s.onCells e d f).master = s.master := rfl
@[simp] theorem State.onCells_freeCtr (s : State) (e : Nat) (d : Option Nat) (f : Cell → Cell) : (s.onCells e d f).freeCtr = s.freeCtr := rfl
@[simp] theorem State.onCells_defectQ (s : State) (e : Nat) (d : Option Nat) (f : Cell → Cell) : (s.onCells e d f).defectQ = s.defectQ := rfl
@[simp] theorem State.onCells_regs (s : State) (e : Nat) (d : Option Nat) (f : Cell → Cell) : (s.onCells e d f).regs = s.regs := rfl
@[simp] theorem State.onCells_hbm (s : State) (e : Nat) (d : Option Nat) (f : Cell → Cell) : (s.onCells e d f).hbm = s.hbm := rfl
@[simp] theorem State.onCells_limit (s : State) (e : Nat) (d : Option Nat) (f : Cell → Cell) : (s.onCells e d f).limit = s.limit := rfl
@[simp] theorem State.onCells_edgeDown (s : State) (e : Nat) (d : Option Nat) (f : Cell → Cell) : (s.onCells e d f).edgeDown = s.edgeDown := rfl
@[simp] theorem State.onCells_edgeFeid (s : State) (e : Nat) (d : Option Nat) (f : Cell → Cell) : (s.onCells e d f).edgeFeid = s.edgeFeid := rfl
@[simp] theorem State.onCells_primary (s : State) (e : Nat) (d : Option Nat) (f : Cell → Cell) : (s.onCells e d f).primary = s.primary := rfl
@[simp] theorem State.onCells_engines (s : State) (e : Nat) (d : Option Nat) (f : Cell → Cell) : (s.onCells e d f).engines = s.engines := rfl
@[simp] theorem State.onCells_fabs (s : State) (e : Nat) (d : Option Nat) (f : Cell → Cell) : (s.onCells e d f).fabs = s.fabs := rfl
@[simp] theorem State.onCells_ground (s : State) (e : Nat) (d : Option Nat) (f : Cell → Cell) : (s.onCells e d f).ground = s.ground := rfl
@[simp] theorem State.onCells_faultLog (s : State) (e : Nat) (d : Option Nat) (f : Cell → Cell) : (s.onCells e d f).faultLog = s.faultLog := rfl
@[simp] theorem State.onCells_cellParity (s : State) (e : Nat) (d : Option Nat) (f : Cell → Cell) : (s.onCells e d f).cellParity = s.cellParity := rfl
@[simp] theorem State.onCells_armCopies (s : State) (e : Nat) (d : Option Nat) (f : Cell → Cell) : (s.onCells e d f).armCopies = s.armCopies := rfl
@[simp] theorem State.onCells_halted (s : State) (e : Nat) (d : Option Nat) (f : Cell → Cell) : (s.onCells e d f).halted = s.halted := rfl
@[simp] theorem State.onCells_capture (s : State) (e : Nat) (d : Option Nat) (f : Cell → Cell) : (s.onCells e d f).capture = s.capture := rfl
@[simp] theorem State.onCells_gapWrites (s : State) (e : Nat) (d : Option Nat) (f : Cell → Cell) : (s.onCells e d f).gapWrites = s.gapWrites := rfl
@[simp] theorem State.onCells_gapEvents (s : State) (e : Nat) (d : Option Nat) (f : Cell → Cell) : (s.onCells e d f).gapEvents = s.gapEvents := rfl
@[simp] theorem State.onCells_events (s : State) (e : Nat) (d : Option Nat) (f : Cell → Cell) : (s.onCells e d f).events = s.events := rfl
@[simp] theorem State.onCells_pulseStart (s : State) (e : Nat) (d : Option Nat) (f : Cell → Cell) : (s.onCells e d f).pulseStart = s.pulseStart := rfl
@[simp] theorem State.onCells_annDown (s : State) (e : Nat) (d : Option Nat) (f : Cell → Cell) : (s.onCells e d f).annDown = s.annDown := rfl
@[simp] theorem State.onCells_annUp (s : State) (e : Nat) (d : Option Nat) (f : Cell → Cell) : (s.onCells e d f).annUp = s.annUp := rfl
@[simp] theorem State.onCells_adoptQ (s : State) (e : Nat) (d : Option Nat) (f : Cell → Cell) : (s.onCells e d f).adoptQ = s.adoptQ := rfl
@[simp] theorem State.onCells_members (s : State) (e : Nat) (d : Option Nat) (f : Cell → Cell) : (s.onCells e d f).members = s.members := rfl
@[simp] theorem State.onCells_packets (s : State) (e : Nat) (d : Option Nat) (f : Cell → Cell) : (s.onCells e d f).packets = s.packets := rfl
@[simp] theorem State.onCells_links (s : State) (e : Nat) (d : Option Nat) (f : Cell → Cell) : (s.onCells e d f).links = s.links := rfl
@[simp] theorem State.onCells_linkIn (s : State) (e : Nat) (d : Option Nat) (f : Cell → Cell) : (s.onCells e d f).linkIn = s.linkIn := rfl
@[simp] theorem State.onCells_colls (s : State) (e : Nat) (d : Option Nat) (f : Cell → Cell) : (s.onCells e d f).colls = s.colls := rfl
@[simp] theorem State.onCells_collIn (s : State) (e : Nat) (d : Option Nat) (f : Cell → Cell) : (s.onCells e d f).collIn = s.collIn := rfl
@[simp] theorem State.onCells_verdictSeen (s : State) (e : Nat) (d : Option Nat) (f : Cell → Cell) : (s.onCells e d f).verdictSeen = s.verdictSeen := rfl
@[simp] theorem State.onCells_verdictIn (s : State) (e : Nat) (d : Option Nat) (f : Cell → Cell) : (s.onCells e d f).verdictIn = s.verdictIn := rfl
@[simp] theorem State.onCells_pair (s : State) (e : Nat) (d : Option Nat) (f : Cell → Cell) : (s.onCells e d f).pair = s.pair := rfl
@[simp] theorem State.onCells_adoptLost (s : State) (e : Nat) (d : Option Nat) (f : Cell → Cell) : (s.onCells e d f).adoptLost = s.adoptLost := rfl
@[simp] theorem State.onCells_ports (s : State) (e : Nat) (d : Option Nat) (f : Cell → Cell) : (s.onCells e d f).ports = s.ports := rfl
@[simp] theorem State.onCells_qctx (s : State) (e : Nat) (d : Option Nat) (f : Cell → Cell) : (s.onCells e d f).qctx = s.qctx := rfl
@[simp] theorem State.onCells_feeds (s : State) (e : Nat) (d : Option Nat) (f : Cell → Cell) : (s.onCells e d f).feeds = s.feeds := rfl
@[simp] theorem State.onCells_cfgSpace (s : State) (e : Nat) (d : Option Nat) (f : Cell → Cell) : (s.onCells e d f).cfgSpace = s.cfgSpace := rfl
@[simp] theorem State.onCells_msix (s : State) (e : Nat) (d : Option Nat) (f : Cell → Cell) : (s.onCells e d f).msix = s.msix := rfl
@[simp] theorem State.onCells_msixPend (s : State) (e : Nat) (d : Option Nat) (f : Cell → Cell) : (s.onCells e d f).msixPend = s.msixPend := rfl
@[simp] theorem State.onCells_beat (s : State) (e : Nat) (d : Option Nat) (f : Cell → Cell) : (s.onCells e d f).beat = s.beat := rfl
@[simp] theorem State.onCells_setPend (s : State) (e : Nat) (d : Option Nat) (f : Cell → Cell) : (s.onCells e d f).setPend = s.setPend := rfl
@[simp] theorem State.onCells_edgeMark (s : State) (e : Nat) (d : Option Nat) (f : Cell → Cell) : (s.onCells e d f).edgeMark = s.edgeMark := rfl
@[simp] theorem State.onCells_stages (s : State) (e : Nat) (d : Option Nat) (f : Cell → Cell) : (s.onCells e d f).stages = s.stages := rfl
@[simp] theorem State.onCells_skFail (s : State) (e : Nat) (d : Option Nat) (f : Cell → Cell) : (s.onCells e d f).skFail = s.skFail := rfl
@[simp] theorem State.onCells_guestWaits (s : State) (e : Nat) (d : Option Nat) (f : Cell → Cell) : (s.onCells e d f).guestWaits = s.guestWaits := rfl
@[simp] theorem State.onCells_guestTag (s : State) (e : Nat) (d : Option Nat) (f : Cell → Cell) : (s.onCells e d f).guestTag = s.guestTag := rfl
@[simp] theorem State.onCells_guestHeld (s : State) (e : Nat) (d : Option Nat) (f : Cell → Cell) : (s.onCells e d f).guestHeld = s.guestHeld := rfl
@[simp] theorem State.onCells_rampQ (s : State) (e : Nat) (d : Option Nat) (f : Cell → Cell) : (s.onCells e d f).rampQ = s.rampQ := rfl
@[simp] theorem State.onCells_input (s : State) (e : Nat) (d : Option Nat) (f : Cell → Cell) : (s.onCells e d f).input = s.input := rfl
@[simp] theorem State.onCells_flow (s : State) (e : Nat) (d : Option Nat) (f : Cell → Cell) : (s.onCells e d f).flow = s.flow := rfl
@[simp] theorem State.onCells_boot (s : State) (e : Nat) (d : Option Nat) (f : Cell → Cell) : (s.onCells e d f).boot = s.boot := rfl
@[simp] theorem State.onCells_flash (s : State) (e : Nat) (d : Option Nat) (f : Cell → Cell) : (s.onCells e d f).flash = s.flash := rfl
@[simp] theorem State.onCells_delivery (s : State) (e : Nat) (d : Option Nat) (f : Cell → Cell) : (s.onCells e d f).delivery = s.delivery := rfl
@[simp] theorem State.onCells_session (s : State) (e : Nat) (d : Option Nat) (f : Cell → Cell) : (s.onCells e d f).session = s.session := rfl
@[simp] theorem State.onCells_mbox (s : State) (e : Nat) (d : Option Nat) (f : Cell → Cell) : (s.onCells e d f).mbox = s.mbox := rfl
@[simp] theorem State.onCells_latches (s : State) (e : Nat) (d : Option Nat) (f : Cell → Cell) : (s.onCells e d f).latches = s.latches := rfl
@[simp] theorem State.onCells_utc (s : State) (e : Nat) (d : Option Nat) (f : Cell → Cell) : (s.onCells e d f).utc = s.utc := rfl
@[simp] theorem State.onCells_easel (s : State) (e : Nat) (d : Option Nat) (f : Cell → Cell) : (s.onCells e d f).easel = s.easel := rfl
@[simp] theorem State.onCells_out (s : State) (e : Nat) (d : Option Nat) (f : Cell → Cell) : (s.onCells e d f).out = s.out := rfl
@[simp] theorem State.onCells_pending (s : State) (e : Nat) (d : Option Nat) (f : Cell → Cell) : (s.onCells e d f).pending = s.pending := rfl

@[simp] theorem State.setFab_now (s : State) (e d : Nat) (x : Fab) : (s.setFab e d x).now = s.now := rfl
@[simp] theorem State.setFab_master (s : State) (e d : Nat) (x : Fab) : (s.setFab e d x).master = s.master := rfl
@[simp] theorem State.setFab_freeCtr (s : State) (e d : Nat) (x : Fab) : (s.setFab e d x).freeCtr = s.freeCtr := rfl
@[simp] theorem State.setFab_defectQ (s : State) (e d : Nat) (x : Fab) : (s.setFab e d x).defectQ = s.defectQ := rfl
@[simp] theorem State.setFab_regs (s : State) (e d : Nat) (x : Fab) : (s.setFab e d x).regs = s.regs := rfl
@[simp] theorem State.setFab_hbm (s : State) (e d : Nat) (x : Fab) : (s.setFab e d x).hbm = s.hbm := rfl
@[simp] theorem State.setFab_limit (s : State) (e d : Nat) (x : Fab) : (s.setFab e d x).limit = s.limit := rfl
@[simp] theorem State.setFab_edgeDown (s : State) (e d : Nat) (x : Fab) : (s.setFab e d x).edgeDown = s.edgeDown := rfl
@[simp] theorem State.setFab_edgeFeid (s : State) (e d : Nat) (x : Fab) : (s.setFab e d x).edgeFeid = s.edgeFeid := rfl
@[simp] theorem State.setFab_primary (s : State) (e d : Nat) (x : Fab) : (s.setFab e d x).primary = s.primary := rfl
@[simp] theorem State.setFab_engines (s : State) (e d : Nat) (x : Fab) : (s.setFab e d x).engines = s.engines := rfl
@[simp] theorem State.setFab_cells (s : State) (e d : Nat) (x : Fab) : (s.setFab e d x).cells = s.cells := rfl
@[simp] theorem State.setFab_ground (s : State) (e d : Nat) (x : Fab) : (s.setFab e d x).ground = s.ground := rfl
@[simp] theorem State.setFab_faultLog (s : State) (e d : Nat) (x : Fab) : (s.setFab e d x).faultLog = s.faultLog := rfl
@[simp] theorem State.setFab_cellParity (s : State) (e d : Nat) (x : Fab) : (s.setFab e d x).cellParity = s.cellParity := rfl
@[simp] theorem State.setFab_armCopies (s : State) (e d : Nat) (x : Fab) : (s.setFab e d x).armCopies = s.armCopies := rfl
@[simp] theorem State.setFab_halted (s : State) (e d : Nat) (x : Fab) : (s.setFab e d x).halted = s.halted := rfl
@[simp] theorem State.setFab_capture (s : State) (e d : Nat) (x : Fab) : (s.setFab e d x).capture = s.capture := rfl
@[simp] theorem State.setFab_gapWrites (s : State) (e d : Nat) (x : Fab) : (s.setFab e d x).gapWrites = s.gapWrites := rfl
@[simp] theorem State.setFab_gapEvents (s : State) (e d : Nat) (x : Fab) : (s.setFab e d x).gapEvents = s.gapEvents := rfl
@[simp] theorem State.setFab_events (s : State) (e d : Nat) (x : Fab) : (s.setFab e d x).events = s.events := rfl
@[simp] theorem State.setFab_pulseStart (s : State) (e d : Nat) (x : Fab) : (s.setFab e d x).pulseStart = s.pulseStart := rfl
@[simp] theorem State.setFab_annDown (s : State) (e d : Nat) (x : Fab) : (s.setFab e d x).annDown = s.annDown := rfl
@[simp] theorem State.setFab_annUp (s : State) (e d : Nat) (x : Fab) : (s.setFab e d x).annUp = s.annUp := rfl
@[simp] theorem State.setFab_adoptQ (s : State) (e d : Nat) (x : Fab) : (s.setFab e d x).adoptQ = s.adoptQ := rfl
@[simp] theorem State.setFab_members (s : State) (e d : Nat) (x : Fab) : (s.setFab e d x).members = s.members := rfl
@[simp] theorem State.setFab_packets (s : State) (e d : Nat) (x : Fab) : (s.setFab e d x).packets = s.packets := rfl
@[simp] theorem State.setFab_links (s : State) (e d : Nat) (x : Fab) : (s.setFab e d x).links = s.links := rfl
@[simp] theorem State.setFab_linkIn (s : State) (e d : Nat) (x : Fab) : (s.setFab e d x).linkIn = s.linkIn := rfl
@[simp] theorem State.setFab_colls (s : State) (e d : Nat) (x : Fab) : (s.setFab e d x).colls = s.colls := rfl
@[simp] theorem State.setFab_collIn (s : State) (e d : Nat) (x : Fab) : (s.setFab e d x).collIn = s.collIn := rfl
@[simp] theorem State.setFab_verdictSeen (s : State) (e d : Nat) (x : Fab) : (s.setFab e d x).verdictSeen = s.verdictSeen := rfl
@[simp] theorem State.setFab_verdictIn (s : State) (e d : Nat) (x : Fab) : (s.setFab e d x).verdictIn = s.verdictIn := rfl
@[simp] theorem State.setFab_pair (s : State) (e d : Nat) (x : Fab) : (s.setFab e d x).pair = s.pair := rfl
@[simp] theorem State.setFab_adoptLost (s : State) (e d : Nat) (x : Fab) : (s.setFab e d x).adoptLost = s.adoptLost := rfl
@[simp] theorem State.setFab_ports (s : State) (e d : Nat) (x : Fab) : (s.setFab e d x).ports = s.ports := rfl
@[simp] theorem State.setFab_qctx (s : State) (e d : Nat) (x : Fab) : (s.setFab e d x).qctx = s.qctx := rfl
@[simp] theorem State.setFab_feeds (s : State) (e d : Nat) (x : Fab) : (s.setFab e d x).feeds = s.feeds := rfl
@[simp] theorem State.setFab_cfgSpace (s : State) (e d : Nat) (x : Fab) : (s.setFab e d x).cfgSpace = s.cfgSpace := rfl
@[simp] theorem State.setFab_msix (s : State) (e d : Nat) (x : Fab) : (s.setFab e d x).msix = s.msix := rfl
@[simp] theorem State.setFab_msixPend (s : State) (e d : Nat) (x : Fab) : (s.setFab e d x).msixPend = s.msixPend := rfl
@[simp] theorem State.setFab_beat (s : State) (e d : Nat) (x : Fab) : (s.setFab e d x).beat = s.beat := rfl
@[simp] theorem State.setFab_setPend (s : State) (e d : Nat) (x : Fab) : (s.setFab e d x).setPend = s.setPend := rfl
@[simp] theorem State.setFab_edgeMark (s : State) (e d : Nat) (x : Fab) : (s.setFab e d x).edgeMark = s.edgeMark := rfl
@[simp] theorem State.setFab_stages (s : State) (e d : Nat) (x : Fab) : (s.setFab e d x).stages = s.stages := rfl
@[simp] theorem State.setFab_skFail (s : State) (e d : Nat) (x : Fab) : (s.setFab e d x).skFail = s.skFail := rfl
@[simp] theorem State.setFab_guestWaits (s : State) (e d : Nat) (x : Fab) : (s.setFab e d x).guestWaits = s.guestWaits := rfl
@[simp] theorem State.setFab_guestTag (s : State) (e d : Nat) (x : Fab) : (s.setFab e d x).guestTag = s.guestTag := rfl
@[simp] theorem State.setFab_guestHeld (s : State) (e d : Nat) (x : Fab) : (s.setFab e d x).guestHeld = s.guestHeld := rfl
@[simp] theorem State.setFab_rampQ (s : State) (e d : Nat) (x : Fab) : (s.setFab e d x).rampQ = s.rampQ := rfl
@[simp] theorem State.setFab_input (s : State) (e d : Nat) (x : Fab) : (s.setFab e d x).input = s.input := rfl
@[simp] theorem State.setFab_flow (s : State) (e d : Nat) (x : Fab) : (s.setFab e d x).flow = s.flow := rfl
@[simp] theorem State.setFab_boot (s : State) (e d : Nat) (x : Fab) : (s.setFab e d x).boot = s.boot := rfl
@[simp] theorem State.setFab_flash (s : State) (e d : Nat) (x : Fab) : (s.setFab e d x).flash = s.flash := rfl
@[simp] theorem State.setFab_delivery (s : State) (e d : Nat) (x : Fab) : (s.setFab e d x).delivery = s.delivery := rfl
@[simp] theorem State.setFab_session (s : State) (e d : Nat) (x : Fab) : (s.setFab e d x).session = s.session := rfl
@[simp] theorem State.setFab_mbox (s : State) (e d : Nat) (x : Fab) : (s.setFab e d x).mbox = s.mbox := rfl
@[simp] theorem State.setFab_latches (s : State) (e d : Nat) (x : Fab) : (s.setFab e d x).latches = s.latches := rfl
@[simp] theorem State.setFab_utc (s : State) (e d : Nat) (x : Fab) : (s.setFab e d x).utc = s.utc := rfl
@[simp] theorem State.setFab_easel (s : State) (e d : Nat) (x : Fab) : (s.setFab e d x).easel = s.easel := rfl
@[simp] theorem State.setFab_out (s : State) (e d : Nat) (x : Fab) : (s.setFab e d x).out = s.out := rfl
@[simp] theorem State.setFab_pending (s : State) (e d : Nat) (x : Fab) : (s.setFab e d x).pending = s.pending := rfl

@[simp] theorem State.onFab_now (s : State) (e d : Nat) (f : Fab → Fab) : (s.onFab e d f).now = s.now := rfl
@[simp] theorem State.onFab_master (s : State) (e d : Nat) (f : Fab → Fab) : (s.onFab e d f).master = s.master := rfl
@[simp] theorem State.onFab_freeCtr (s : State) (e d : Nat) (f : Fab → Fab) : (s.onFab e d f).freeCtr = s.freeCtr := rfl
@[simp] theorem State.onFab_defectQ (s : State) (e d : Nat) (f : Fab → Fab) : (s.onFab e d f).defectQ = s.defectQ := rfl
@[simp] theorem State.onFab_regs (s : State) (e d : Nat) (f : Fab → Fab) : (s.onFab e d f).regs = s.regs := rfl
@[simp] theorem State.onFab_hbm (s : State) (e d : Nat) (f : Fab → Fab) : (s.onFab e d f).hbm = s.hbm := rfl
@[simp] theorem State.onFab_limit (s : State) (e d : Nat) (f : Fab → Fab) : (s.onFab e d f).limit = s.limit := rfl
@[simp] theorem State.onFab_edgeDown (s : State) (e d : Nat) (f : Fab → Fab) : (s.onFab e d f).edgeDown = s.edgeDown := rfl
@[simp] theorem State.onFab_edgeFeid (s : State) (e d : Nat) (f : Fab → Fab) : (s.onFab e d f).edgeFeid = s.edgeFeid := rfl
@[simp] theorem State.onFab_primary (s : State) (e d : Nat) (f : Fab → Fab) : (s.onFab e d f).primary = s.primary := rfl
@[simp] theorem State.onFab_engines (s : State) (e d : Nat) (f : Fab → Fab) : (s.onFab e d f).engines = s.engines := rfl
@[simp] theorem State.onFab_cells (s : State) (e d : Nat) (f : Fab → Fab) : (s.onFab e d f).cells = s.cells := rfl
@[simp] theorem State.onFab_ground (s : State) (e d : Nat) (f : Fab → Fab) : (s.onFab e d f).ground = s.ground := rfl
@[simp] theorem State.onFab_faultLog (s : State) (e d : Nat) (f : Fab → Fab) : (s.onFab e d f).faultLog = s.faultLog := rfl
@[simp] theorem State.onFab_cellParity (s : State) (e d : Nat) (f : Fab → Fab) : (s.onFab e d f).cellParity = s.cellParity := rfl
@[simp] theorem State.onFab_armCopies (s : State) (e d : Nat) (f : Fab → Fab) : (s.onFab e d f).armCopies = s.armCopies := rfl
@[simp] theorem State.onFab_halted (s : State) (e d : Nat) (f : Fab → Fab) : (s.onFab e d f).halted = s.halted := rfl
@[simp] theorem State.onFab_capture (s : State) (e d : Nat) (f : Fab → Fab) : (s.onFab e d f).capture = s.capture := rfl
@[simp] theorem State.onFab_gapWrites (s : State) (e d : Nat) (f : Fab → Fab) : (s.onFab e d f).gapWrites = s.gapWrites := rfl
@[simp] theorem State.onFab_gapEvents (s : State) (e d : Nat) (f : Fab → Fab) : (s.onFab e d f).gapEvents = s.gapEvents := rfl
@[simp] theorem State.onFab_events (s : State) (e d : Nat) (f : Fab → Fab) : (s.onFab e d f).events = s.events := rfl
@[simp] theorem State.onFab_pulseStart (s : State) (e d : Nat) (f : Fab → Fab) : (s.onFab e d f).pulseStart = s.pulseStart := rfl
@[simp] theorem State.onFab_annDown (s : State) (e d : Nat) (f : Fab → Fab) : (s.onFab e d f).annDown = s.annDown := rfl
@[simp] theorem State.onFab_annUp (s : State) (e d : Nat) (f : Fab → Fab) : (s.onFab e d f).annUp = s.annUp := rfl
@[simp] theorem State.onFab_adoptQ (s : State) (e d : Nat) (f : Fab → Fab) : (s.onFab e d f).adoptQ = s.adoptQ := rfl
@[simp] theorem State.onFab_members (s : State) (e d : Nat) (f : Fab → Fab) : (s.onFab e d f).members = s.members := rfl
@[simp] theorem State.onFab_packets (s : State) (e d : Nat) (f : Fab → Fab) : (s.onFab e d f).packets = s.packets := rfl
@[simp] theorem State.onFab_links (s : State) (e d : Nat) (f : Fab → Fab) : (s.onFab e d f).links = s.links := rfl
@[simp] theorem State.onFab_linkIn (s : State) (e d : Nat) (f : Fab → Fab) : (s.onFab e d f).linkIn = s.linkIn := rfl
@[simp] theorem State.onFab_colls (s : State) (e d : Nat) (f : Fab → Fab) : (s.onFab e d f).colls = s.colls := rfl
@[simp] theorem State.onFab_collIn (s : State) (e d : Nat) (f : Fab → Fab) : (s.onFab e d f).collIn = s.collIn := rfl
@[simp] theorem State.onFab_verdictSeen (s : State) (e d : Nat) (f : Fab → Fab) : (s.onFab e d f).verdictSeen = s.verdictSeen := rfl
@[simp] theorem State.onFab_verdictIn (s : State) (e d : Nat) (f : Fab → Fab) : (s.onFab e d f).verdictIn = s.verdictIn := rfl
@[simp] theorem State.onFab_pair (s : State) (e d : Nat) (f : Fab → Fab) : (s.onFab e d f).pair = s.pair := rfl
@[simp] theorem State.onFab_adoptLost (s : State) (e d : Nat) (f : Fab → Fab) : (s.onFab e d f).adoptLost = s.adoptLost := rfl
@[simp] theorem State.onFab_ports (s : State) (e d : Nat) (f : Fab → Fab) : (s.onFab e d f).ports = s.ports := rfl
@[simp] theorem State.onFab_qctx (s : State) (e d : Nat) (f : Fab → Fab) : (s.onFab e d f).qctx = s.qctx := rfl
@[simp] theorem State.onFab_feeds (s : State) (e d : Nat) (f : Fab → Fab) : (s.onFab e d f).feeds = s.feeds := rfl
@[simp] theorem State.onFab_cfgSpace (s : State) (e d : Nat) (f : Fab → Fab) : (s.onFab e d f).cfgSpace = s.cfgSpace := rfl
@[simp] theorem State.onFab_msix (s : State) (e d : Nat) (f : Fab → Fab) : (s.onFab e d f).msix = s.msix := rfl
@[simp] theorem State.onFab_msixPend (s : State) (e d : Nat) (f : Fab → Fab) : (s.onFab e d f).msixPend = s.msixPend := rfl
@[simp] theorem State.onFab_beat (s : State) (e d : Nat) (f : Fab → Fab) : (s.onFab e d f).beat = s.beat := rfl
@[simp] theorem State.onFab_setPend (s : State) (e d : Nat) (f : Fab → Fab) : (s.onFab e d f).setPend = s.setPend := rfl
@[simp] theorem State.onFab_edgeMark (s : State) (e d : Nat) (f : Fab → Fab) : (s.onFab e d f).edgeMark = s.edgeMark := rfl
@[simp] theorem State.onFab_stages (s : State) (e d : Nat) (f : Fab → Fab) : (s.onFab e d f).stages = s.stages := rfl
@[simp] theorem State.onFab_skFail (s : State) (e d : Nat) (f : Fab → Fab) : (s.onFab e d f).skFail = s.skFail := rfl
@[simp] theorem State.onFab_guestWaits (s : State) (e d : Nat) (f : Fab → Fab) : (s.onFab e d f).guestWaits = s.guestWaits := rfl
@[simp] theorem State.onFab_guestTag (s : State) (e d : Nat) (f : Fab → Fab) : (s.onFab e d f).guestTag = s.guestTag := rfl
@[simp] theorem State.onFab_guestHeld (s : State) (e d : Nat) (f : Fab → Fab) : (s.onFab e d f).guestHeld = s.guestHeld := rfl
@[simp] theorem State.onFab_rampQ (s : State) (e d : Nat) (f : Fab → Fab) : (s.onFab e d f).rampQ = s.rampQ := rfl
@[simp] theorem State.onFab_input (s : State) (e d : Nat) (f : Fab → Fab) : (s.onFab e d f).input = s.input := rfl
@[simp] theorem State.onFab_flow (s : State) (e d : Nat) (f : Fab → Fab) : (s.onFab e d f).flow = s.flow := rfl
@[simp] theorem State.onFab_boot (s : State) (e d : Nat) (f : Fab → Fab) : (s.onFab e d f).boot = s.boot := rfl
@[simp] theorem State.onFab_flash (s : State) (e d : Nat) (f : Fab → Fab) : (s.onFab e d f).flash = s.flash := rfl
@[simp] theorem State.onFab_delivery (s : State) (e d : Nat) (f : Fab → Fab) : (s.onFab e d f).delivery = s.delivery := rfl
@[simp] theorem State.onFab_session (s : State) (e d : Nat) (f : Fab → Fab) : (s.onFab e d f).session = s.session := rfl
@[simp] theorem State.onFab_mbox (s : State) (e d : Nat) (f : Fab → Fab) : (s.onFab e d f).mbox = s.mbox := rfl
@[simp] theorem State.onFab_latches (s : State) (e d : Nat) (f : Fab → Fab) : (s.onFab e d f).latches = s.latches := rfl
@[simp] theorem State.onFab_utc (s : State) (e d : Nat) (f : Fab → Fab) : (s.onFab e d f).utc = s.utc := rfl
@[simp] theorem State.onFab_easel (s : State) (e d : Nat) (f : Fab → Fab) : (s.onFab e d f).easel = s.easel := rfl
@[simp] theorem State.onFab_out (s : State) (e d : Nat) (f : Fab → Fab) : (s.onFab e d f).out = s.out := rfl
@[simp] theorem State.onFab_pending (s : State) (e d : Nat) (f : Fab → Fab) : (s.onFab e d f).pending = s.pending := rfl

@[simp] theorem State.emit_now (s : State) (o : Out) : (s.emit o).now = s.now := rfl
@[simp] theorem State.emit_master (s : State) (o : Out) : (s.emit o).master = s.master := rfl
@[simp] theorem State.emit_freeCtr (s : State) (o : Out) : (s.emit o).freeCtr = s.freeCtr := rfl
@[simp] theorem State.emit_defectQ (s : State) (o : Out) : (s.emit o).defectQ = s.defectQ := rfl
@[simp] theorem State.emit_regs (s : State) (o : Out) : (s.emit o).regs = s.regs := rfl
@[simp] theorem State.emit_hbm (s : State) (o : Out) : (s.emit o).hbm = s.hbm := rfl
@[simp] theorem State.emit_limit (s : State) (o : Out) : (s.emit o).limit = s.limit := rfl
@[simp] theorem State.emit_edgeDown (s : State) (o : Out) : (s.emit o).edgeDown = s.edgeDown := rfl
@[simp] theorem State.emit_edgeFeid (s : State) (o : Out) : (s.emit o).edgeFeid = s.edgeFeid := rfl
@[simp] theorem State.emit_primary (s : State) (o : Out) : (s.emit o).primary = s.primary := rfl
@[simp] theorem State.emit_engines (s : State) (o : Out) : (s.emit o).engines = s.engines := rfl
@[simp] theorem State.emit_cells (s : State) (o : Out) : (s.emit o).cells = s.cells := rfl
@[simp] theorem State.emit_fabs (s : State) (o : Out) : (s.emit o).fabs = s.fabs := rfl
@[simp] theorem State.emit_ground (s : State) (o : Out) : (s.emit o).ground = s.ground := rfl
@[simp] theorem State.emit_faultLog (s : State) (o : Out) : (s.emit o).faultLog = s.faultLog := rfl
@[simp] theorem State.emit_cellParity (s : State) (o : Out) : (s.emit o).cellParity = s.cellParity := rfl
@[simp] theorem State.emit_armCopies (s : State) (o : Out) : (s.emit o).armCopies = s.armCopies := rfl
@[simp] theorem State.emit_halted (s : State) (o : Out) : (s.emit o).halted = s.halted := rfl
@[simp] theorem State.emit_capture (s : State) (o : Out) : (s.emit o).capture = s.capture := rfl
@[simp] theorem State.emit_gapWrites (s : State) (o : Out) : (s.emit o).gapWrites = s.gapWrites := rfl
@[simp] theorem State.emit_gapEvents (s : State) (o : Out) : (s.emit o).gapEvents = s.gapEvents := rfl
@[simp] theorem State.emit_events (s : State) (o : Out) : (s.emit o).events = s.events := rfl
@[simp] theorem State.emit_pulseStart (s : State) (o : Out) : (s.emit o).pulseStart = s.pulseStart := rfl
@[simp] theorem State.emit_annDown (s : State) (o : Out) : (s.emit o).annDown = s.annDown := rfl
@[simp] theorem State.emit_annUp (s : State) (o : Out) : (s.emit o).annUp = s.annUp := rfl
@[simp] theorem State.emit_adoptQ (s : State) (o : Out) : (s.emit o).adoptQ = s.adoptQ := rfl
@[simp] theorem State.emit_members (s : State) (o : Out) : (s.emit o).members = s.members := rfl
@[simp] theorem State.emit_packets (s : State) (o : Out) : (s.emit o).packets = s.packets := rfl
@[simp] theorem State.emit_links (s : State) (o : Out) : (s.emit o).links = s.links := rfl
@[simp] theorem State.emit_linkIn (s : State) (o : Out) : (s.emit o).linkIn = s.linkIn := rfl
@[simp] theorem State.emit_colls (s : State) (o : Out) : (s.emit o).colls = s.colls := rfl
@[simp] theorem State.emit_collIn (s : State) (o : Out) : (s.emit o).collIn = s.collIn := rfl
@[simp] theorem State.emit_verdictSeen (s : State) (o : Out) : (s.emit o).verdictSeen = s.verdictSeen := rfl
@[simp] theorem State.emit_verdictIn (s : State) (o : Out) : (s.emit o).verdictIn = s.verdictIn := rfl
@[simp] theorem State.emit_pair (s : State) (o : Out) : (s.emit o).pair = s.pair := rfl
@[simp] theorem State.emit_adoptLost (s : State) (o : Out) : (s.emit o).adoptLost = s.adoptLost := rfl
@[simp] theorem State.emit_ports (s : State) (o : Out) : (s.emit o).ports = s.ports := rfl
@[simp] theorem State.emit_qctx (s : State) (o : Out) : (s.emit o).qctx = s.qctx := rfl
@[simp] theorem State.emit_feeds (s : State) (o : Out) : (s.emit o).feeds = s.feeds := rfl
@[simp] theorem State.emit_cfgSpace (s : State) (o : Out) : (s.emit o).cfgSpace = s.cfgSpace := rfl
@[simp] theorem State.emit_msix (s : State) (o : Out) : (s.emit o).msix = s.msix := rfl
@[simp] theorem State.emit_msixPend (s : State) (o : Out) : (s.emit o).msixPend = s.msixPend := rfl
@[simp] theorem State.emit_beat (s : State) (o : Out) : (s.emit o).beat = s.beat := rfl
@[simp] theorem State.emit_setPend (s : State) (o : Out) : (s.emit o).setPend = s.setPend := rfl
@[simp] theorem State.emit_edgeMark (s : State) (o : Out) : (s.emit o).edgeMark = s.edgeMark := rfl
@[simp] theorem State.emit_stages (s : State) (o : Out) : (s.emit o).stages = s.stages := rfl
@[simp] theorem State.emit_skFail (s : State) (o : Out) : (s.emit o).skFail = s.skFail := rfl
@[simp] theorem State.emit_guestWaits (s : State) (o : Out) : (s.emit o).guestWaits = s.guestWaits := rfl
@[simp] theorem State.emit_guestTag (s : State) (o : Out) : (s.emit o).guestTag = s.guestTag := rfl
@[simp] theorem State.emit_guestHeld (s : State) (o : Out) : (s.emit o).guestHeld = s.guestHeld := rfl
@[simp] theorem State.emit_rampQ (s : State) (o : Out) : (s.emit o).rampQ = s.rampQ := rfl
@[simp] theorem State.emit_input (s : State) (o : Out) : (s.emit o).input = s.input := rfl
@[simp] theorem State.emit_flow (s : State) (o : Out) : (s.emit o).flow = s.flow := rfl
@[simp] theorem State.emit_boot (s : State) (o : Out) : (s.emit o).boot = s.boot := rfl
@[simp] theorem State.emit_flash (s : State) (o : Out) : (s.emit o).flash = s.flash := rfl
@[simp] theorem State.emit_delivery (s : State) (o : Out) : (s.emit o).delivery = s.delivery := rfl
@[simp] theorem State.emit_session (s : State) (o : Out) : (s.emit o).session = s.session := rfl
@[simp] theorem State.emit_mbox (s : State) (o : Out) : (s.emit o).mbox = s.mbox := rfl
@[simp] theorem State.emit_latches (s : State) (o : Out) : (s.emit o).latches = s.latches := rfl
@[simp] theorem State.emit_utc (s : State) (o : Out) : (s.emit o).utc = s.utc := rfl
@[simp] theorem State.emit_easel (s : State) (o : Out) : (s.emit o).easel = s.easel := rfl
@[simp] theorem State.emit_pending (s : State) (o : Out) : (s.emit o).pending = s.pending := rfl

@[simp] theorem State.fresh_now (s : State) : (s.fresh).now = s.now := rfl
@[simp] theorem State.fresh_master (s : State) : (s.fresh).master = s.master := rfl
@[simp] theorem State.fresh_defectQ (s : State) : (s.fresh).defectQ = s.defectQ := rfl
@[simp] theorem State.fresh_regs (s : State) : (s.fresh).regs = s.regs := rfl
@[simp] theorem State.fresh_hbm (s : State) : (s.fresh).hbm = s.hbm := rfl
@[simp] theorem State.fresh_limit (s : State) : (s.fresh).limit = s.limit := rfl
@[simp] theorem State.fresh_edgeDown (s : State) : (s.fresh).edgeDown = s.edgeDown := rfl
@[simp] theorem State.fresh_edgeFeid (s : State) : (s.fresh).edgeFeid = s.edgeFeid := rfl
@[simp] theorem State.fresh_primary (s : State) : (s.fresh).primary = s.primary := rfl
@[simp] theorem State.fresh_engines (s : State) : (s.fresh).engines = s.engines := rfl
@[simp] theorem State.fresh_cells (s : State) : (s.fresh).cells = s.cells := rfl
@[simp] theorem State.fresh_fabs (s : State) : (s.fresh).fabs = s.fabs := rfl
@[simp] theorem State.fresh_ground (s : State) : (s.fresh).ground = s.ground := rfl
@[simp] theorem State.fresh_faultLog (s : State) : (s.fresh).faultLog = s.faultLog := rfl
@[simp] theorem State.fresh_cellParity (s : State) : (s.fresh).cellParity = s.cellParity := rfl
@[simp] theorem State.fresh_armCopies (s : State) : (s.fresh).armCopies = s.armCopies := rfl
@[simp] theorem State.fresh_halted (s : State) : (s.fresh).halted = s.halted := rfl
@[simp] theorem State.fresh_capture (s : State) : (s.fresh).capture = s.capture := rfl
@[simp] theorem State.fresh_gapWrites (s : State) : (s.fresh).gapWrites = s.gapWrites := rfl
@[simp] theorem State.fresh_gapEvents (s : State) : (s.fresh).gapEvents = s.gapEvents := rfl
@[simp] theorem State.fresh_events (s : State) : (s.fresh).events = s.events := rfl
@[simp] theorem State.fresh_pulseStart (s : State) : (s.fresh).pulseStart = s.pulseStart := rfl
@[simp] theorem State.fresh_annDown (s : State) : (s.fresh).annDown = s.annDown := rfl
@[simp] theorem State.fresh_annUp (s : State) : (s.fresh).annUp = s.annUp := rfl
@[simp] theorem State.fresh_adoptQ (s : State) : (s.fresh).adoptQ = s.adoptQ := rfl
@[simp] theorem State.fresh_members (s : State) : (s.fresh).members = s.members := rfl
@[simp] theorem State.fresh_packets (s : State) : (s.fresh).packets = s.packets := rfl
@[simp] theorem State.fresh_links (s : State) : (s.fresh).links = s.links := rfl
@[simp] theorem State.fresh_linkIn (s : State) : (s.fresh).linkIn = s.linkIn := rfl
@[simp] theorem State.fresh_colls (s : State) : (s.fresh).colls = s.colls := rfl
@[simp] theorem State.fresh_collIn (s : State) : (s.fresh).collIn = s.collIn := rfl
@[simp] theorem State.fresh_verdictSeen (s : State) : (s.fresh).verdictSeen = s.verdictSeen := rfl
@[simp] theorem State.fresh_verdictIn (s : State) : (s.fresh).verdictIn = s.verdictIn := rfl
@[simp] theorem State.fresh_pair (s : State) : (s.fresh).pair = s.pair := rfl
@[simp] theorem State.fresh_adoptLost (s : State) : (s.fresh).adoptLost = s.adoptLost := rfl
@[simp] theorem State.fresh_ports (s : State) : (s.fresh).ports = s.ports := rfl
@[simp] theorem State.fresh_qctx (s : State) : (s.fresh).qctx = s.qctx := rfl
@[simp] theorem State.fresh_feeds (s : State) : (s.fresh).feeds = s.feeds := rfl
@[simp] theorem State.fresh_cfgSpace (s : State) : (s.fresh).cfgSpace = s.cfgSpace := rfl
@[simp] theorem State.fresh_msix (s : State) : (s.fresh).msix = s.msix := rfl
@[simp] theorem State.fresh_msixPend (s : State) : (s.fresh).msixPend = s.msixPend := rfl
@[simp] theorem State.fresh_beat (s : State) : (s.fresh).beat = s.beat := rfl
@[simp] theorem State.fresh_setPend (s : State) : (s.fresh).setPend = s.setPend := rfl
@[simp] theorem State.fresh_edgeMark (s : State) : (s.fresh).edgeMark = s.edgeMark := rfl
@[simp] theorem State.fresh_stages (s : State) : (s.fresh).stages = s.stages := rfl
@[simp] theorem State.fresh_skFail (s : State) : (s.fresh).skFail = s.skFail := rfl
@[simp] theorem State.fresh_guestWaits (s : State) : (s.fresh).guestWaits = s.guestWaits := rfl
@[simp] theorem State.fresh_guestTag (s : State) : (s.fresh).guestTag = s.guestTag := rfl
@[simp] theorem State.fresh_guestHeld (s : State) : (s.fresh).guestHeld = s.guestHeld := rfl
@[simp] theorem State.fresh_rampQ (s : State) : (s.fresh).rampQ = s.rampQ := rfl
@[simp] theorem State.fresh_input (s : State) : (s.fresh).input = s.input := rfl
@[simp] theorem State.fresh_flow (s : State) : (s.fresh).flow = s.flow := rfl
@[simp] theorem State.fresh_boot (s : State) : (s.fresh).boot = s.boot := rfl
@[simp] theorem State.fresh_flash (s : State) : (s.fresh).flash = s.flash := rfl
@[simp] theorem State.fresh_delivery (s : State) : (s.fresh).delivery = s.delivery := rfl
@[simp] theorem State.fresh_session (s : State) : (s.fresh).session = s.session := rfl
@[simp] theorem State.fresh_mbox (s : State) : (s.fresh).mbox = s.mbox := rfl
@[simp] theorem State.fresh_latches (s : State) : (s.fresh).latches = s.latches := rfl
@[simp] theorem State.fresh_utc (s : State) : (s.fresh).utc = s.utc := rfl
@[simp] theorem State.fresh_easel (s : State) : (s.fresh).easel = s.easel := rfl
@[simp] theorem State.fresh_out (s : State) : (s.fresh).out = s.out := rfl
@[simp] theorem State.fresh_pending (s : State) : (s.fresh).pending = s.pending := rfl

end Sys2Proof.Machine
end

