-- ==== Sys2Proof/Laws/Store.lean ====
section
/-! SUPPORT. Laws of the sparse stores and byte memories: a read after a write gives what was written, a write leaves every other place
alone, and every operation keeps the one canonical form. -/
namespace Sys2Proof.Machine

/-! ### Reading after writing -/

@[simp] theorem SMap.find?_put_same {α : Type} (m : SMap α) (k : Nat) (v : α) : SMap.find? (SMap.put m k v) k = some v := by
  induction m with
  | nil => simp [SMap.put, SMap.find?]
  | cons p t ih =>
    obtain ⟨k', v'⟩ := p
    unfold SMap.put
    split
    · simp [SMap.find?]
    · split
      · simp [SMap.find?]
      · rw [SMap.find?, if_neg (by omega)]; exact ih

theorem SMap.find?_put_ne {α : Type} (m : SMap α) {k j : Nat} (v : α) (h : j ≠ k) : SMap.find? (SMap.put m k v) j = SMap.find? m j := by
  induction m with
  | nil => simp [SMap.put, SMap.find?, h.symm]
  | cons p t ih =>
    obtain ⟨k', v'⟩ := p
    unfold SMap.put
    split
    · simp [SMap.find?, h.symm]
    · split
      · subst k; simp [SMap.find?, h.symm]
      · simp [SMap.find?, ih]

@[simp] theorem SMap.find?_erase_same {α : Type} (m : SMap α) (k : Nat) : SMap.find? (SMap.erase m k) k = none := by
  induction m with
  | nil => simp [SMap.erase, SMap.find?]
  | cons p t ih =>
    obtain ⟨k', v'⟩ := p
    unfold SMap.erase
    split
    · exact ih
    · rw [SMap.find?, if_neg (by omega)]; exact ih

theorem SMap.find?_erase_ne {α : Type} (m : SMap α) {k j : Nat} (h : j ≠ k) : SMap.find? (SMap.erase m k) j = SMap.find? m j := by
  induction m with
  | nil => simp [SMap.erase, SMap.find?]
  | cons p t ih =>
    obtain ⟨k', v'⟩ := p
    unfold SMap.erase
    split
    · subst k; simp [SMap.find?, h.symm, ih]
    · simp [SMap.find?, ih]

@[simp] theorem SMap.getD_set_same {α : Type} [DecidableEq α] (d : α) (m : SMap α) (k : Nat) (v : α) :
    SMap.getD (SMap.set d m k v) k d = v := by
  unfold SMap.set SMap.getD
  split
  · simp [*]
  · simp

theorem SMap.getD_set_ne {α : Type} [DecidableEq α] (d d' : α) (m : SMap α) {k j : Nat} (v : α) (h : j ≠ k) :
    SMap.getD (SMap.set d m k v) j d' = SMap.getD m j d' := by
  unfold SMap.set SMap.getD
  split
  · rw [SMap.find?_erase_ne m h]
  · rw [SMap.find?_put_ne m v h]

theorem SMap.find?_eraseRange {α : Type} (m : SMap α) (lo n j : Nat) :
    SMap.find? (SMap.eraseRange m lo n) j = if lo ≤ j ∧ j < lo + n then none else SMap.find? m j := by
  induction m with
  | nil => simp [SMap.eraseRange, SMap.find?]
  | cons p t ih =>
    obtain ⟨k', v'⟩ := p
    unfold SMap.eraseRange at ih ⊢
    rw [List.filter_cons]
    split
    · rename_i h
      simp only [Bool.or_eq_true, decide_eq_true_eq] at h
      rw [SMap.find?, SMap.find?]
      split
      · subst k'; rw [if_neg (by omega)]
      · exact ih
    · rename_i h
      simp only [Bool.or_eq_true, decide_eq_true_eq, not_or, not_lt, not_le] at h
      rw [ih, SMap.find?]
      split
      · rfl
      · rw [if_neg (by omega)]

/-! ### The canonical form -/

theorem SMap.sortedFrom_mono {α : Type} {m : SMap α} {lo lo' : Nat} (h : lo' ≤ lo) (hs : SMap.sortedFrom lo m = true) :
    SMap.sortedFrom lo' m = true := by
  cases m with
  | nil => rfl
  | cons p t => simp [SMap.sortedFrom] at hs ⊢; exact ⟨by omega, hs.2⟩

theorem SMap.sortedFrom_put {α : Type} {m : SMap α} {lo k : Nat} (v : α) (hk : lo ≤ k) (hs : SMap.sortedFrom lo m = true) :
    SMap.sortedFrom lo (SMap.put m k v) = true := by
  induction m generalizing lo with
  | nil => simp [SMap.put, SMap.sortedFrom, hk]
  | cons p t ih =>
    obtain ⟨k', v'⟩ := p
    simp only [SMap.sortedFrom, Bool.and_eq_true, decide_eq_true_eq] at hs
    unfold SMap.put
    split
    · simp [SMap.sortedFrom, hk, hs.2]; omega
    · split
      · subst k; simp [SMap.sortedFrom, hk, hs.2]
      · simp [SMap.sortedFrom, hs.1]; exact ih (by omega) hs.2

theorem SMap.sortedFrom_filter {α : Type} {m : SMap α} {lo : Nat} (p : Nat × α → Bool) (hs : SMap.sortedFrom lo m = true) :
    SMap.sortedFrom lo (m.filter p) = true := by
  induction m generalizing lo with
  | nil => rfl
  | cons q t ih =>
    obtain ⟨k', v'⟩ := q
    simp only [SMap.sortedFrom, Bool.and_eq_true, decide_eq_true_eq] at hs
    rw [List.filter_cons]
    split
    · simp [SMap.sortedFrom, hs.1, ih hs.2]
    · exact SMap.sortedFrom_mono (by omega) (ih hs.2)

theorem SMap.erase_eq_filter {α : Type} (m : SMap α) (k : Nat) : SMap.erase m k = m.filter fun p => p.1 != k := by
  induction m with
  | nil => rfl
  | cons p t ih =>
    obtain ⟨k', v'⟩ := p
    unfold SMap.erase
    split
    · subst k; simp [ih]
    · rename_i h; simp [ih, Ne.symm h]

theorem SMap.all_put {α : Type} {m : SMap α} (q : Nat × α → Bool) {k : Nat} {v : α} (hv : q (k, v) = true) (hm : m.all q = true) :
    (SMap.put m k v).all q = true := by
  induction m with
  | nil => simp [SMap.put, hv]
  | cons p t ih =>
    obtain ⟨k', v'⟩ := p
    rw [List.all_cons, Bool.and_eq_true] at hm
    unfold SMap.put
    split
    · simp [hv, hm.1]; simpa using hm.2
    · split
      · simp [hv]; simpa using hm.2
      · simp [hm.1]; simpa using ih hm.2

theorem SMap.wf_filter {α : Type} [DecidableEq α] {d : α} {m : SMap α} (p : Nat × α → Bool) (h : SMap.wf d m = true) :
    SMap.wf d (m.filter p) = true := by
  simp only [SMap.wf, Bool.and_eq_true] at h ⊢
  refine ⟨SMap.sortedFrom_filter p h.1, ?_⟩
  rw [List.all_eq_true] at h ⊢
  intro x hx
  exact h.2 x (List.mem_of_mem_filter hx)

/-- A write keeps the canonical form. -/
theorem SMap.wf_set {α : Type} [DecidableEq α] {d : α} {m : SMap α} (k : Nat) (v : α) (h : SMap.wf d m = true) :
    SMap.wf d (SMap.set d m k v) = true := by
  unfold SMap.set
  split
  · rw [SMap.erase_eq_filter]; exact SMap.wf_filter _ h
  · simp only [SMap.wf, Bool.and_eq_true] at h ⊢
    exact ⟨SMap.sortedFrom_put v (Nat.zero_le _) h.1, SMap.all_put _ (by simpa using ‹¬v = d›) h.2⟩

/-- Losing a range keeps the canonical form. -/
theorem SMap.wf_eraseRange {α : Type} [DecidableEq α] {d : α} {m : SMap α} (lo n : Nat) (h : SMap.wf d m = true) :
    SMap.wf d (SMap.eraseRange m lo n) = true := SMap.wf_filter _ h

/-! ### Byte memories -/

@[simp] theorem Memory.read_write_same (m : Memory) (a : Nat) (b : Byte) : Memory.read (Memory.write m a b) a = b :=
  SMap.getD_set_same _ m a b

theorem Memory.read_write_ne (m : Memory) {a x : Nat} (b : Byte) (h : x ≠ a) : Memory.read (Memory.write m a b) x = Memory.read m x :=
  SMap.getD_set_ne _ _ m b h

/-- Bytes outside those written read as before. -/
theorem Memory.read_writeN_out (m : Memory) (a x : Nat) (bs : List Byte) (h : x < a ∨ a + bs.length ≤ x) :
    Memory.read (Memory.writeN m a bs) x = Memory.read m x := by
  induction bs generalizing m a with
  | nil => rfl
  | cons b t ih =>
    rw [List.length_cons] at h
    rw [Memory.writeN, ih _ _ (by omega), Memory.read_write_ne _ _ (by omega)]

/-- The bytes written read back. -/
theorem Memory.read_writeN_in (m : Memory) (a i : Nat) (bs : List Byte) (h : i < bs.length) :
    Memory.read (Memory.writeN m a bs) (a + i) = bs[i] := by
  induction bs generalizing m a i with
  | nil => simp at h
  | cons b t ih =>
    rw [Memory.writeN]
    cases i with
    | zero => rw [Memory.read_writeN_out _ _ _ _ (by omega)]; simp
    | succ j => rw [show a + (j + 1) = (a + 1) + j by omega, ih _ _ j (by simpa using h)]; rfl

theorem Memory.wf_write {m : Memory} (a : Nat) (b : Byte) (h : Memory.wf m = true) : Memory.wf (Memory.write m a b) = true :=
  SMap.wf_set a b h

theorem Memory.wf_writeN {m : Memory} (a : Nat) (bs : List Byte) (h : Memory.wf m = true) : Memory.wf (Memory.writeN m a bs) = true := by
  induction bs generalizing m a with
  | nil => exact h
  | cons b t ih => exact ih _ (Memory.wf_write a b h)

theorem Memory.wf_lose {m : Memory} (a n : Nat) (h : Memory.wf m = true) : Memory.wf (Memory.lose m a n) = true :=
  SMap.wf_eraseRange a n h

/-- The memories of the panel after reset list nothing and have the form. -/
theorem State.reset_stores_wf : Memory.wf State.reset.hbm = true ∧ Memory.wf State.reset.mbox = true := by decide

end Sys2Proof.Machine
end

