-- ==== Sys2Proof/Laws/Regs.lean ====
section
/-! SUPPORT. Laws of bit fields, of the register file, and of the engine, cell and fabric maps: what a read gives after a write. -/
namespace Sys2Proof.Machine

/-! ### Bit fields -/

theorem putBits_lt {w hi lo v : Nat} (hw : w < 2 ^ 32) (hh : hi < 32) (hl : lo ≤ hi) : putBits w hi lo v < 2 ^ 32 := by
  unfold putBits
  have h1 : w % 2 ^ lo < 2 ^ lo := Nat.mod_lt _ (by positivity)
  have h2 : v % 2 ^ (hi + 1 - lo) < 2 ^ (hi + 1 - lo) := Nat.mod_lt _ (by positivity)
  have h3 : w >>> (hi + 1) < 2 ^ (31 - hi) := by
    rw [Nat.shiftRight_eq_div_pow]
    apply Nat.div_lt_of_lt_mul
    rw [← pow_add, show hi + 1 + (31 - hi) = 32 by omega]
    exact hw
  simp only [Nat.shiftLeft_eq]
  have e1 : 2 ^ (hi + 1 - lo) * 2 ^ lo = 2 ^ (hi + 1) := by rw [← pow_add]; congr 1; omega
  have e2 : 2 ^ (31 - hi) * 2 ^ (hi + 1) = 2 ^ 32 := by rw [← pow_add]; congr 1; omega
  have h4 : (v % 2 ^ (hi + 1 - lo) + 1) * 2 ^ lo ≤ 2 ^ (hi + 1) := by rw [← e1]; exact Nat.mul_le_mul_right _ h2
  have h5 : (w >>> (hi + 1) + 1) * 2 ^ (hi + 1) ≤ 2 ^ 32 := by rw [← e2]; exact Nat.mul_le_mul_right _ h3
  rw [add_mul] at h4 h5
  omega

/-- A field that has been put reads back, cut to its width. -/
theorem bits_putBits_same {w hi lo v : Nat} (hl : lo ≤ hi) : bits (putBits w hi lo v) hi lo = v % 2 ^ (hi + 1 - lo) := by
  have h1 : w % 2 ^ lo < 2 ^ lo := Nat.mod_lt _ (by positivity)
  have h2 : v % 2 ^ (hi + 1 - lo) < 2 ^ (hi + 1 - lo) := Nat.mod_lt _ (by positivity)
  unfold bits putBits
  simp only [Nat.shiftLeft_eq, Nat.shiftRight_eq_div_pow]
  have e : 2 ^ (hi + 1) = 2 ^ (hi + 1 - lo) * 2 ^ lo := by rw [← pow_add]; congr 1; omega
  rw [e, show w % 2 ^ lo + v % 2 ^ (hi + 1 - lo) * 2 ^ lo + w / (2 ^ (hi + 1 - lo) * 2 ^ lo) * (2 ^ (hi + 1 - lo) * 2 ^ lo)
    = w % 2 ^ lo + (v % 2 ^ (hi + 1 - lo) + w / (2 ^ (hi + 1 - lo) * 2 ^ lo) * 2 ^ (hi + 1 - lo)) * 2 ^ lo by ring,
    Nat.add_mul_div_right _ _ (by positivity), Nat.div_eq_of_lt h1, zero_add, Nat.add_mul_mod_self_right, Nat.mod_mod]

/-- A bit outside the field that has been put stands as before. -/
theorem testBit_putBits_ne {w hi lo v i : Nat} (hl : lo ≤ hi) (h : i < lo ∨ hi < i) : (putBits w hi lo v).testBit i = w.testBit i := by
  have h2 : v % 2 ^ (hi + 1 - lo) < 2 ^ (hi + 1 - lo) := Nat.mod_lt _ (by positivity)
  have h1 : w % 2 ^ lo < 2 ^ lo := Nat.mod_lt _ (by positivity)
  unfold putBits
  have e : 2 ^ (hi + 1 - lo) * 2 ^ lo = 2 ^ (hi + 1) := by rw [← pow_add]; congr 1; omega
  have h3 : w % 2 ^ lo + (v % 2 ^ (hi + 1 - lo)) <<< lo < 2 ^ (hi + 1) := by
    rw [Nat.shiftLeft_eq, ← e]
    calc w % 2 ^ lo + v % 2 ^ (hi + 1 - lo) * 2 ^ lo < 2 ^ lo + v % 2 ^ (hi + 1 - lo) * 2 ^ lo := by omega
      _ = (v % 2 ^ (hi + 1 - lo) + 1) * 2 ^ lo := by ring
      _ ≤ _ := Nat.mul_le_mul_right _ h2
  rw [show w % 2 ^ lo + (v % 2 ^ (hi + 1 - lo)) <<< lo + (w >>> (hi + 1)) <<< (hi + 1)
    = 2 ^ (hi + 1) * (w >>> (hi + 1)) + (w % 2 ^ lo + (v % 2 ^ (hi + 1 - lo)) <<< lo) by rw [Nat.shiftLeft_eq (w >>> (hi + 1))]; ring,
    Nat.testBit_two_pow_mul_add _ h3]
  rcases h with h | h
  · rw [if_pos (by omega), show w % 2 ^ lo + (v % 2 ^ (hi + 1 - lo)) <<< lo = 2 ^ lo * (v % 2 ^ (hi + 1 - lo)) + w % 2 ^ lo by rw [Nat.shiftLeft_eq]; ring,
      Nat.testBit_two_pow_mul_add _ h1, if_pos h, Nat.testBit_mod_two_pow]
    simp [h]
  · rw [if_neg (by omega), Nat.testBit_shiftRight]
    congr 1; omega

/-! ### The register file -/

/-- A register that has been written reads back. -/
@[simp] theorem State.rd_wr_same (s : State) (a v : Nat) : (s.wr a v).rd a = BitVec.ofNat 32 v := by
  simp [State.rd, State.wr]

/-- A write of one register leaves every other. -/
theorem State.rd_wr_ne (s : State) {a b : Nat} (v : Nat) (h : b ≠ a) : (s.wr a v).rd b = s.rd b :=
  SMap.getD_set_ne _ _ _ _ h

theorem State.rdN_lt (s : State) (a : Nat) : s.rdN a < 2 ^ 32 := (s.rd a).isLt

theorem State.rdN_setFld_same (s : State) (a : Nat) (f : Fld) (v : Nat) (hh : f.hi < 32) (hl : f.lo ≤ f.hi) :
    (s.setFld a f v).rdN a = putBits (s.rdN a) f.hi f.lo v := by
  unfold State.setFld
  rw [State.rdN, State.rd_wr_same, BitVec.toNat_ofNat, Nat.mod_eq_of_lt (putBits_lt (State.rdN_lt s a) hh hl)]

/-- A field that has been put reads back, cut to its width. -/
theorem State.fld_setFld_same (s : State) (a : Nat) (f : Fld) (v : Nat) (hh : f.hi < 32) (hl : f.lo ≤ f.hi) :
    (s.setFld a f v).fld a f = v % 2 ^ (f.hi + 1 - f.lo) := by
  unfold State.fld
  rw [State.rdN_setFld_same s a f v hh hl, bits_putBits_same hl]

/-- A bit outside the field that has been put stands as before. -/
theorem State.bit_setFld_ne (s : State) (a : Nat) (f : Fld) (v i : Nat) (hh : f.hi < 32) (hl : f.lo ≤ f.hi) (h : i < f.lo ∨ f.hi < i) :
    ((s.setFld a f v).rdN a).testBit i = (s.rdN a).testBit i := by
  rw [State.rdN_setFld_same s a f v hh hl, testBit_putBits_ne hl h]

theorem State.rd_setFld_ne (s : State) {a b : Nat} (f : Fld) (v : Nat) (h : b ≠ a) : (s.setFld a f v).rd b = s.rd b :=
  State.rd_wr_ne s _ h

@[simp] theorem State.rd_rstReg_same (s : State) (a : Nat) : (s.rstReg a).rd a = regReset a := by
  simp [State.rd, State.rstReg, SMap.getD]

theorem State.rd_rstReg_ne (s : State) {a b : Nat} (h : b ≠ a) : (s.rstReg a).rd b = s.rd b := by
  simp [State.rd, State.rstReg, SMap.getD, SMap.find?_erase_ne _ h]

/-- After a range has been reset, its registers read their reset values and the others stand. -/
theorem State.rd_rstRange (s : State) (lo n a : Nat) : (s.rstRange lo n).rd a = if lo ≤ a ∧ a < lo + n then regReset a else s.rd a := by
  unfold State.rd State.rstRange SMap.getD
  rw [SMap.find?_eraseRange]
  split <;> rfl

/-! ### Engines, cells and dies -/

@[simp] theorem State.eng_setEng_same (s : State) (e : Nat) (g : Engine) : (s.setEng e g).eng e = g := by simp [State.eng, State.setEng]

theorem State.eng_setEng_ne (s : State) {e x : Nat} (g : Engine) (h : x ≠ e) : (s.setEng e g).eng x = s.eng x := SMap.getD_set_ne _ _ _ _ h

@[simp] theorem State.eng_onEng_same (s : State) (e : Nat) (f : Engine → Engine) : (s.onEng e f).eng e = f (s.eng e) := by simp [State.onEng]

theorem State.eng_onEng_ne (s : State) {e x : Nat} (f : Engine → Engine) (h : x ≠ e) : (s.onEng e f).eng x = s.eng x := State.eng_setEng_ne s _ h

@[simp] theorem State.cell_setCell_same (s : State) (e d c : Nat) (x : Cell) : (s.setCell e d c x).cell e d c = x := by simp [State.cell, State.setCell]

theorem State.cell_setCell_ne (s : State) {e d c e' d' c' : Nat} (x : Cell) (h : cellKey e' d' c' ≠ cellKey e d c) :
    (s.setCell e d c x).cell e' d' c' = s.cell e' d' c' := SMap.getD_set_ne _ _ _ _ h

@[simp] theorem State.cell_onCell_same (s : State) (e d c : Nat) (f : Cell → Cell) : (s.onCell e d c f).cell e d c = f (s.cell e d c) := by simp [State.onCell]

@[simp] theorem State.fab_setFab_same (s : State) (e d : Nat) (x : Fab) : (s.setFab e d x).fab e d = x := by simp [State.fab, State.setFab]

theorem State.fab_setFab_ne (s : State) {e d e' d' : Nat} (x : Fab) (h : e' * 4 + d' ≠ e * 4 + d) :
    (s.setFab e d x).fab e' d' = s.fab e' d' := SMap.getD_set_ne _ _ _ _ h

/-- Two updates by `regs` only do not touch engines, and so on: reads through a register write. -/
@[simp] theorem State.eng_wr (s : State) (a v e : Nat) : (s.wr a v).eng e = s.eng e := rfl
@[simp] theorem State.cell_wr (s : State) (a v e d c : Nat) : (s.wr a v).cell e d c = s.cell e d c := rfl
@[simp] theorem State.fab_wr (s : State) (a v e d : Nat) : (s.wr a v).fab e d = s.fab e d := rfl
@[simp] theorem State.rd_setEng (s : State) (e : Nat) (g : Engine) (a : Nat) : (s.setEng e g).rd a = s.rd a := rfl
@[simp] theorem State.rd_onEng (s : State) (e : Nat) (f : Engine → Engine) (a : Nat) : (s.onEng e f).rd a = s.rd a := rfl
@[simp] theorem State.rd_setCell (s : State) (e d c : Nat) (x : Cell) (a : Nat) : (s.setCell e d c x).rd a = s.rd a := rfl
@[simp] theorem State.rd_onCell (s : State) (e d c : Nat) (f : Cell → Cell) (a : Nat) : (s.onCell e d c f).rd a = s.rd a := rfl
@[simp] theorem State.rd_setFab (s : State) (e d : Nat) (x : Fab) (a : Nat) : (s.setFab e d x).rd a = s.rd a := rfl
@[simp] theorem State.rd_emit (s : State) (o : Out) (a : Nat) : (s.emit o).rd a = s.rd a := rfl

end Sys2Proof.Machine
end

