-- ==== Sys2Proof/Laws/Faults.lean ====
section
/-! SUPPORT. What the shared operations of the fault collector, the capture FIFO and the gate of a control-space write may change: nothing
beyond `FaultFrame` (18_faults R468 to R479; 13 R334, R336). -/
namespace Sys2Proof.Safety
open Sys2Proof.Machine

theorem FaultFrame.refl (s : State) : FaultFrame s s := ⟨by constructor <;> rfl, rfl, rfl, rfl, rfl⟩

theorem Quiet.trans {s t u : State} (h : Quiet s t) (g : Quiet t u) : Quiet s u := by
  cases h; cases g; constructor <;> simp_all

theorem FaultFrame.trans {s t u : State} (h : FaultFrame s t) (g : FaultFrame t u) : FaultFrame s u :=
  ⟨Quiet.trans h.quiet g.quiet, g.cells.trans h.cells, g.fabs.trans h.fabs, g.freeCtr.trans h.freeCtr, g.hbm.trans h.hbm⟩

/-- A fold of steps that each keep the frame keeps it. -/
theorem FaultFrame.foldl {α : Type} (f : State → α → State) (hf : ∀ s a, FaultFrame s (f s a)) (l : List α) (s : State) :
    FaultFrame s (l.foldl f s) := by
  induction l generalizing s with
  | nil => exact FaultFrame.refl s
  | cons a t ih => exact (hf s a).trans (ih (f s a))

end Sys2Proof.Safety

namespace Sys2Proof.Machine
open Sys2Proof.Safety

theorem State.wr_frame (s : State) (a v : Nat) : FaultFrame s (s.wr a v) := ⟨by constructor <;> rfl, rfl, rfl, rfl, rfl⟩
theorem State.setFld_frame (s : State) (a : Nat) (f : Fld) (v : Nat) : FaultFrame s (s.setFld a f v) := s.wr_frame _ _
theorem State.setFlag_frame (s : State) (a : Nat) (f : Fld) (b : Bool) : FaultFrame s (s.setFlag a f b) := s.wr_frame _ _
theorem State.satFld_frame (s : State) (a : Nat) (f : Fld) (k : Nat) : FaultFrame s (s.satFld a f k) := s.wr_frame _ _
theorem State.addFld_frame (s : State) (a : Nat) (f : Fld) (k : Nat) : FaultFrame s (s.addFld a f k) := s.wr_frame _ _
theorem State.emit_frame (s : State) (o : Out) : FaultFrame s (s.emit o) := ⟨by constructor <;> rfl, rfl, rfl, rfl, rfl⟩
theorem State.onEng_frame (s : State) (e : Nat) (f : Engine → Engine) : FaultFrame s (s.onEng e f) := ⟨by constructor <;> rfl, rfl, rfl, rfl, rfl⟩
theorem State.onLink_frame (s : State) (p : Nat) (f : LinkPort → LinkPort) : FaultFrame s (s.onLink p f) := ⟨by constructor <;> rfl, rfl, rfl, rfl, rfl⟩
theorem State.raiseEvent_frame (s : State) (e kind aux info : Nat) : FaultFrame s (s.raiseEvent e kind aux info) :=
  ⟨by constructor <;> rfl, rfl, rfl, rfl, rfl⟩

theorem State.signal_frame (s : State) (p f v : Nat) : FaultFrame s (s.signal p f v) := by
  unfold State.signal
  dsimp only
  split
  · exact FaultFrame.refl s
  · split
    · split
      · exact FaultFrame.refl s
      · exact ⟨by constructor <;> rfl, rfl, rfl, rfl, rfl⟩
    · exact s.emit_frame _

theorem State.capPush_frame (s : State) (x : CapEntry) : FaultFrame s (s.capPush x) := by
  have h : FaultFrame s { s with capture := s.capture ++ [x] } := ⟨by constructor <;> rfl, rfl, rfl, rfl, rfl⟩
  exact h.trans (State.setFld_frame _ _ _ _)

theorem State.captureEvent_frame (s : State) (k a v : Nat) (d : List Byte) (o i r : Nat) : FaultFrame s (s.captureEvent k a v d o i r) := by
  unfold State.captureEvent
  split
  · exact ⟨by constructor <;> rfl, rfl, rfl, rfl, rfl⟩
  · exact s.capPush_frame _

theorem State.loadEnd_frame (s : State) (e code : Nat) : FaultFrame s (s.loadEnd e code) :=
  ((s.setFld_frame _ _ _).trans (State.raiseEvent_frame _ _ _ _ _)).trans (State.captureEvent_frame _ _ _ _ _ _ _ _)

theorem State.collsLose_frame (s : State) (l : List Nat) : FaultFrame s (s.collsLose l) := ⟨by constructor <;> rfl, rfl, rfl, rfl, rfl⟩

theorem State.abortPartition_frame (s : State) (p : PartRec) : FaultFrame s (s.abortPartition p) :=
  (FaultFrame.foldl _ (fun s e => s.onEng_frame e _) _ s).trans (State.collsLose_frame _ _)

theorem State.abortOf_frame (s : State) (e : Nat) : FaultFrame s (s.abortOf e) := by
  unfold State.abortOf
  split
  · exact s.abortPartition_frame _
  · exact FaultFrame.refl s

theorem State.abortPanelLine_frame (s : State) : FaultFrame s s.abortPanelLine :=
  ((FaultFrame.foldl _ (fun s e => s.onEng_frame e _) _ s).trans (State.collsLose_frame _ _)).trans
    (FaultFrame.foldl _ (fun s _ => s.emit_frame _) _ _)

theorem State.linkPut_frame (s : State) (p : Nat) (x : LinkPkt) : FaultFrame s (s.linkPut p x) := by
  unfold State.linkPut
  dsimp only
  split
  · exact s.onLink_frame _ _
  · exact (s.onLink_frame _ _).trans (State.emit_frame _ _)

theorem State.sendPairFail_frame (s : State) : FaultFrame s s.sendPairFail :=
  FaultFrame.foldl _ (fun s p => by
    split
    · exact s.linkPut_frame _ _
    · exact FaultFrame.refl s) _ s

theorem State.contain_frame (s : State) (e : Nat) (n : Bool) : FaultFrame s (s.contain e n) := by
  unfold State.contain
  split
  · exact FaultFrame.refl s
  · split
    · exact s.onEng_frame _ _
    · dsimp only
      have h1 : FaultFrame s (if s.cvState e = Cv.LOADING then s.loadEnd e 0x10 else s) := by
        split
        · exact s.loadEnd_frame _ _
        · exact FaultFrame.refl s
      generalize (if s.cvState e = Cv.LOADING then s.loadEnd e 0x10 else s) = s1 at h1 ⊢
      have h2 : FaultFrame s ((s1.setEngState e 7).setCvState e Cv.FAULTED) := (h1.trans (State.setFld_frame _ _ _ _)).trans (State.setFld_frame _ _ _ _)
      generalize (s1.setEngState e 7).setCvState e Cv.FAULTED = s2 at h2 ⊢
      have h3 := h2.trans (s2.onEng_frame e fun g => { g with contained := true, canvas := { g.canvas with running := false } })
      generalize (s2.onEng e fun g => { g with contained := true, canvas := { g.canvas with running := false } }) = s3 at h3 ⊢
      have h4 : FaultFrame s { s3 with annDown := s3.annDown ++ [e] } := h3.trans ⟨by constructor <;> rfl, rfl, rfl, rfl, rfl⟩
      have h5 := (h4.trans (State.captureEvent_frame _ 0x0C e 0 [] 4 0 0)).trans (State.abortOf_frame _ e)
      split
      · split
        · exact h5.trans (State.onEng_frame _ _ _)
        · exact h5
      · exact h5

theorem State.severityAction_frame (s : State) (sev scope : Nat) : FaultFrame s (s.severityAction sev scope) := by
  unfold State.severityAction
  split
  · split
    · exact FaultFrame.refl s
    · exact s.contain_frame _ _
  · split
    · exact FaultFrame.refl s
    · split
      · exact FaultFrame.foldl _ (fun s e => s.contain_frame e false) _ s
      · exact s.contain_frame _ _
  · dsimp only
    have h1 : FaultFrame s { s with halted := true } := ⟨by constructor <;> rfl, rfl, rfl, rfl, rfl⟩
    refine ((h1.trans (FaultFrame.foldl _ (fun s e => ?_) _ _)).trans (State.abortPanelLine_frame _)).trans (State.sendPairFail_frame _)
    split
    · exact FaultFrame.refl s
    · exact s.contain_frame e false
  · exact FaultFrame.refl s

theorem State.faultPin_frame (s : State) (sev : Nat) : FaultFrame s (s.faultPin sev) := by
  unfold State.faultPin
  dsimp only
  split
  · have h := ((s.setFlag_frame Reg.FLT_PIN Fld.FLT_PIN.PULSE true).trans (State.setFlag_frame _ Reg.FLT_PIN Fld.FLT_PIN.HOLD true)).trans
      (State.setFlag_frame _ Reg.FLT_PIN Fld.FLT_PIN.ASSERTED true)
    generalize ((s.setFlag Reg.FLT_PIN Fld.FLT_PIN.PULSE true).setFlag Reg.FLT_PIN Fld.FLT_PIN.HOLD true).setFlag Reg.FLT_PIN Fld.FLT_PIN.ASSERTED true = s2 at h ⊢
    exact h.trans ⟨by constructor <;> rfl, rfl, rfl, rfl, rfl⟩
  · exact FaultFrame.refl s

theorem State.faultNotify_frame (s : State) (sev p : Nat) : FaultFrame s (s.faultNotify sev p) := by
  unfold State.faultNotify
  dsimp only
  split
  · exact s.signal_frame _ _ _
  · exact FaultFrame.refl s

theorem State.faultRecord_frame (s : State) (r : FaultRec) : FaultFrame s (s.faultRecord r) := by
  unfold State.faultRecord
  dsimp only
  generalize (if 512 ≤ s.faultLog.length then s.faultLog.drop 1 else s.faultLog) ++ [r] = l
  have h1 : FaultFrame s { s with faultLog := l } := ⟨by constructor <;> rfl, rfl, rfl, rfl, rfl⟩
  generalize { s with faultLog := l } = s1 at h1 ⊢
  refine (h1.trans ?_).trans ((State.addFld_frame _ _ _ _).trans (State.satFld_frame _ _ _ _))
  split
  · exact s1.satFld_frame _ _ _
  · exact FaultFrame.refl s1

theorem State.cellBad_frame (s : State) (src scope detail : Nat) (inj : Bool) : FaultFrame s (s.cellBad src scope detail inj).1 := by
  unfold State.cellBad
  dsimp only
  split
  · split
    · exact ⟨by constructor <;> rfl, rfl, rfl, rfl, rfl⟩
    · exact ⟨by constructor <;> rfl, rfl, rfl, rfl, rfl⟩
  · exact FaultFrame.refl s

/-- A fault changes nothing beyond the frame. -/
theorem State.faultFor_frame (s : State) (src scope detail : Nat) (inj : Bool) (c : Option Nat) : FaultFrame s (s.faultFor src scope detail inj c) := by
  unfold State.faultFor
  split
  · exact FaultFrame.refl s
  · split
    · exact s.faultRecord_frame _
    · dsimp only
      have h0 := s.cellBad_frame src scope detail inj
      generalize s.cellBad src scope detail inj = x at h0 ⊢
      obtain ⟨s0, bad⟩ := x
      dsimp only at h0 ⊢
      have key : ∀ (a v : Nat) (r : FaultRec), FaultFrame s ((s0.wr a v).faultRecord r) := fun a v r =>
        h0.trans ((State.wr_frame _ _ _).trans (State.faultRecord_frame _ _))
      refine (FaultFrame.trans ?_ (State.severityAction_frame _ _ _)).trans
        ((State.faultPin_frame _ _).trans (FaultFrame.foldl _ (fun s p => s.faultNotify_frame _ p) _ _))
      split
      · split
        · exact (key _ _ _).trans (State.abortOf_frame _ _)
        · exact key _ _ _
      · exact key _ _ _

theorem State.fault_frame (s : State) (src scope detail : Nat) (inj : Bool) : FaultFrame s (s.fault src scope detail inj) :=
  s.faultFor_frame _ _ _ _ _

theorem State.werr_frame (s : State) (p fn space code addr : Nat) : FaultFrame s (s.werr p fn space code addr) := by
  unfold State.werr
  dsimp only
  refine FaultFrame.trans ?_ (State.fault_frame _ _ _ _ _)
  split
  · exact s.satFld_frame _ _ _
  · exact (s.wr_frame _ _).trans (State.wr_frame _ _ _)

theorem State.refuseWrite_frame (s : State) (r : Req) (a : Nat) : FaultFrame s (s.refuseWrite r a) := by
  unfold State.refuseWrite
  split
  · split
    · exact FaultFrame.refl s
    · exact s.werr_frame _ _ _ _ _
  · exact FaultFrame.refl s

theorem State.stall_frame (s : State) (e d c n k det : Nat) : FaultFrame s (s.stall e d c n k det) := by
  unfold State.stall
  dsimp only
  split
  · exact FaultFrame.refl s
  · split
    · exact (s.addFld_frame _ _ _).trans (State.wr_frame _ _ _)
    · exact s.addFld_frame _ _ _

end Sys2Proof.Machine
end

