-- ==== Sys2Proof/Laws/Cells.lean ====
section
/-! SUPPORT. What the shared operations of a cell's slots may change (04_cell R84 to R87, R104, R106). -/
namespace Sys2Proof.Safety
open Sys2Proof.Machine

theorem SlotFrame.refl (s : State) (e d c : Nat) : SlotFrame s s e d c :=
  ⟨(FaultFrame.refl s).quiet, rfl, fun _ _ _ _ => rfl, rfl, rfl, rfl⟩

theorem SlotFrame.trans {s t u : State} {e d c : Nat} (h : SlotFrame s t e d c) (g : SlotFrame t u e d c) : SlotFrame s u e d c :=
  ⟨Quiet.trans h.quiet g.quiet, g.own.trans h.own, fun e' d' c' n => (g.others e' d' c' n).trans (h.others e' d' c' n),
    g.fabs.trans h.fabs, g.freeCtr.trans h.freeCtr, g.hbm.trans h.hbm⟩

theorem FaultFrame.cell {s t : State} (h : FaultFrame s t) (e d c : Nat) : t.cell e d c = s.cell e d c := by
  unfold State.cell; rw [h.cells]

theorem FaultFrame.slot {s t : State} (h : FaultFrame s t) (e d c : Nat) : SlotFrame s t e d c :=
  ⟨h.quiet, by rw [h.cell], fun _ _ _ _ => h.cell _ _ _, h.fabs, h.freeCtr, h.hbm⟩

/-- A change of a cell that leaves its work keeps the frame. -/
theorem SlotFrame.setCell (s : State) (e d c : Nat) (x : Cell) (h : work x = work (s.cell e d c)) : SlotFrame s (s.setCell e d c x) e d c :=
  ⟨by constructor <;> rfl, by rw [State.cell_setCell_same]; exact h, fun _ _ _ n => State.cell_setCell_ne s x n, rfl, rfl, rfl⟩

theorem SlotFrame.onCell (s : State) (e d c : Nat) (f : Cell → Cell) (h : ∀ k, work (f k) = work k) : SlotFrame s (s.onCell e d c f) e d c :=
  SlotFrame.setCell s e d c _ (h _)

end Sys2Proof.Safety

namespace Sys2Proof.Machine
open Sys2Proof.Safety

/-- A cell fault marks the cell and reports; it changes no work (R106). -/
theorem State.cellFault_frame (s : State) (e d c b src addr unit slot : Nat) : SlotFrame s (s.cellFault e d c b src addr unit slot) e d c := by
  unfold State.cellFault
  dsimp only
  have h1 : FaultFrame s (if s.rdN (Reg.CEL_FAULT e (s.posOf e d) c) = 0 then
      s.wr (Reg.CEL_FAULT_AT e (s.posOf e d) c) (addr % 2 ^ 17 * 2 ^ 14 + unit * 2 ^ 11 + s.glaze e * 2 ^ 8 + slot) else s) := by
    split
    · exact s.wr_frame _ _
    · exact FaultFrame.refl s
  have h2 := (h1.trans (State.wr_frame _ (Reg.CEL_FAULT e (s.posOf e d) c) (Nat.lor (s.rdN (Reg.CEL_FAULT e (s.posOf e d) c)) (2 ^ b)))).slot e d c
  exact (h2.trans (SlotFrame.onCell _ e d c (fun k => { k with faulted := true }) fun k => rfl)).trans ((State.fault_frame _ _ _ _ _).slot e d c)

theorem State.tryIssue_frame (s : State) (e d c : Nat) : SlotFrame s (s.tryIssue e d c) e d c := by
  unfold State.tryIssue
  dsimp only
  split
  · exact (s.stall_frame _ _ _ _ _ _).slot e d c
  · split
    · exact s.cellFault_frame _ _ _ _ _ _ _ _
    · split
      · exact s.cellFault_frame _ _ _ _ _ _ _ _
      · split
        · exact s.cellFault_frame _ _ _ _ _ _ _ _
        · exact ((s.stall_frame _ _ _ _ _ _).slot e d c).trans (SlotFrame.onCell _ e d c _ fun k => rfl)

theorem State.advance_frame (s : State) (e d c : Nat) (i : Issue) : SlotFrame s (s.advance e d c i) e d c := by
  unfold State.advance
  dsimp only
  refine ((s.stall_frame e d c Stall.HOLD _ 0).slot e d c).trans (SlotFrame.setCell _ e d c _ ?_)
  split
  · rfl
  · split
    · rfl
    · split <;> rfl

theorem State.skipIdle_frame (n : Nat) (s : State) (e d c : Nat) : SlotFrame s (s.skipIdle e d c n) e d c := by
  induction n generalizing s with
  | zero => exact SlotFrame.refl s e d c
  | succ n ih =>
    unfold State.skipIdle
    dsimp only
    split
    · split
      · split
        · exact ((s.tryIssue_frame e d c).trans (State.advance_frame _ e d c _)).trans (ih _)
        · exact s.tryIssue_frame e d c
      · exact SlotFrame.refl s e d c
    · exact SlotFrame.refl s e d c

/-- What the end of a field may change. -/
theorem State.fieldDone_frame (s : State) (e d c : Nat) (u : SlotUnit) (i : Issue) : SlotFrame s (s.fieldDone e d c u i) e d c := by
  unfold State.fieldDone
  dsimp only
  have h := SlotFrame.onCell s e d c (fun k => { k with issue := some (((s.cell e d c).issue.getD i).done u) }) fun k => rfl
  split
  · exact h
  · exact (h.trans (State.advance_frame _ e d c _)).trans (State.skipIdle_frame _ _ e d c)

/-- A cell whose slot has issued is passed by `skipIdle`. -/
theorem State.skipIdle_issued (s : State) (e d c n : Nat) {i : Issue} (h : (s.cell e d c).issue = some i) : s.skipIdle e d c n = s := by
  cases n with
  | zero => rfl
  | succ n => unfold State.skipIdle; simp [h]

/-- A field of a slot that has issued is performed on the values of the issue cycle, and is then done (R87). -/
theorem State.field_issued (s : State) (e d c : Nat) (u : SlotUnit) (opc : Nat) (act : State → Snap → Nat → State) {i : Issue}
    (h : AtField s e d c u opc i) : s.field e d c u opc act = .next ((act s i.snap (s.curSlot e d c)).fieldDone e d c u i) := by
  obtain ⟨hi, ht, ho, hb⟩ := h
  unfold State.field
  rw [State.skipIdle_issued s e d c 256 hi]
  simp [hi, ht, ho, hb]

end Sys2Proof.Machine
end

