-- ==== Sys2Proof/WellFormed.lean ====
section
/-! DEFINITION. The well-formed commands: those whose data have the lengths that the spec allows on the wire (13_host_ports R332, R345, R350;
14_links R367; 15_sekaen R412; 08_engine_hub R216, R219; 16_power R431; 20_easel R517, R518). Every other operand is bounded by its type. -/
namespace Sys2Proof

/-- Whether a command's data have lengths that the wire can carry. -/
def Instr.wf : Instr → Bool
  | .registerWrite _ _ _ _ _ => true
  | .mMma _ _ _ => true
  | .mmaGroupAdd _ _ _ => true
  | .mEmit _ _ _ => true
  | .emitRow _ _ _ => true
  | .mMerge _ _ _ => true
  | .mClr _ _ _ => true
  | .vMov _ _ _ => true
  | .vAdd _ _ _ => true
  | .vSub _ _ _ => true
  | .vMul _ _ _ => true
  | .vFma _ _ _ => true
  | .vMax _ _ _ => true
  | .vMin _ _ _ => true
  | .vCmplt _ _ _ => true
  | .vCmpeq _ _ _ => true
  | .vSel _ _ _ => true
  | .vBrd _ _ _ => true
  | .vRnd _ _ _ => true
  | .vRed _ _ _ => true
  | .vExp2 _ _ _ => true
  | .vLog2 _ _ _ => true
  | .vRcp _ _ _ => true
  | .vRsq _ _ _ => true
  | .vLd _ _ _ => true
  | .vLdmx _ _ _ => true
  | .vSt _ _ _ => true
  | .vStmx _ _ _ => true
  | .vRecv _ _ _ => true
  | .vSend _ _ _ => true
  | .sAdd _ _ _ => true
  | .sSub _ _ _ => true
  | .sAnd _ _ _ => true
  | .sOr _ _ _ => true
  | .sXor _ _ _ => true
  | .sShl _ _ _ => true
  | .sShr _ _ _ => true
  | .sSra _ _ _ => true
  | .sMul _ _ _ => true
  | .sMin _ _ _ => true
  | .sMax _ _ _ => true
  | .sAddi _ _ _ => true
  | .sLui _ _ _ => true
  | .sCmp _ _ _ => true
  | .sCmpi _ _ _ => true
  | .sBr _ _ _ => true
  | .sLd _ _ _ => true
  | .sSt _ _ _ => true
  | .sRecv _ _ _ => true
  | .sSend _ _ _ => true
  | .sTokr _ _ _ => true
  | .sToks _ _ _ => true
  | .sWait _ _ _ => true
  | .sAcnt _ _ _ => true
  | .sAset _ _ _ => true
  | .sFlg _ _ _ => true
  | .sFlgc _ _ _ => true
  | .sTime _ _ _ => true
  | .sGetl _ _ _ => true
  | .sGend _ _ _ => true
  | .cellGlazeEnd _ _ _ => true
  | .routeHop _ _ _ _ _ => true
  | .steerFire _ _ _ _ => true
  | .stallQuietBite _ _ => true
  | .stallAgeBite _ _ => true
  | .fabFaultClear _ _ _ _ => true
  | .canvasLoad _ _ => true
  | .canvasLoadStandby _ _ => true
  | .canvasHeaderCheck _ => true
  | .canvasSectionApply _ => true
  | .cellDataWrite _ _ => true
  | .canvasBlockCheckFail _ => true
  | .canvasLoadComplete _ => true
  | .canvasStart _ _ => true
  | .canvasStop _ _ => true
  | .canvasUnload _ _ => true
  | .glazeSwitch _ => true
  | .stbyArm _ _ _ => true
  | .stbyArmReply _ => true
  | .stbyDisarm _ _ _ => true
  | .stbyCoverWrite _ _ _ _ => true
  | .varnishCommit _ => true
  | .standbyActivate _ => true
  | .standbyRestoreDone _ => true
  | .spmPowerRequest _ _ _ => true
  | .spmPowerDone _ _ => true
  | .spmZeroStart _ _ _ => true
  | .spmZeroDone _ _ => true
  | .cellZeroFillDone _ _ => true
  | .remoteWrite _ _ _ _ data => decide (0 < data.length ∧ data.length ≤ 4096)
  | .remoteRead _ _ _ _ _ => true
  | .correctedWriteback _ _ _ => true
  | .ceClr _ _ _ => true
  | .acntSeti _ _ _ => true
  | .hbmAccess _ _ _ _ _ _ _ => true
  | .stackTempRead _ _ _ => true
  | .hubBlockWrite _ _ _ _ => true
  | .hubBlockRead _ _ _ _ => true
  | .partialWriteHold _ _ _ o data => decide (0 < data.length ∧ o.val + data.length ≤ 4096)
  | .assemblyTimeout _ _ _ => true
  | .scrubBlock _ => true
  | .dmaqTailWrite _ _ _ _ => true
  | .dmaDescStart _ _ => true
  | .dmaCopy _ _ _ _ data => decide (data.length ≤ 4096)
  | .dmaFill _ _ _ => true
  | .dmaNop _ _ _ => true
  | .dmaPieceAck _ _ _ _ => true
  | .dmaDescComplete _ _ _ => true
  | .dmaqResume _ _ _ => true
  | .dmaqSkip _ _ _ => true
  | .dmaqClear _ _ _ => true
  | .streamReadEntry _ _ _ data => decide (data.length ≤ 64)
  | .streamWriteEntry _ _ => true
  | .streamDoorbell _ _ => true
  | .mergeWindowClose _ _ => true
  | .mcErrClear _ _ _ _ => true
  | .pagedGather _ _ _ => true
  | .pagedScatter _ _ _ _ data => decide (data.length ≤ 4096)
  | .bind _ _ => true
  | .extend _ _ => true
  | .shrink _ _ => true
  | .unbind _ _ => true
  | .refresh _ _ => true
  | .ctxopDrainDone _ => true
  | .walk _ _ _ => true
  | .walkMissFill _ _ _ => true
  | .vsSnap _ _ _ => true
  | .vsReady _ => true
  | .vsExportDone _ => true
  | .vsMissedClear _ _ _ => true
  | .stallClear _ _ _ => true
  | .torusHop _ _ => true
  | .flitReplay _ _ => true
  | .laneGroupFail _ _ _ _ => true
  | .ringForward _ _ => true
  | .positionDown _ => true
  | .positionUp _ => true
  | .adoptionBroadcast => true
  | .resourceWdogBite _ _ _ _ => true
  | .injectAdmit _ _ _ _ _ _ => true
  | .syncMismatch _ => true
  | .netBarArrive _ _ _ => true
  | .barrierRelease _ => true
  | .netAbortAssert _ _ _ => true
  | .abortLine _ => true
  | .refSourceSwitch _ _ _ => true
  | .refSourceReturn _ _ _ => true
  | .oscStretch _ _ => true
  | .marginWarn _ _ _ _ => true
  | .marginLost _ _ _ _ => true
  | .syncEdge _ => true
  | .syncMiss _ => true
  | .cadSet _ _ => true
  | .beatCfgWrite _ _ => true
  | .beatAccept _ _ => true
  | .beatMissing => true
  | .beatStuck => true
  | .ptmDialogue _ => true
  | .partGridWrite _ _ _ _ => true
  | .phaseBoundary _ => true
  | .schedLost _ => true
  | .realign _ _ _ => true
  | .hostLinkUp _ _ _ _ => true
  | .configRequest _ _ _ _ => true
  | .apertureAccess _ _ _ _ write => write.all fun bs => decide (0 < bs.length ∧ bs.length ≤ 4096)
  | .hostReqTimeout _ => true
  | .hostMemRequest _ _ _ _ data => decide (data.length ≤ 4096)
  | .eventRecord _ => true
  | .qcCreate _ _ _ _ => true
  | .qcDestroy _ _ _ _ => true
  | .qcResume _ _ _ _ => true
  | .qcSkip _ _ _ _ => true
  | .cmdTailWrite _ _ _ _ => true
  | .cmdFetch _ _ ok data => !ok || data.length == 128
  | .cmdSubmit _ _ => true
  | .cmdWrite _ _ => true
  | .cmdNop _ _ => true
  | .queueStuck _ _ => true
  | .feedData _ _ _ o data _ => decide (o.val + data.length ≤ 2048)
  | .feedEnd _ _ _ _ => true
  | .feedPortRead _ _ => true
  | .feedDeliver _ _ _ _ => true
  | .flush _ _ _ _ => true
  | .fqCfgWrite _ _ _ _ => true
  | .fqErrClear _ _ _ _ => true
  | .perstAssert _ _ _ => true
  | .perstStuck _ => true
  | .portReset _ _ => true
  | .portResetDrainEnd _ => true
  | .functionLevelReset _ _ => true
  | .linkPresence _ _ => true
  | .linkTrain _ _ _ _ _ _ _ => true
  | .linkRetrain _ => true
  | .retrain _ _ _ => true
  | .linkPacketRx _ _ _ data => decide (36 ≤ data.length ∧ data.length ≤ 36 + 4096)
  | .linkNakReplay _ _ => true
  | .linkLaneFail _ _ => true
  | .linkWidthChange _ _ => true
  | .linkHoldTimeout _ => true
  | .linkForward _ => true
  | .linkReqTimeout _ _ _ => true
  | .resetNotice _ => true
  | .beatTx _ => true
  | .collData _ => true
  | .collResult _ => true
  | .collAbort _ _ => true
  | .collTimeout _ => true
  | .collAbortCmd _ _ _ => true
  | .collReset _ _ _ => true
  | .verdictRx _ => true
  | .expelClear _ _ _ => true
  | .pairEnable _ _ _ => true
  | .mirror _ _ => true
  | .pairCommit _ _ => true
  | .pairApplyDone => true
  | .pairBeat => true
  | .pairFail _ => true
  | .pairSplit => true
  | .takeover _ _ => true
  | .adopt _ => true
  | .skLinkUp _ failed _ => decide failed.Nodup
  | .skLaneFail _ _ _ => true
  | .skPortDown _ _ => true
  | .guestPresence _ _ => true
  | .guestTrip _ => true
  | .admitSite _ _ _ => true
  | .revoke _ _ _ => true
  | .guestReset _ _ _ => true
  | .release _ _ _ => true
  | .guestPacket _ _ data => decide (36 ≤ data.length ∧ data.length ≤ 36 + 4096)
  | .guestWindowRequest _ _ _ _ write => write.all fun bs => decide (0 < bs.length ∧ bs.length ≤ 4096)
  | .guestTimeout _ => true
  | .vstageUpdate _ _ _ => true
  | .regStageFail _ _ _ => true
  | .phaseFail _ _ => true
  | .inputSample _ _ draws _ _ => draws.length == 48
  | .inputLost => true
  | .throttleStep => true
  | .breakerTrip _ _ => true
  | .on _ _ _ => true
  | .rampStart _ => true
  | .rampPause _ _ => true
  | .rampResume _ _ => true
  | .rampAbort _ => true
  | .rampDone _ => true
  | .off _ _ _ => true
  | .edgeUv => true
  | .pwrgdAccept => true
  | .pwrgdLoss _ => true
  | .mrstAssert _ _ => true
  | .mrstStuck => true
  | .alwaysOnUp _ _ _ => true
  | .easelBoot _ _ => true
  | .groundVerify _ => true
  | .edgeUp _ => true
  | .gessoWave => true
  | .engClockLock _ => true
  | .engTrainTest _ _ _ _ => true
  | .engDefectUpdate _ => true
  | .engEnterService _ => true
  | .panelReady => true
  | .verify _ => true
  | .edge _ => true
  | .power _ => true
  | .clock _ => true
  | .train _ => true
  | .test _ => true
  | .defects _ => true
  | .service _ => true
  | .stepOff _ => true
  | .ready _ => true
  | .cellReset _ _ _ => true
  | .dieReset _ _ _ => true
  | .engineReset _ _ => true
  | .engineResetMc _ => true
  | .engineResetDone _ => true
  | .partitionReset _ _ => true
  | .computeReset _ _ => true
  | .fullReset _ _ => true
  | .fullResetApply _ _ _ _ _ => true
  | .faultReport _ _ _ _ => true
  | .faultPulseEnd => true
  | .faultInject _ _ => true
  | .junctionSample _ _ => true
  | .thermalLevelStep _ => true
  | .coolantSample _ _ _ _ => true
  | .flowPulse _ => true
  | .flowUpdate => true
  | .flowZero => true
  | .flowStuck => true
  | .rearm _ _ => true
  | .shutdownLinkOff => true
  | .thermalCycleSample _ => true
  | .thermalCycleSave => true
  | .easelLoadWindow _ => true
  | .easelTakeover _ => true
  | .easelResume => true
  | .info _ _ _ => true
  | .getCert _ _ _ => true
  | .attest _ _ _ _ => true
  | .imgBegin _ _ _ _ _ => true
  | .imgChunk _ _ _ _ data => decide (data.length ≤ 4072)
  | .imgEnd _ _ _ => true
  | .imgAbort _ _ _ => true
  | .imgIdleTimeout => true
  | .fwActivate _ _ _ _ => true
  | .handover _ _ _ _ => true
  | .accept _ _ _ => true
  | .handoverLapse => true
  | .setOwner _ _ _ _ => true
  | .setToken _ _ _ _ => true
  | .ownerKey _ _ _ _ _ => true
  | .chainKey _ _ _ _ => true
  | .superviseNext _ _ _ => true
  | .logRead _ _ _ _ _ => true
  | .logCheckpoint _ _ _ _ => true
  | .defectRead _ _ _ _ _ => true
  | .telemetry _ _ _ => true
  | .verdict _ _ _ _ _ _ => true
  | .verdictCheck => true
  | .regRead _ _ _ _ => true
  | .regWrite _ _ _ _ _ => true
  | .open _ _ _ => true
  | .prove _ _ _ _ => true
  | .close _ _ _ => true
  | .sessionIdle => true
  | .mgmtFrame frame _ => decide (16 ≤ frame.length ∧ frame.length ≤ 16 + 4080 + 32)
  | .logDrain _ => true
  | .logUtcCommit _ _ => true
  | .defectAppend => true
  | .mateAssert => true
  | .mateBreak _ => true
  | .cprsntAssert _ => true
  | .cprsntDeassert _ _ => true
  | .cageOverpower _ => true
  | .aux3v3Loss => true
  | .noLock _ => true
  | .telemetrySample => true
  | .cadEngDroopClear _ _ _ => true
  | .cadEngMarginClear _ _ _ => true
  | .cadBeatCntClear _ _ => true
  | .lnkPortCntClear _ _ _ _ => true
  | .lnkRedirClear _ _ _ => true
  | .skGuestErrClear _ _ _ => true
  | .thmFlowCntClear _ _ => true
  | .thmEngStatWrite _ _ _ => true
  | .dmaqEnable _ _ _ _ => true
  | .collEnable _ _ _ => true

end Sys2Proof
end

