-- ==== Sys2Proof/Tests/Slice0.lean ====
section
/-! SUPPORT. Tests and witnesses: ill-formed terms that the checks refuse, worked examples of the spec, and for every statement a state and
operands that meet its hypotheses. -/
namespace Sys2Proof.Tests
open Sys2Proof.Machine Sys2Proof.Safety

/-! ### States for the tests -/

/-- Put fields of registers. -/
def put (s : State) (l : List (Nat × Fld × Nat)) : State := l.foldl (fun s x => s.setFld x.1 x.2.1 x.2.2) s

/-- The registers of an engine in service, its canvas RUNNING, with logical die n at position n. -/
def serveRegs (e : Nat) : List (Nat × Fld × Nat) :=
  [(Reg.PNL_ENG_STATE e, Fld.PNL_ENG_STATE.STATE, 5), (Reg.PWR_ENG_STAT e, Fld.PWR_ENG_STAT.STATE, 4), (Reg.ENG_HUB_INFO e, Fld.ENG_HUB_INFO.SERVED, 3),
    (Reg.ENG_CANVAS_STATUS e, Fld.ENG_CANVAS_STATUS.STATE, 3), (Reg.CEL_DIE_INFO e 0, Fld.CEL_DIE_INFO.LOGICAL, 0),
    (Reg.CEL_DIE_INFO e 1, Fld.CEL_DIE_INFO.LOGICAL, 1), (Reg.CEL_DIE_INFO e 2, Fld.CEL_DIE_INFO.LOGICAL, 2),
    (Reg.CEL_DIE_INFO e 3, Fld.CEL_DIE_INFO.LOGICAL, 3), (Reg.CEL_DIE_INFO e 4, Fld.CEL_DIE_INFO.LOGICAL, 7)]

/-- A panel that is up: engine 0 in service with its canvas running, both host ports up, one partition of all engines that HP0's physical function
owns and holds the panel-owner role of, and Easel's duties running. -/
def panel : State :=
  let s : State := { engines := [(0, { up := true, clk := { locked := true }, canvas := { running := true } })],
                     ground := { valid := true, parts := [⟨0, 0, 0, 2 ^ 48 - 1⟩] },
                     boot := { step := 6, link := true, noPwr := false }, easel := { running := true } }
  put s (serveRegs 0 ++ [(Reg.HP_PORT_STAT 0, Fld.HP_PORT_STAT.STATE, 2), (Reg.HP_PORT_STAT 1, Fld.HP_PORT_STAT.STATE, 2),
    (Reg.SEC_ROLE, Fld.SEC_ROLE.OWNER_VALID, 1), (Reg.PNL_PHYS, Fld.PNL_PHYS.CPRSNT, 3)])

/-! ### Cells -/

/-- A 128-bit slot of a MOP, a VOP and a SOP. -/
def slotOf (m v x : Nat) : Nat := m * 2 ^ 96 + v * 2 ^ 48 + x

/-- The canvas sections that give logical cell 0 of die 0 the program, in glaze 0. -/
def secsOf (slots : List Nat) (descs : List Byte) (iter : Nat) (vr sr cr : Nat) : List Section :=
  [⟨5, 0, 0, leBytes 2 0 ++ leBytes 2 0 ++ leBytes 2 0xFFFF ++ leBytes 2 0 ++ leBytes 8 iter ++ leBytes 8 vr ++ leBytes 8 sr ++ leBytes 8 cr ++ leBytes 8 0⟩,
   ⟨2, 0xFF, 0xFF, leBytes 16 0 ++ leBytes 2 slots.length ++ leBytes 14 0 ++ slots.flatMap (leBytes 16)⟩,
   ⟨3, 0xFF, 0xFF, leBytes 16 0 ++ descs⟩]

/-- The panel with a program in cell 0. -/
def cellPanel (slots : List Nat) (descs : List Byte := []) (iter : Nat := 0) : State :=
  panel.onEng 0 fun g => { g with canvas := { g.canvas with secs := secsOf slots descs iter 0 0 0 } }

/-- The slot of cell 0 has issued, with every field still to be performed. -/
def issued (s : State) : State :=
  s.onCell 0 0 0 fun k => { k with issue := some ⟨⟨k.sregs, k.preds, k.vregs, k.flags, k.sp⟩, true, true, true, none, false⟩ }

/-- The issue that `issued` gives. -/
def issueOf (s : State) : Issue :=
  let k := s.cell 0 0 0
  ⟨⟨k.sregs, k.preds, k.vregs, k.flags, k.sp⟩, true, true, true, none, false⟩

/-- A slot with an opcode in one field. -/
def slotWith : SlotUnit → Nat → Nat
  | .m, o => slotOf (o * 2 ^ 20) 0 0
  | .v, o => slotOf 0 (o * 2 ^ 42) 0
  | .s, o => slotOf 0 0 (o * 2 ^ 42)

theorem witness_field_commands :
    ∀ x ∈ fieldCommands 0 0 0, let s := issued (cellPanel [slotWith x.2.1 x.2.2])
      AtField s 0 0 0 x.2.1 x.2.2 (issueOf (cellPanel [slotWith x.2.1 x.2.2])) := by
  simp only [AtField]; decide +kernel

set_option Elab.async false
set_option maxRecDepth 100000
set_option synthInstance.maxSize 1000

/-! ### Shared helpers of the witnesses -/

/-- A DMA descriptor of 64 bytes (08_hbm_and_hub R221). -/
def descBytes (op flags ctr spaces src dst rowLen rows sStride dStride peer tag args : Nat) : List Byte :=
  leBytes 1 op ++ leBytes 1 flags ++ leBytes 1 ctr ++ leBytes 1 0 ++ leBytes 1 spaces ++ leBytes 3 0 ++ leBytes 8 src ++ leBytes 8 dst ++
    leBytes 4 rowLen ++ leBytes 4 rows ++ leBytes 4 sStride ++ leBytes 4 dStride ++ leBytes 3 peer ++ leBytes 1 0 ++ leBytes 4 tag ++ leBytes 16 args

/-- PAGED_ARGS (09_paged_tensors R240). -/
def pagedArgs (op h count cap tag : Nat) : Nat := op + h * 2 ^ 16 + count * 2 ^ 32 + cap * 2 ^ 64 + tag * 2 ^ 96

/-- The first byte of the near part of engine 0. -/
def NE : Nat := 0x400000000000

/-- The first byte of the engine scratchpad in the engine's own view. -/
def SPE : Nat := 0x8000000000

/-- The state that a command leads to. -/
def after (s : State) (c : Instr) : State :=
  match exec c s with
  | .next t => t
  | _ => s

/-- A period plan of 1,000 ticks with one phase. -/
def planSec (e : Nat := 1000) (phases : List (Nat × Nat) := [(0, 0)]) : Section :=
  ⟨8, 0xFF, 0xFF, leBytes 8 e ++ leBytes 1 phases.length ++ leBytes 7 0 ++ phases.flatMap fun p => leBytes 8 p.1 ++ leBytes 1 p.2 ++ leBytes 7 0⟩

/-- A descriptor in flight of which nothing has moved. -/
def flightOf (q ix : Nat) (raw : List Byte) : Flight := { q := q, ix := ix, raw := raw }

/-! ### Cells (04_cell) -/

/-- Descriptors 0, from the scratchpad and to it, and 1, from queue 0 and to output 0. -/
def descs2 : List Byte := leBytes 32 0 ++ leBytes 4 (2 ^ 8 + 2 ^ 11 + 2 ^ 23) ++ leBytes 28 0

/-- Cell 0 at a slot, with an entry in each of its queues and its scratchpad written. -/
def fieldPanel (slots : List Nat) (iter : Nat := 0) (st : SMap WordSt := []) : State :=
  let s := cellPanel slots descs2 iter
  let s := s.onCell 0 0 0 fun k => { k with sregs := [(1, 4), (2, 0x30000)], sp := { zeroed := (List.range 64).map fun i => (i, true), st := st } }
  s.onFab 0 0 fun f => { f with queues := (List.range 12).map fun q => (q, { base := [⟨1, false⟩] }) }

/-- The cell with operations of the matrix unit under way. -/
def matrixPanel (mops : List MOp) (emits : List EmitOp) : State :=
  (fieldPanel [0]).onCell 0 0 0 fun k => { k with mops := mops, emits := emits }

/-- A group of zeros. -/
def zeroVecs : List (List Factor × Int) := List.replicate 32 ([], 0)

/-- The states for cells. -/
def st04 : Nat → State
  | 0 => fieldPanel [slotWith .s 0x01]
  | 1 => fieldPanel [slotWith .s 0x13 + 2 ^ 41] 0
  | 2 => (fieldPanel [slotWith .s 0x13]).onFab 0 0 fun f => { f with queues := [] }
  | 3 => fieldPanel [slotOf 0 0 (0x11 * 2 ^ 42 + 2 * 2 ^ 28)]
  | 4 => matrixPanel [⟨.mma, 0, 40, 0, 0, false, true, 0, [], [], 0⟩] []
  | 5 => matrixPanel [⟨.mma, 1, 40, 0, 0, false, true, 1, List.replicate 2048 0, List.replicate 2048 0, 0⟩] []
  | 6 => matrixPanel [] [⟨0, 0, 0, 31, [], 0⟩]
  | 7 => (matrixPanel [] [⟨1, 0, 0, 3, [], 0⟩]).onEng 0 fun g => { g with canvas := { g.canvas with secs := secsOf [0] descs2 0 0x5555555555555555 0 0 } }
  | 8 => (fieldPanel [0] 3).onCell 0 0 0 fun k => { k with iter := 3 }
  | 9 => issued (fieldPanel [slotWith .v 0x1B])
  | 10 => issued (fieldPanel [slotWith .v 0x1B] 0 [(0, .ue)])
  | n => issued (fieldPanel (((fieldCommands 0 0 0)[n - 11]?).toList.map fun x => slotWith x.2.1 x.2.2))

theorem witness_CellEndsGlazeAfterIterations :
    (let s : State := st04 8;
    let e : EngIx := 0;
    let d : DieIx := 0;
    let c : CellIx := 0;
    let k : Cell := s.cell e.val d.val c.val;
    let p : CellProg := s.prog e.val d.val c.val;
    s.cellsRun e.val = true ∧
      0 < p.n ∧ 0 < p.iter ∧ p.iter ≤ k.iter ∧ k.issue = none ∧ k.faulted = false ∧ k.held = false ∧ k.ended = false) := by
  decide +kernel

theorem witness_SlotIssuesWaitsOrFaults :
    (let s : State := st04 0;
    let e : EngIx := 0;
    let d : DieIx := 0;
    let c : CellIx := 0;
    Option.any
        (fun (row : Instr × SlotUnit × Nat) =>
          decide
            ((s.cellLive e.val d.val c.val = true ∧
                (s.cell e.val d.val c.val).issue = none ∧
                  unitOpc (s.curSlot e.val d.val c.val) row.snd.fst = row.snd.snd ∧
                    (match row.snd.fst,
                      performs (s.cell e.val d.val c.val).preds
                        (s.curSlot e.val d.val c.val) with
                    | SlotUnit.m, (p, fst, snd) => p
                    | SlotUnit.v, (fst, p, snd) => p
                    | SlotUnit.s, (fst, fst_1, p) => p) = true) ∧
              waits s e.val d.val c.val = none ∧
                badSlot s e.val d.val c.val = false ∧ badAddress s e.val d.val c.val = none))
        (fieldCommands e d c)[27]? =
      true) ∧
    (let s : State := st04 2;
    let e : EngIx := 0;
    let d : DieIx := 0;
    let c : CellIx := 0;
    Option.any
        (fun (row : Instr × SlotUnit × Nat) =>
          decide
            ((s.cellLive e.val d.val c.val = true ∧
                (s.cell e.val d.val c.val).issue = none ∧
                  unitOpc (s.curSlot e.val d.val c.val) row.snd.fst = row.snd.snd ∧
                    (match row.snd.fst,
                      performs (s.cell e.val d.val c.val).preds
                        (s.curSlot e.val d.val c.val) with
                    | SlotUnit.m, (p, fst, snd) => p
                    | SlotUnit.v, (fst, p, snd) => p
                    | SlotUnit.s, (fst, fst_1, p) => p) = true) ∧
              (waits s e.val d.val c.val).isSome = true))
        (fieldCommands e d c)[45]? =
      true) ∧
    (let s : State := st04 3;
    let e : EngIx := 0;
    let d : DieIx := 0;
    let c : CellIx := 0;
    Option.any
        (fun (row : Instr × SlotUnit × Nat) =>
          decide
            ((s.cellLive e.val d.val c.val = true ∧
                (s.cell e.val d.val c.val).issue = none ∧
                  unitOpc (s.curSlot e.val d.val c.val) row.snd.fst = row.snd.snd ∧
                    (match row.snd.fst,
                      performs (s.cell e.val d.val c.val).preds
                        (s.curSlot e.val d.val c.val) with
                    | SlotUnit.m, (p, fst, snd) => p
                    | SlotUnit.v, (fst, p, snd) => p
                    | SlotUnit.s, (fst, fst_1, p) => p) = true) ∧
              Option.any
                  (fun (y : Nat × Nat) =>
                    decide
                      (waits s e.val d.val c.val = none ∧
                        badSlot s e.val d.val c.val = false))
                  (badAddress s e.val d.val c.val) =
                true))
        (fieldCommands e d c)[43]? =
      true) := by
  refine ⟨?_, ?_, ?_⟩ <;> decide +kernel

theorem witness_MatrixGroupsAdd :
    (let s : State := st04 4;
    let e : EngIx := 0;
    let d : DieIx := 0;
    let c : CellIx := 0;
    Option.any
        (fun (o : MOp) =>
          decide
            (let k : Cell := s.cell e.val d.val c.val;
            let ds : Desc := (s.prog e.val d.val c.val).desc o.desc;
            o.kind = MKind.mma ∧
              o.started = true ∧
                k.emits = [] ∧
                  (ds.asrc ≠ 0 → tileBytes ds.afmt ds.amx ≤ o.aBuf.length) ∧
                    (ds.bsrc ≠ 0 → tileBytes ds.bfmt ds.bmx ≤ o.bBuf.length) ∧
                      let r : State × List Byte × List Byte × Option Nat :=
                        if ds.asrc = 0 then
                          s.tileAt e.val d.val c.val ds.afmt ds.amx ds.aBase ds.aScale (o.aOff + o.next)
                        else (s, (bufTile ds.amx o.aBuf).fst, (bufTile ds.amx o.aBuf).snd, none);
                      let s1 : State := r.fst;
                      r.snd.snd.snd = none ∧
                        let r : State × List Byte × List Byte × Option Nat :=
                          if ds.bsrc = 0 then
                            s1.tileAt e.val d.val c.val ds.bfmt ds.bmx ds.bBase ds.bScale (o.bOff + o.next)
                          else (s1, (bufTile ds.bmx o.bBuf).fst, (bufTile ds.bmx o.bBuf).snd, none);
                        r.snd.snd.snd = none))
        (s.cell e.val d.val c.val).mops.head? =
      true) ∧
    (let va : List (List Factor × Int) := zeroVecs;
    let vb : List (List Factor × Int) := zeroVecs;
    let i : Nat := 0;
    Option.any
        (fun (a : List Factor × Int) =>
          decide
            (let j : Nat := 0;
            va.length = 32 ∧ vb.length = 32 ∧ i < 32 ∧ j < 32 ∧ vb[j]?.isSome = true))
        va[i]? =
      true) := by
  refine ⟨?_, ?_⟩ <;> decide +kernel

theorem witness_MatrixOperationsQueueAndEmit :
    (let s : State := st04 11;
    let e : EngIx := 0;
    let d : DieIx := 0;
    let c : CellIx := 0;
    let i : Issue := issueOf (fieldPanel [0]);
    (s.cell e.val d.val c.val).issue = some i ∧
      i.todo SlotUnit.m = true ∧
        unitOpc (s.curSlot e.val d.val c.val) SlotUnit.m = 1 ∧
          behindScalar i (s.curSlot e.val d.val c.val) SlotUnit.m = false) ∧
    (let s : State := st04 12;
    let e : EngIx := 0;
    let d : DieIx := 0;
    let c : CellIx := 0;
    let i : Issue := issueOf (fieldPanel [0]);
    (s.cell e.val d.val c.val).issue = some i ∧
      i.todo SlotUnit.m = true ∧
        unitOpc (s.curSlot e.val d.val c.val) SlotUnit.m = 2 ∧
          behindScalar i (s.curSlot e.val d.val c.val) SlotUnit.m = false) ∧
    (let s : State := st04 13;
    let e : EngIx := 0;
    let d : DieIx := 0;
    let c : CellIx := 0;
    let i : Issue := issueOf (fieldPanel [0]);
    (s.cell e.val d.val c.val).issue = some i ∧
      i.todo SlotUnit.m = true ∧
        unitOpc (s.curSlot e.val d.val c.val) SlotUnit.m = 3 ∧
          behindScalar i (s.curSlot e.val d.val c.val) SlotUnit.m = false) ∧
    (let s : State := st04 14;
    let e : EngIx := 0;
    let d : DieIx := 0;
    let c : CellIx := 0;
    let i : Issue := issueOf (fieldPanel [0]);
    (s.cell e.val d.val c.val).issue = some i ∧
      i.todo SlotUnit.m = true ∧
        unitOpc (s.curSlot e.val d.val c.val) SlotUnit.m = 4 ∧
          behindScalar i (s.curSlot e.val d.val c.val) SlotUnit.m = false) ∧
    (let s : State := st04 6;
    let e : EngIx := 0;
    let d : DieIx := 0;
    let c : CellIx := 0;
    Option.any
        (fun (o : EmitOp) =>
          decide
            (let k : Cell := s.cell e.val d.val c.val;
            let ds : Desc := (s.prog e.val d.val c.val).desc o.desc;
            let row : RowOut :=
              outRow ds (List.map (fun (j : Nat) => SMap.getD k.accs (32 * o.row + j) Acc.clear) (List.range 32))
                (List.map (fun (j : Nat) => k.gen (64 + j)) (List.range 32));
            ds.odst = 0 ∧
              let r : State × Option Nat :=
                s.storeRow e.val d.val c.val (ds.oBase + 8 * o.oOff + o.row * ds.oStride)
                  (ds.oScale + 32 * o.sOff + o.row) row;
              r.snd = none))
        (s.cell e.val d.val c.val).emits.head? =
      true) ∧
    (let s : State := st04 7;
    let e : EngIx := 0;
    let d : DieIx := 0;
    let c : CellIx := 0;
    Option.any
        (fun (o : EmitOp) =>
          decide
            (let k : Cell := s.cell e.val d.val c.val;
            let ds : Desc := (s.prog e.val d.val c.val).desc o.desc;
            let row : RowOut :=
              outRow ds (List.map (fun (j : Nat) => SMap.getD k.accs (32 * o.row + j) Acc.clear) (List.range 32))
                (List.map (fun (j : Nat) => k.gen (64 + j)) (List.range 32));
            let bytes : List Byte := o.part ++ row.bytes;
            ds.odst ≠ 0 ∧ s.rowCredit e.val d.val c.val (ds.odst - 1) (bytes.length / 64) = true))
        (s.cell e.val d.val c.val).emits.head? =
      true) := by
  refine ⟨?_, ?_, ?_, ?_, ?_, ?_⟩ <;> decide +kernel

theorem witness_VectorMemoryAndNetworkForms :
    (let s : State := st04 9;
    let e : EngIx := 0;
    let d : DieIx := 0;
    let c : CellIx := 0;
    let i : Issue := issueOf (fieldPanel [0]);
    let w : Nat := s.curSlot e.val d.val c.val;
    let f : VField := vField w;
    let fmt : Fmt := Fmt.ofCode f.fmt;
    let k : Cell := s.cell e.val d.val c.val;
    let addr : Nat := BitVec.toNat (sreg i.snap.sregs f.sa) + 8 * f.off;
    let sc : Nat := BitVec.toNat (sreg i.snap.sregs f.sb);
    let regs : List Word := vreg i.snap.vregs f.vd;
    let gens : List Word64 := List.map k.gen (List.range 64);
    let lo : MxBlock := mxQuantise fmt f.rnd (List.map fp (List.take 32 regs)) (List.take 32 gens);
    let hi : MxBlock := mxQuantise fmt f.rnd (List.map fp (List.drop 32 regs)) (List.drop 32 gens);
    ((s.cell e.val d.val c.val).issue = some i ∧
        i.todo SlotUnit.v = true ∧
          unitOpc (s.curSlot e.val d.val c.val) SlotUnit.v = 27 ∧
            behindScalar i (s.curSlot e.val d.val c.val) SlotUnit.v = false) ∧
      let r : State × List Byte × Option Nat := s.spReadBytes (SpRef.cell e.val d.val c.val) sc 2;
      let s0 : State := r.fst;
      r.snd.snd = none ∧
        let r : State × Option Nat :=
          (s0.spWriteWords (SpRef.cell e.val d.val c.val) addr
                (packCodes fmt (lo.codes ++ hi.codes))).spMerge
            (SpRef.cell e.val d.val c.val) sc [BitVec.ofNat 8 lo.scale];
        let s1 : State := r.fst;
        r.snd = none ∧
          let r : State × Option Nat :=
            s1.spMerge (SpRef.cell e.val d.val c.val) (sc + 1) [BitVec.ofNat 8 hi.scale];
          r.snd = none) ∧
    (let s : State := st04 10;
    let e : EngIx := 0;
    let d : DieIx := 0;
    let c : CellIx := 0;
    let i : Issue := issueOf (fieldPanel [0] 0 [(0, WordSt.ue)]);
    let w : Nat := s.curSlot e.val d.val c.val;
    let f : VField := vField w;
    let sc : Nat := BitVec.toNat (sreg i.snap.sregs f.sb);
    ((s.cell e.val d.val c.val).issue = some i ∧
        i.todo SlotUnit.v = true ∧
          unitOpc (s.curSlot e.val d.val c.val) SlotUnit.v = 27 ∧
            behindScalar i (s.curSlot e.val d.val c.val) SlotUnit.v = false) ∧
      let r : State × List Byte × Option Nat := s.spReadBytes (SpRef.cell e.val d.val c.val) sc 2;
      r.snd.snd.isSome = true) ∧
    (let s : State := st04 32;
    let e : EngIx := 0;
    let d : DieIx := 0;
    let c : CellIx := 0;
    let i : Issue := issueOf (fieldPanel [0]);
    (s.cell e.val d.val c.val).issue = some i ∧
      i.todo SlotUnit.v = true ∧
        unitOpc (s.curSlot e.val d.val c.val) SlotUnit.v = 24 ∧
          behindScalar i (s.curSlot e.val d.val c.val) SlotUnit.v = false) ∧
    (let s : State := st04 33;
    let e : EngIx := 0;
    let d : DieIx := 0;
    let c : CellIx := 0;
    let i : Issue := issueOf (fieldPanel [0]);
    (s.cell e.val d.val c.val).issue = some i ∧
      i.todo SlotUnit.v = true ∧
        unitOpc (s.curSlot e.val d.val c.val) SlotUnit.v = 25 ∧
          behindScalar i (s.curSlot e.val d.val c.val) SlotUnit.v = false) ∧
    (let s : State := st04 34;
    let e : EngIx := 0;
    let d : DieIx := 0;
    let c : CellIx := 0;
    let i : Issue := issueOf (fieldPanel [0]);
    (s.cell e.val d.val c.val).issue = some i ∧
      i.todo SlotUnit.v = true ∧
        unitOpc (s.curSlot e.val d.val c.val) SlotUnit.v = 26 ∧
          behindScalar i (s.curSlot e.val d.val c.val) SlotUnit.v = false) ∧
    (let s : State := st04 36;
    let e : EngIx := 0;
    let d : DieIx := 0;
    let c : CellIx := 0;
    let i : Issue := issueOf (fieldPanel [0]);
    (s.cell e.val d.val c.val).issue = some i ∧
      i.todo SlotUnit.v = true ∧
        unitOpc (s.curSlot e.val d.val c.val) SlotUnit.v = 28 ∧
          behindScalar i (s.curSlot e.val d.val c.val) SlotUnit.v = false) ∧
    (let s : State := st04 37;
    let e : EngIx := 0;
    let d : DieIx := 0;
    let c : CellIx := 0;
    let i : Issue := issueOf (fieldPanel [0]);
    (s.cell e.val d.val c.val).issue = some i ∧
      i.todo SlotUnit.v = true ∧
        unitOpc (s.curSlot e.val d.val c.val) SlotUnit.v = 29 ∧
          behindScalar i (s.curSlot e.val d.val c.val) SlotUnit.v = false) := by
  refine ⟨?_, ?_, ?_, ?_, ?_, ?_, ?_⟩ <;> decide +kernel

theorem witness_ScalarFieldsComplete :
    (let s : State := st04 38;
    let e : EngIx := 0;
    let d : DieIx := 0;
    let c : CellIx := 0;
    let i : Issue := issueOf (fieldPanel [0]);
    (s.cell e.val d.val c.val).issue = some i ∧
      i.todo SlotUnit.s = true ∧
        unitOpc (s.curSlot e.val d.val c.val) SlotUnit.s = 1 ∧
          behindScalar i (s.curSlot e.val d.val c.val) SlotUnit.s = false) ∧
    (let s : State := st04 39;
    let e : EngIx := 0;
    let d : DieIx := 0;
    let c : CellIx := 0;
    let i : Issue := issueOf (fieldPanel [0]);
    (s.cell e.val d.val c.val).issue = some i ∧
      i.todo SlotUnit.s = true ∧
        unitOpc (s.curSlot e.val d.val c.val) SlotUnit.s = 2 ∧
          behindScalar i (s.curSlot e.val d.val c.val) SlotUnit.s = false) ∧
    (let s : State := st04 40;
    let e : EngIx := 0;
    let d : DieIx := 0;
    let c : CellIx := 0;
    let i : Issue := issueOf (fieldPanel [0]);
    (s.cell e.val d.val c.val).issue = some i ∧
      i.todo SlotUnit.s = true ∧
        unitOpc (s.curSlot e.val d.val c.val) SlotUnit.s = 3 ∧
          behindScalar i (s.curSlot e.val d.val c.val) SlotUnit.s = false) ∧
    (let s : State := st04 41;
    let e : EngIx := 0;
    let d : DieIx := 0;
    let c : CellIx := 0;
    let i : Issue := issueOf (fieldPanel [0]);
    (s.cell e.val d.val c.val).issue = some i ∧
      i.todo SlotUnit.s = true ∧
        unitOpc (s.curSlot e.val d.val c.val) SlotUnit.s = 4 ∧
          behindScalar i (s.curSlot e.val d.val c.val) SlotUnit.s = false) ∧
    (let s : State := st04 42;
    let e : EngIx := 0;
    let d : DieIx := 0;
    let c : CellIx := 0;
    let i : Issue := issueOf (fieldPanel [0]);
    (s.cell e.val d.val c.val).issue = some i ∧
      i.todo SlotUnit.s = true ∧
        unitOpc (s.curSlot e.val d.val c.val) SlotUnit.s = 5 ∧
          behindScalar i (s.curSlot e.val d.val c.val) SlotUnit.s = false) ∧
    (let s : State := st04 43;
    let e : EngIx := 0;
    let d : DieIx := 0;
    let c : CellIx := 0;
    let i : Issue := issueOf (fieldPanel [0]);
    (s.cell e.val d.val c.val).issue = some i ∧
      i.todo SlotUnit.s = true ∧
        unitOpc (s.curSlot e.val d.val c.val) SlotUnit.s = 6 ∧
          behindScalar i (s.curSlot e.val d.val c.val) SlotUnit.s = false) ∧
    (let s : State := st04 44;
    let e : EngIx := 0;
    let d : DieIx := 0;
    let c : CellIx := 0;
    let i : Issue := issueOf (fieldPanel [0]);
    (s.cell e.val d.val c.val).issue = some i ∧
      i.todo SlotUnit.s = true ∧
        unitOpc (s.curSlot e.val d.val c.val) SlotUnit.s = 7 ∧
          behindScalar i (s.curSlot e.val d.val c.val) SlotUnit.s = false) ∧
    (let s : State := st04 45;
    let e : EngIx := 0;
    let d : DieIx := 0;
    let c : CellIx := 0;
    let i : Issue := issueOf (fieldPanel [0]);
    (s.cell e.val d.val c.val).issue = some i ∧
      i.todo SlotUnit.s = true ∧
        unitOpc (s.curSlot e.val d.val c.val) SlotUnit.s = 8 ∧
          behindScalar i (s.curSlot e.val d.val c.val) SlotUnit.s = false) ∧
    (let s : State := st04 46;
    let e : EngIx := 0;
    let d : DieIx := 0;
    let c : CellIx := 0;
    let i : Issue := issueOf (fieldPanel [0]);
    (s.cell e.val d.val c.val).issue = some i ∧
      i.todo SlotUnit.s = true ∧
        unitOpc (s.curSlot e.val d.val c.val) SlotUnit.s = 9 ∧
          behindScalar i (s.curSlot e.val d.val c.val) SlotUnit.s = false) ∧
    (let s : State := st04 47;
    let e : EngIx := 0;
    let d : DieIx := 0;
    let c : CellIx := 0;
    let i : Issue := issueOf (fieldPanel [0]);
    (s.cell e.val d.val c.val).issue = some i ∧
      i.todo SlotUnit.s = true ∧
        unitOpc (s.curSlot e.val d.val c.val) SlotUnit.s = 10 ∧
          behindScalar i (s.curSlot e.val d.val c.val) SlotUnit.s = false) ∧
    (let s : State := st04 48;
    let e : EngIx := 0;
    let d : DieIx := 0;
    let c : CellIx := 0;
    let i : Issue := issueOf (fieldPanel [0]);
    (s.cell e.val d.val c.val).issue = some i ∧
      i.todo SlotUnit.s = true ∧
        unitOpc (s.curSlot e.val d.val c.val) SlotUnit.s = 11 ∧
          behindScalar i (s.curSlot e.val d.val c.val) SlotUnit.s = false) ∧
    (let s : State := st04 49;
    let e : EngIx := 0;
    let d : DieIx := 0;
    let c : CellIx := 0;
    let i : Issue := issueOf (fieldPanel [0]);
    (s.cell e.val d.val c.val).issue = some i ∧
      i.todo SlotUnit.s = true ∧
        unitOpc (s.curSlot e.val d.val c.val) SlotUnit.s = 12 ∧
          behindScalar i (s.curSlot e.val d.val c.val) SlotUnit.s = false) ∧
    (let s : State := st04 50;
    let e : EngIx := 0;
    let d : DieIx := 0;
    let c : CellIx := 0;
    let i : Issue := issueOf (fieldPanel [0]);
    (s.cell e.val d.val c.val).issue = some i ∧
      i.todo SlotUnit.s = true ∧
        unitOpc (s.curSlot e.val d.val c.val) SlotUnit.s = 13 ∧
          behindScalar i (s.curSlot e.val d.val c.val) SlotUnit.s = false) ∧
    (let s : State := st04 51;
    let e : EngIx := 0;
    let d : DieIx := 0;
    let c : CellIx := 0;
    let i : Issue := issueOf (fieldPanel [0]);
    (s.cell e.val d.val c.val).issue = some i ∧
      i.todo SlotUnit.s = true ∧
        unitOpc (s.curSlot e.val d.val c.val) SlotUnit.s = 14 ∧
          behindScalar i (s.curSlot e.val d.val c.val) SlotUnit.s = false) ∧
    (let s : State := st04 52;
    let e : EngIx := 0;
    let d : DieIx := 0;
    let c : CellIx := 0;
    let i : Issue := issueOf (fieldPanel [0]);
    (s.cell e.val d.val c.val).issue = some i ∧
      i.todo SlotUnit.s = true ∧
        unitOpc (s.curSlot e.val d.val c.val) SlotUnit.s = 15 ∧
          behindScalar i (s.curSlot e.val d.val c.val) SlotUnit.s = false) ∧
    (let s : State := st04 53;
    let e : EngIx := 0;
    let d : DieIx := 0;
    let c : CellIx := 0;
    let i : Issue := issueOf (fieldPanel [0]);
    (s.cell e.val d.val c.val).issue = some i ∧
      i.todo SlotUnit.s = true ∧
        unitOpc (s.curSlot e.val d.val c.val) SlotUnit.s = 16 ∧
          behindScalar i (s.curSlot e.val d.val c.val) SlotUnit.s = false) ∧
    (let s : State := st04 67;
    let e : EngIx := 0;
    let d : DieIx := 0;
    let c : CellIx := 0;
    let i : Issue := issueOf (fieldPanel [0]);
    (s.cell e.val d.val c.val).issue = some i ∧
      i.todo SlotUnit.s = true ∧
        unitOpc (s.curSlot e.val d.val c.val) SlotUnit.s = 32 ∧
          behindScalar i (s.curSlot e.val d.val c.val) SlotUnit.s = false) ∧
    (let s : State := st04 54;
    let e : EngIx := 0;
    let d : DieIx := 0;
    let c : CellIx := 0;
    let i : Issue := issueOf (fieldPanel [0]);
    (s.cell e.val d.val c.val).issue = some i ∧
      i.todo SlotUnit.s = true ∧
        unitOpc (s.curSlot e.val d.val c.val) SlotUnit.s = 17 ∧
          behindScalar i (s.curSlot e.val d.val c.val) SlotUnit.s = false) ∧
    (let s : State := st04 55;
    let e : EngIx := 0;
    let d : DieIx := 0;
    let c : CellIx := 0;
    let i : Issue := issueOf (fieldPanel [0]);
    (s.cell e.val d.val c.val).issue = some i ∧
      i.todo SlotUnit.s = true ∧
        unitOpc (s.curSlot e.val d.val c.val) SlotUnit.s = 18 ∧
          behindScalar i (s.curSlot e.val d.val c.val) SlotUnit.s = false) ∧
    (let s : State := st04 56;
    let e : EngIx := 0;
    let d : DieIx := 0;
    let c : CellIx := 0;
    let i : Issue := issueOf (fieldPanel [0]);
    let f : SField := sField (s.curSlot e.val d.val c.val);
    ((s.cell e.val d.val c.val).issue = some i ∧
        i.todo SlotUnit.s = true ∧
          unitOpc (s.curSlot e.val d.val c.val) SlotUnit.s = 19 ∧
            behindScalar i (s.curSlot e.val d.val c.val) SlotUnit.s = false) ∧
      let r : State × Option FEntry := s.queueTake e.val d.val c.val (4 + f.imm % 4);
      r.snd.isSome = true) ∧
    (let s : State := st04 57;
    let e : EngIx := 0;
    let d : DieIx := 0;
    let c : CellIx := 0;
    let i : Issue := issueOf (fieldPanel [0]);
    (s.cell e.val d.val c.val).issue = some i ∧
      i.todo SlotUnit.s = true ∧
        unitOpc (s.curSlot e.val d.val c.val) SlotUnit.s = 20 ∧
          behindScalar i (s.curSlot e.val d.val c.val) SlotUnit.s = false) ∧
    (let s : State := st04 58;
    let e : EngIx := 0;
    let d : DieIx := 0;
    let c : CellIx := 0;
    let i : Issue := issueOf (fieldPanel [0]);
    let f : SField := sField (s.curSlot e.val d.val c.val);
    ((s.cell e.val d.val c.val).issue = some i ∧
        i.todo SlotUnit.s = true ∧
          unitOpc (s.curSlot e.val d.val c.val) SlotUnit.s = 21 ∧
            behindScalar i (s.curSlot e.val d.val c.val) SlotUnit.s = false) ∧
      let r : State × Option FEntry := s.queueTake e.val d.val c.val (8 + f.imm % 4);
      r.snd.isSome = true) ∧
    (let s : State := st04 59;
    let e : EngIx := 0;
    let d : DieIx := 0;
    let c : CellIx := 0;
    let i : Issue := issueOf (fieldPanel [0]);
    (s.cell e.val d.val c.val).issue = some i ∧
      i.todo SlotUnit.s = true ∧
        unitOpc (s.curSlot e.val d.val c.val) SlotUnit.s = 22 ∧
          behindScalar i (s.curSlot e.val d.val c.val) SlotUnit.s = false) ∧
    (let s : State := st04 64;
    let e : EngIx := 0;
    let d : DieIx := 0;
    let c : CellIx := 0;
    let i : Issue := issueOf (fieldPanel [0]);
    (s.cell e.val d.val c.val).issue = some i ∧
      i.todo SlotUnit.s = true ∧
        unitOpc (s.curSlot e.val d.val c.val) SlotUnit.s = 29 ∧
          behindScalar i (s.curSlot e.val d.val c.val) SlotUnit.s = false) ∧
    (let s : State := st04 60;
    let e : EngIx := 0;
    let d : DieIx := 0;
    let c : CellIx := 0;
    let i : Issue := issueOf (fieldPanel [0]);
    (s.cell e.val d.val c.val).issue = some i ∧
      i.todo SlotUnit.s = true ∧
        unitOpc (s.curSlot e.val d.val c.val) SlotUnit.s = 24 ∧
          behindScalar i (s.curSlot e.val d.val c.val) SlotUnit.s = false) ∧
    (let s : State := st04 61;
    let e : EngIx := 0;
    let d : DieIx := 0;
    let c : CellIx := 0;
    let i : Issue := issueOf (fieldPanel [0]);
    (s.cell e.val d.val c.val).issue = some i ∧
      i.todo SlotUnit.s = true ∧
        unitOpc (s.curSlot e.val d.val c.val) SlotUnit.s = 25 ∧
          behindScalar i (s.curSlot e.val d.val c.val) SlotUnit.s = false) ∧
    (let s : State := st04 62;
    let e : EngIx := 0;
    let d : DieIx := 0;
    let c : CellIx := 0;
    let i : Issue := issueOf (fieldPanel [0]);
    (s.cell e.val d.val c.val).issue = some i ∧
      i.todo SlotUnit.s = true ∧
        unitOpc (s.curSlot e.val d.val c.val) SlotUnit.s = 26 ∧
          behindScalar i (s.curSlot e.val d.val c.val) SlotUnit.s = false) ∧
    (let s : State := st04 63;
    let e : EngIx := 0;
    let d : DieIx := 0;
    let c : CellIx := 0;
    let i : Issue := issueOf (fieldPanel [0]);
    (s.cell e.val d.val c.val).issue = some i ∧
      i.todo SlotUnit.s = true ∧
        unitOpc (s.curSlot e.val d.val c.val) SlotUnit.s = 28 ∧
          behindScalar i (s.curSlot e.val d.val c.val) SlotUnit.s = false) ∧
    (let s : State := st04 65;
    let e : EngIx := 0;
    let d : DieIx := 0;
    let c : CellIx := 0;
    let i : Issue := issueOf (fieldPanel [0]);
    (s.cell e.val d.val c.val).issue = some i ∧
      i.todo SlotUnit.s = true ∧
        unitOpc (s.curSlot e.val d.val c.val) SlotUnit.s = 30 ∧
          behindScalar i (s.curSlot e.val d.val c.val) SlotUnit.s = false) ∧
    (let s : State := st04 66;
    let e : EngIx := 0;
    let d : DieIx := 0;
    let c : CellIx := 0;
    let i : Issue := issueOf (fieldPanel [0]);
    (s.cell e.val d.val c.val).issue = some i ∧
      i.todo SlotUnit.s = true ∧
        unitOpc (s.curSlot e.val d.val c.val) SlotUnit.s = 31 ∧
          behindScalar i (s.curSlot e.val d.val c.val) SlotUnit.s = false) := by
  refine ⟨?_, ?_, ?_, ?_, ?_, ?_, ?_, ?_, ?_, ?_, ?_, ?_, ?_, ?_, ?_, ?_, ?_, ?_, ?_, ?_, ?_, ?_, ?_, ?_, ?_, ?_, ?_, ?_, ?_, ?_⟩ <;> decide +kernel

theorem witness_VectorFieldsComplete :
    (let s : State := st04 16;
    let e : EngIx := 0;
    let d : DieIx := 0;
    let c : CellIx := 0;
    let i : Issue := issueOf (fieldPanel [0]);
    (s.cell e.val d.val c.val).issue = some i ∧
      i.todo SlotUnit.v = true ∧
        unitOpc (s.curSlot e.val d.val c.val) SlotUnit.v = 2 ∧
          behindScalar i (s.curSlot e.val d.val c.val) SlotUnit.v = false) ∧
    (let s : State := st04 17;
    let e : EngIx := 0;
    let d : DieIx := 0;
    let c : CellIx := 0;
    let i : Issue := issueOf (fieldPanel [0]);
    (s.cell e.val d.val c.val).issue = some i ∧
      i.todo SlotUnit.v = true ∧
        unitOpc (s.curSlot e.val d.val c.val) SlotUnit.v = 3 ∧
          behindScalar i (s.curSlot e.val d.val c.val) SlotUnit.v = false) ∧
    (let s : State := st04 18;
    let e : EngIx := 0;
    let d : DieIx := 0;
    let c : CellIx := 0;
    let i : Issue := issueOf (fieldPanel [0]);
    (s.cell e.val d.val c.val).issue = some i ∧
      i.todo SlotUnit.v = true ∧
        unitOpc (s.curSlot e.val d.val c.val) SlotUnit.v = 4 ∧
          behindScalar i (s.curSlot e.val d.val c.val) SlotUnit.v = false) ∧
    (let s : State := st04 19;
    let e : EngIx := 0;
    let d : DieIx := 0;
    let c : CellIx := 0;
    let i : Issue := issueOf (fieldPanel [0]);
    (s.cell e.val d.val c.val).issue = some i ∧
      i.todo SlotUnit.v = true ∧
        unitOpc (s.curSlot e.val d.val c.val) SlotUnit.v = 5 ∧
          behindScalar i (s.curSlot e.val d.val c.val) SlotUnit.v = false) ∧
    (let s : State := st04 26;
    let e : EngIx := 0;
    let d : DieIx := 0;
    let c : CellIx := 0;
    let i : Issue := issueOf (fieldPanel [0]);
    (s.cell e.val d.val c.val).issue = some i ∧
      i.todo SlotUnit.v = true ∧
        unitOpc (s.curSlot e.val d.val c.val) SlotUnit.v = 12 ∧
          behindScalar i (s.curSlot e.val d.val c.val) SlotUnit.v = false) ∧
    (let s : State := st04 27;
    let e : EngIx := 0;
    let d : DieIx := 0;
    let c : CellIx := 0;
    let i : Issue := issueOf (fieldPanel [0]);
    (s.cell e.val d.val c.val).issue = some i ∧
      i.todo SlotUnit.v = true ∧
        unitOpc (s.curSlot e.val d.val c.val) SlotUnit.v = 13 ∧
          behindScalar i (s.curSlot e.val d.val c.val) SlotUnit.v = false) ∧
    (let s : State := st04 15;
    let e : EngIx := 0;
    let d : DieIx := 0;
    let c : CellIx := 0;
    let i : Issue := issueOf (fieldPanel [0]);
    (s.cell e.val d.val c.val).issue = some i ∧
      i.todo SlotUnit.v = true ∧
        unitOpc (s.curSlot e.val d.val c.val) SlotUnit.v = 1 ∧
          behindScalar i (s.curSlot e.val d.val c.val) SlotUnit.v = false) ∧
    (let s : State := st04 20;
    let e : EngIx := 0;
    let d : DieIx := 0;
    let c : CellIx := 0;
    let i : Issue := issueOf (fieldPanel [0]);
    (s.cell e.val d.val c.val).issue = some i ∧
      i.todo SlotUnit.v = true ∧
        unitOpc (s.curSlot e.val d.val c.val) SlotUnit.v = 6 ∧
          behindScalar i (s.curSlot e.val d.val c.val) SlotUnit.v = false) ∧
    (let s : State := st04 21;
    let e : EngIx := 0;
    let d : DieIx := 0;
    let c : CellIx := 0;
    let i : Issue := issueOf (fieldPanel [0]);
    (s.cell e.val d.val c.val).issue = some i ∧
      i.todo SlotUnit.v = true ∧
        unitOpc (s.curSlot e.val d.val c.val) SlotUnit.v = 7 ∧
          behindScalar i (s.curSlot e.val d.val c.val) SlotUnit.v = false) ∧
    (let s : State := st04 22;
    let e : EngIx := 0;
    let d : DieIx := 0;
    let c : CellIx := 0;
    let i : Issue := issueOf (fieldPanel [0]);
    (s.cell e.val d.val c.val).issue = some i ∧
      i.todo SlotUnit.v = true ∧
        unitOpc (s.curSlot e.val d.val c.val) SlotUnit.v = 8 ∧
          behindScalar i (s.curSlot e.val d.val c.val) SlotUnit.v = false) ∧
    (let s : State := st04 23;
    let e : EngIx := 0;
    let d : DieIx := 0;
    let c : CellIx := 0;
    let i : Issue := issueOf (fieldPanel [0]);
    (s.cell e.val d.val c.val).issue = some i ∧
      i.todo SlotUnit.v = true ∧
        unitOpc (s.curSlot e.val d.val c.val) SlotUnit.v = 9 ∧
          behindScalar i (s.curSlot e.val d.val c.val) SlotUnit.v = false) ∧
    (let s : State := st04 24;
    let e : EngIx := 0;
    let d : DieIx := 0;
    let c : CellIx := 0;
    let i : Issue := issueOf (fieldPanel [0]);
    (s.cell e.val d.val c.val).issue = some i ∧
      i.todo SlotUnit.v = true ∧
        unitOpc (s.curSlot e.val d.val c.val) SlotUnit.v = 10 ∧
          behindScalar i (s.curSlot e.val d.val c.val) SlotUnit.v = false) ∧
    (let s : State := st04 25;
    let e : EngIx := 0;
    let d : DieIx := 0;
    let c : CellIx := 0;
    let i : Issue := issueOf (fieldPanel [0]);
    (s.cell e.val d.val c.val).issue = some i ∧
      i.todo SlotUnit.v = true ∧
        unitOpc (s.curSlot e.val d.val c.val) SlotUnit.v = 11 ∧
          behindScalar i (s.curSlot e.val d.val c.val) SlotUnit.v = false) ∧
    (let s : State := st04 28;
    let e : EngIx := 0;
    let d : DieIx := 0;
    let c : CellIx := 0;
    let i : Issue := issueOf (fieldPanel [0]);
    (s.cell e.val d.val c.val).issue = some i ∧
      i.todo SlotUnit.v = true ∧
        unitOpc (s.curSlot e.val d.val c.val) SlotUnit.v = 16 ∧
          behindScalar i (s.curSlot e.val d.val c.val) SlotUnit.v = false) ∧
    (let s : State := st04 29;
    let e : EngIx := 0;
    let d : DieIx := 0;
    let c : CellIx := 0;
    let i : Issue := issueOf (fieldPanel [0]);
    (s.cell e.val d.val c.val).issue = some i ∧
      i.todo SlotUnit.v = true ∧
        unitOpc (s.curSlot e.val d.val c.val) SlotUnit.v = 17 ∧
          behindScalar i (s.curSlot e.val d.val c.val) SlotUnit.v = false) ∧
    (let s : State := st04 30;
    let e : EngIx := 0;
    let d : DieIx := 0;
    let c : CellIx := 0;
    let i : Issue := issueOf (fieldPanel [0]);
    (s.cell e.val d.val c.val).issue = some i ∧
      i.todo SlotUnit.v = true ∧
        unitOpc (s.curSlot e.val d.val c.val) SlotUnit.v = 18 ∧
          behindScalar i (s.curSlot e.val d.val c.val) SlotUnit.v = false) ∧
    (let s : State := st04 31;
    let e : EngIx := 0;
    let d : DieIx := 0;
    let c : CellIx := 0;
    let i : Issue := issueOf (fieldPanel [0]);
    (s.cell e.val d.val c.val).issue = some i ∧
      i.todo SlotUnit.v = true ∧
        unitOpc (s.curSlot e.val d.val c.val) SlotUnit.v = 19 ∧
          behindScalar i (s.curSlot e.val d.val c.val) SlotUnit.v = false) ∧
    (let x : Word := 2147483649#32;
    let m : Nat := 1;
    let k : Int := -149;
    fp x = Val.fin true m k ∧ m ≠ 0) ∧
    (let x : Word := 2143289344#32;
    fp x = Val.nan) ∧
    (let z : Bool := false;
    let a : Word := 0#32;
    let k : Int := -149;
    fp a = Val.fin z 0 k) ∧
    (let x : Word := 0#32;
    let y : Word := 2143289344#32;
    fp x = Val.nan ∨ fp y = Val.nan) := by
  refine ⟨?_, ?_, ?_, ?_, ?_, ?_, ?_, ?_, ?_, ?_, ?_, ?_, ?_, ?_, ?_, ?_, ?_, ?_, ?_, ?_, ?_⟩ <;> decide +kernel

/-! ### The fabric (05_switch_fabric) -/

/-- A cell record with a route of the vector network. -/
def routeRec (vr : Nat) : List Byte := leBytes 2 0 ++ leBytes 2 0xFFFF ++ leBytes 2 0xFFFF ++ leBytes 10 0 ++ leBytes 8 vr ++ leBytes 24 0

/-- Die 0 with buffers of cells 0, 32 and 833 filled, a steering unit in a mode with its token, and inputs A and B or not. -/
def fabPanel (mode tok : Nat) (fed : Bool) (quiet age : Bool := false) : State :=
  let v := 0xB587 + mode * 2 ^ 52
  let secs : List Section := [⟨5, 0, 0, routeRec v⟩, ⟨5, 0, 1, routeRec v ++ routeRec v⟩, ⟨2, 0xFF, 0xFF, leBytes 16 0 ++ leBytes 2 1 ++ leBytes 30 0⟩]
  let s := panel.onEng 0 fun g => { g with canvas := { g.canvas with secs := secs } }
  let x : FEntry := ⟨9, false⟩
  let ins := fun n : Nat => if fed then [(12 + n, ({ base := [x] } : Queue))] else []
  let s := s.onFab 0 0 fun f => { f with bufs := [(4, [x]), (5, [x]), (11, [x]), (1547, [x]), (39995, [x])], queues := ins 0 ++ ins 1 ++ [(14, { base := [⟨tok, false⟩] })], bitQuiet := quiet, bitAge := age }
  put s [(Reg.FAB_WDOG 0 0, Fld.FAB_WDOG.ENABLE, 1), (Reg.FAB_FAULT 0 0, Fld.FAB_FAULT.STALL_QUIET, 1)]

/-- The states for the fabric. -/
def st05 : Nat → State
  | 0 => fabPanel 1 0 true
  | 1 => fabPanel 2 0 true
  | 2 => fabPanel 2 1 true
  | 3 => fabPanel 3 0 true
  | 4 => fabPanel 3 1 true
  | 5 => fabPanel 3 2 true
  | 6 => fabPanel 3 7 true
  | 7 => fabPanel 1 0 false
  | _ => fabPanel 1 0 true true true

theorem witness_FabricEntryHops :
    (let s : State := st05 0;
    let e : EngIx := 0;
    let d : DieIx := 0;
    let c : CellIx := 0;
    let net : NetIx := 0;
    let pt : Fin 12 := 4;
    Option.any
        (fun (x : FEntry) =>
          decide
            (Option.any
                (fun (y : Nat × List Dest) =>
                  decide
                    (let c' : Nat := y.fst;
                    let ds : List Dest := y.snd;
                    pt.val ≠ 11 ∧
                      ds ≠ [] ∧ ∀ (y : Dest), y ∈ ds → s.destRoom e.val d.val c' net.val y = true))
                (s.branches e.val d.val c.val net.val pt.val) =
              true))
        (s.buf e.val d.val c.val net.val pt.val).head? =
      true) ∧
    (let s : State := st05 0;
    let e : EngIx := 0;
    let d : DieIx := 0;
    let c : CellIx := 833;
    let net : NetIx := 0;
    let pt : Fin 12 := 11;
    Option.any
        (fun (x : FEntry) =>
          decide
            (Option.any
                (fun (y : Nat × Nat ⊕ Nat × Nat) =>
                  decide
                    (Option.any
                        (fun (y : Nat × Nat) =>
                          decide (pt.val = 11 ∧ s.canCross e.val d.val c.val net.val = true))
                        y.getLeft? =
                      true))
                (crossing d.val c.val) =
              true))
        (s.buf e.val d.val c.val net.val pt.val).head? =
      true) ∧
    (let s : State := st05 0;
    let e : EngIx := 0;
    let d : DieIx := 0;
    let c : CellIx := 0;
    let net : NetIx := 0;
    let pt : Fin 12 := 5;
    Option.any
        (fun (x : FEntry) =>
          decide (pt.val ≠ 11 ∧ s.canHop e.val d.val c.val net.val pt.val = false))
        (s.buf e.val d.val c.val net.val pt.val).head? =
      true) ∧
    (let s : State := st05 0;
    let e : EngIx := 0;
    let d : DieIx := 0;
    let c : CellIx := 0;
    let net : NetIx := 0;
    let pt : Fin 12 := 11;
    Option.any
        (fun (x : FEntry) => decide (pt.val = 11 ∧ s.canCross e.val d.val c.val net.val = false))
        (s.buf e.val d.val c.val net.val pt.val).head? =
      true) ∧
    (let s : State := st05 0;
    let e : EngIx := 0;
    let d : DieIx := 0;
    let c : CellIx := 32;
    let net : NetIx := 0;
    let pt : Fin 12 := 11;
    Option.any
        (fun (x : FEntry) =>
          decide
            (Option.any
                (fun (y : Nat × Nat ⊕ Nat × Nat) =>
                  decide
                    (Option.any
                        (fun (y : Nat × Nat) =>
                          decide (pt.val = 11 ∧ s.canCross e.val d.val c.val net.val = true))
                        y.getRight? =
                      true))
                (crossing d.val c.val) =
              true))
        (s.buf e.val d.val c.val net.val pt.val).head? =
      true) := by
  refine ⟨?_, ?_, ?_, ?_, ?_⟩ <;> decide +kernel

theorem witness_SteeringPlansAndFires :
    (let s : State := st05 0;
    let e : Nat := 0;
    let d : Nat := 0;
    let c : Nat := 0;
    let u : Nat := 0;
    Option.any
        (fun (t : FEntry) =>
          decide
            (let a : List FEntry := (s.queue e d c (steerA u)).base;
            let b : List FEntry := (s.queue e d c (steerA u + 1)).base;
            let room : Nat → Prop := fun (o : Nat) =>
              (s.buf e d c (steerNet u) (6 + 2 * (u % 2) + o)).length < 2 ∧
                fedBy ((s.prog e d c).route (steerNet u)) (steerNet u) (7 + 2 * (u % 2) + o) ≠ [];
            s.steerMode e d c u = 1 ∧ a ≠ [] ∧ b ≠ [] ∧ room 0))
        (s.queue e d c (steerA u + 2)).base.head? =
      true) ∧
    (let s : State := st05 1;
    let e : Nat := 0;
    let d : Nat := 0;
    let c : Nat := 0;
    let u : Nat := 0;
    Option.any
        (fun (t : FEntry) =>
          decide
            (let a : List FEntry := (s.queue e d c (steerA u)).base;
            let room : Nat → Prop := fun (o : Nat) =>
              (s.buf e d c (steerNet u) (6 + 2 * (u % 2) + o)).length < 2 ∧
                fedBy ((s.prog e d c).route (steerNet u)) (steerNet u) (7 + 2 * (u % 2) + o) ≠ [];
            s.steerMode e d c u = 2 ∧ t.data % 2 = 0 ∧ a ≠ [] ∧ room 0))
        (s.queue e d c (steerA u + 2)).base.head? =
      true) ∧
    (let s : State := st05 2;
    let e : Nat := 0;
    let d : Nat := 0;
    let c : Nat := 0;
    let u : Nat := 0;
    Option.any
        (fun (t : FEntry) =>
          decide
            (let b : List FEntry := (s.queue e d c (steerA u + 1)).base;
            let room : Nat → Prop := fun (o : Nat) =>
              (s.buf e d c (steerNet u) (6 + 2 * (u % 2) + o)).length < 2 ∧
                fedBy ((s.prog e d c).route (steerNet u)) (steerNet u) (7 + 2 * (u % 2) + o) ≠ [];
            s.steerMode e d c u = 2 ∧ t.data % 2 = 1 ∧ b ≠ [] ∧ room 0))
        (s.queue e d c (steerA u + 2)).base.head? =
      true) ∧
    (let s : State := st05 3;
    let e : Nat := 0;
    let d : Nat := 0;
    let c : Nat := 0;
    let u : Nat := 0;
    Option.any
        (fun (t : FEntry) =>
          decide
            (let a : List FEntry := (s.queue e d c (steerA u)).base;
            s.steerMode e d c u = 3 ∧ t.data % 4 = 0 ∧ a ≠ []))
        (s.queue e d c (steerA u + 2)).base.head? =
      true) ∧
    (let s : State := st05 4;
    let e : Nat := 0;
    let d : Nat := 0;
    let c : Nat := 0;
    let u : Nat := 0;
    Option.any
        (fun (t : FEntry) =>
          decide
            (let a : List FEntry := (s.queue e d c (steerA u)).base;
            let room : Nat → Prop := fun (o : Nat) =>
              (s.buf e d c (steerNet u) (6 + 2 * (u % 2) + o)).length < 2 ∧
                fedBy ((s.prog e d c).route (steerNet u)) (steerNet u) (7 + 2 * (u % 2) + o) ≠ [];
            s.steerMode e d c u = 3 ∧ t.data % 4 = 1 ∧ a ≠ [] ∧ room 0))
        (s.queue e d c (steerA u + 2)).base.head? =
      true) ∧
    (let s : State := st05 5;
    let e : Nat := 0;
    let d : Nat := 0;
    let c : Nat := 0;
    let u : Nat := 0;
    Option.any
        (fun (t : FEntry) =>
          decide
            (let a : List FEntry := (s.queue e d c (steerA u)).base;
            let room : Nat → Prop := fun (o : Nat) =>
              (s.buf e d c (steerNet u) (6 + 2 * (u % 2) + o)).length < 2 ∧
                fedBy ((s.prog e d c).route (steerNet u)) (steerNet u) (7 + 2 * (u % 2) + o) ≠ [];
            s.steerMode e d c u = 3 ∧ t.data % 4 = 2 ∧ a ≠ [] ∧ room 1))
        (s.queue e d c (steerA u + 2)).base.head? =
      true) ∧
    (let s : State := st05 6;
    let e : Nat := 0;
    let d : Nat := 0;
    let c : Nat := 0;
    let u : Nat := 0;
    Option.any
        (fun (t : FEntry) =>
          decide
            (let a : List FEntry := (s.queue e d c (steerA u)).base;
            let room : Nat → Prop := fun (o : Nat) =>
              (s.buf e d c (steerNet u) (6 + 2 * (u % 2) + o)).length < 2 ∧
                fedBy ((s.prog e d c).route (steerNet u)) (steerNet u) (7 + 2 * (u % 2) + o) ≠ [];
            s.steerMode e d c u = 3 ∧ t.data % 4 = 3 ∧ a ≠ [] ∧ room 0 ∧ room 1))
        (s.queue e d c (steerA u + 2)).base.head? =
      true) ∧
    (let s : State := st05 7;
    let e : Nat := 0;
    let d : Nat := 0;
    let c : Nat := 0;
    let u : Nat := 0;
    Option.any
        (fun (t : FEntry) =>
          decide
            (let a : List FEntry := (s.queue e d c (steerA u)).base;
            let b : List FEntry := (s.queue e d c (steerA u + 1)).base;
            s.steerMode e d c u ≠ 0 ∧ a = [] ∧ b = []))
        (s.queue e d c (steerA u + 2)).base.head? =
      true) ∧
    (let s : State := st05 0;
    let e : EngIx := 0;
    let d : DieIx := 0;
    let c : CellIx := 0;
    let u : Fin 4 := 0;
    Option.any
        (fun (y : Bool × Bool × List Nat × Nat) =>
          decide
            (let takeA : Bool := y.fst;
            let takeB : Bool := y.snd.fst;
            let outs : List Nat := y.snd.snd.fst;
            let pick : Nat := y.snd.snd.snd;
            let r : State × Option FEntry :=
              if takeA = true then s.queueTake e.val d.val c.val (steerA u.val) else (s, none);
            let s1 : State := r.fst;
            let a : Option FEntry := r.snd;
            let r : State × Option FEntry :=
              if takeB = true then s1.queueTake e.val d.val c.val (steerA u.val + 1) else (s1, none);
            let s2 : State := r.fst;
            let b : Option FEntry := r.snd;
            Option.any
                (fun (x : FEntry) =>
                  decide
                    (let s3 : State := s2.steerPut e.val d.val c.val u.val x outs;
                    let tk : Nat := c.val * 4 + u.val;
                    Option.any
                        (fun (t : FEntry) =>
                          decide
                            (let left : Nat :=
                              (SMap.find? (s3.fab e.val d.val).toks tk).getD (t.data / 4 % 64 + 1);
                            left ≤ 1))
                        (s3.queue e.val d.val c.val (steerA u.val + 2)).base.head? =
                      true))
                (if pick = 0 then a else b) =
              true))
        (s.steerPlan e.val d.val c.val u.val) =
      true) ∧
    (let s : State := st05 6;
    let e : EngIx := 0;
    let d : DieIx := 0;
    let c : CellIx := 0;
    let u : Fin 4 := 0;
    Option.any
        (fun (y : Bool × Bool × List Nat × Nat) =>
          decide
            (let takeA : Bool := y.fst;
            let takeB : Bool := y.snd.fst;
            let outs : List Nat := y.snd.snd.fst;
            let pick : Nat := y.snd.snd.snd;
            let r : State × Option FEntry :=
              if takeA = true then s.queueTake e.val d.val c.val (steerA u.val) else (s, none);
            let s1 : State := r.fst;
            let a : Option FEntry := r.snd;
            let r : State × Option FEntry :=
              if takeB = true then s1.queueTake e.val d.val c.val (steerA u.val + 1) else (s1, none);
            let s2 : State := r.fst;
            let b : Option FEntry := r.snd;
            Option.any
                (fun (x : FEntry) =>
                  decide
                    (let s3 : State := s2.steerPut e.val d.val c.val u.val x outs;
                    let tk : Nat := c.val * 4 + u.val;
                    Option.any
                        (fun (t : FEntry) =>
                          decide
                            (let left : Nat :=
                              (SMap.find? (s3.fab e.val d.val).toks tk).getD (t.data / 4 % 64 + 1);
                            1 < left))
                        (s3.queue e.val d.val c.val (steerA u.val + 2)).base.head? =
                      true))
                (if pick = 0 then a else b) =
              true))
        (s.steerPlan e.val d.val c.val u.val) =
      true) := by
  refine ⟨?_, ?_, ?_, ?_, ?_, ?_, ?_, ?_, ?_, ?_⟩ <;> decide +kernel

theorem witness_StallWatchdogBitesOnce :
    (let s : State := st05 0;
    let e : EngIx := 0;
    let d : DieIx := 0;
    Option.any
        (fun (y : Nat × Nat × Nat) =>
          decide
            (s.flag (Reg.FAB_WDOG e.val (s.posOf e.val d.val)) Fld.FAB_WDOG.ENABLE = true ∧
              (s.fab e.val d.val).bitQuiet = false))
        (s.firstBlocked e.val d.val) =
      true) ∧
    (let s : State := st05 0;
    let e : EngIx := 0;
    let d : DieIx := 0;
    Option.any
        (fun (y : Nat × Nat × Nat) =>
          decide
            (s.flag (Reg.FAB_WDOG e.val (s.posOf e.val d.val)) Fld.FAB_WDOG.ENABLE = true ∧
              (s.fab e.val d.val).bitAge = false))
        (s.firstBlocked e.val d.val) =
      true) ∧
    (let s : State := st05 8;
    let e : EngIx := 0;
    let d : DieIx := 0;
    (s.fab e.val d.val).bitQuiet = true) ∧
    (let s : State := st05 8;
    let e : EngIx := 0;
    let d : DieIx := 0;
    (s.fab e.val d.val).bitAge = true) ∧
    (let s : State := st05 0;
    let e : EngIx := 0;
    let r : Req := Req.host 0 0;
    let m : PosIx := 0;
    let v : Word := 0#32;
    (s.gate r (Reg.FAB_FAULT e.val m.val) (BitVec.toNat v)).snd = true ∧
      let s1 : State :=
        (entered s r (Reg.FAB_FAULT e.val m.val) (BitVec.toNat v)).plainWrite
          (Reg.FAB_FAULT e.val m.val) (BitVec.toNat v);
      (s1.dieAt e.val m.val).isSome = true) := by
  refine ⟨?_, ?_, ?_, ?_, ?_⟩ <;> decide +kernel

/-! ### Canvases, glazes, standbys (06_canvases_glazes) -/

/-- A plan of two glazes: glaze 0 for three runs and glaze 1. -/
def glazeSecs (plan : Bool) : List Section :=
  ⟨1, 0xFF, 0xFF, leBytes 1 2 ++ leBytes 7 0 ++ leBytes 4 0x30000 ++ leBytes 4 0x10001⟩ :: if plan then [planSec] else []

/-- Engine 0 with that plan in canvas state `cv`, at a step with `left` repeats left. -/
def glazePanel (cv : Nat) (plan stuck : Bool) (step left : Nat) (secs : List Section := []) (ended : Bool := false) : State :=
  let s := panel.onEng 0 fun g => { g with canvas := { g.canvas with secs := glazeSecs plan ++ secs, switchStuck := stuck } }
  let s := s.onCell 0 0 0 fun k => { k with ended := ended }
  put s [(Reg.ENG_CANVAS_STATUS 0, Fld.ENG_CANVAS_STATUS.STATE, cv), (Reg.ENG_CANVAS_POS 0, Fld.ENG_CANVAS_POS.REPEAT_LEFT, left),
    (Reg.ENG_CANVAS_POS 0, Fld.ENG_CANVAS_POS.STEP, step)]

/-- The same with an entry in the first queue of a cell that extends that queue in glaze 0 only. -/
def clashPanel : State :=
  let cell := leBytes 4 0xFFFFFFFF ++ leBytes 44 0
  (glazePanel Cv.RUNNING false false 0 0 [⟨5, 0, 0, cell⟩, ⟨4, 0xFF, 0xFF, leBytes 16 0 ++ leBytes 96 1⟩] true).onFab 0 0 fun f => { f with queues := [(0, { base := [⟨1, false⟩] })] }

/-- Engine 0, covered by engine 1 of the same canvas or another, with what engine 1 has been told. -/
def standbyPanel (same ask : Bool) (cv : Nat) (notices : List Nat) (commits : SMap CovSlot) (adopted : Option Nat) (copies : SMap Nat) : State :=
  let secs : List Section := [⟨0xC, 0xFF, 0xFF, leBytes 8 0x10000 ++ leBytes 4 4096 ++ leBytes 4 1 ++ leBytes 8 SPE ++ leBytes 8 4096⟩]
  let s := { panel with limit := 16, armCopies := copies }.onEng 0 fun g => { g with canvas := { g.canvas with secs := secs, digest := [1] }, armAsk := ask }
  let s := s.onEng 1 fun _ => { up := true, canvas := { secs := secs, digest := if same then [1] else [2] }, notices := notices, commits := commits, adopted := adopted }
  put s (serveRegs 1 ++ [(Reg.ENG_CANVAS_STATUS 1, Fld.ENG_CANVAS_STATUS.STATE, cv), (Reg.ENG_STBY_ARM 0, Fld.ENG_STBY_ARM.STANDBY_ENG, 1),
    (Reg.ENG_STBY_COVER 1 0, ⟨15, 0⟩, 0xF), (Reg.ENG_STBY_AREA 1, Fld.ENG_STBY_AREA.AREA_BLK, 1)])

/-- Engine 0 in a VARNISH phase. -/
def varnishPanel : State :=
  let s := panel.onEng 0 fun g => { g with canvas := { g.canvas with secs := [planSec 1000 [(0, 4)]] }, sched := { n := 1 } }
  put s [(Reg.CAD_ENG_PHASE 0, Fld.CAD_ENG_PHASE.PLAN, 1)]

/-- The states for canvases and standbys. -/
def st06 : Nat → State
  | 0 => glazePanel Cv.EMPTY false false 0 0
  | 1 => glazePanel Cv.READY false false 0 0
  | 2 => glazePanel Cv.READY true false 0 0
  | 3 => glazePanel Cv.RUNNING false false 0 2
  | 4 => glazePanel Cv.RUNNING false true 0 2
  | 5 => glazePanel Cv.RUNNING false false 1 0
  | 6 => glazePanel Cv.STOPPING false false 0 2
  | 7 => clashPanel
  | 8 => standbyPanel true true Cv.STANDBY [0] [(0, ⟨1, 7⟩)] none [(0, 1)]
  | 9 => standbyPanel false true Cv.STANDBY [0] [] none [(0, 1)]
  | 10 => standbyPanel true false Cv.ACTIVATING [] [] (some 0) []
  | _ => varnishPanel

theorem witness_CanvasStartsStopsAndLoads :
    (let s : State := st06 0;
    let r : Req := Req.host 0 0;
    let e : EngIx := 0;
    let standby : Bool := false;
    let v : Nat := if standby = true then 17 else 1;
    let a : State := entered s r (Reg.ENG_CANVAS_CTRL e.val) v;
    (s.gate r (Reg.ENG_CANVAS_CTRL e.val) v).snd = true ∧
      (a.cvState e.val = Cv.EMPTY ∨ a.cvState e.val = Cv.READY ∨ a.cvState e.val = Cv.DONE) ∧
        let d : Nat := 0;
        d < 4) ∧
    (let s : State := st06 3;
    let r : Req := Req.host 0 0;
    let e : EngIx := 0;
    let standby : Bool := false;
    let v : Nat := if standby = true then 17 else 1;
    let a : State := entered s r (Reg.ENG_CANVAS_CTRL e.val) v;
    (s.gate r (Reg.ENG_CANVAS_CTRL e.val) v).snd = true ∧
      ¬(a.cvState e.val = Cv.EMPTY ∨ a.cvState e.val = Cv.READY ∨ a.cvState e.val = Cv.DONE)) ∧
    (let s : State := st06 0;
    let r : Req := Req.host 0 0;
    let e : EngIx := 0;
    let ctrl : Nat := Reg.ENG_CANVAS_CTRL e.val;
    let at' : Nat → List Nat → Prop := fun (v : Nat) (l : List Nat) => (entered s r ctrl v).cvState e.val ∈ l;
    (s.gate r ctrl 2).snd = true ∧ ¬at' 2 [Cv.READY, Cv.DONE]) ∧
    (let s : State := st06 0;
    let r : Req := Req.host 0 0;
    let e : EngIx := 0;
    let ctrl : Nat := Reg.ENG_CANVAS_CTRL e.val;
    let at' : Nat → List Nat → Prop := fun (v : Nat) (l : List Nat) => (entered s r ctrl v).cvState e.val ∈ l;
    (s.gate r ctrl 4).snd = true ∧ ¬at' 4 [Cv.RUNNING]) ∧
    (let s : State := st06 0;
    let r : Req := Req.host 0 0;
    let e : EngIx := 0;
    let ctrl : Nat := Reg.ENG_CANVAS_CTRL e.val;
    let at' : Nat → List Nat → Prop := fun (v : Nat) (l : List Nat) => (entered s r ctrl v).cvState e.val ∈ l;
    (s.gate r ctrl 8).snd = true ∧ at' 8 [Cv.EMPTY]) ∧
    (let s : State := st06 3;
    let r : Req := Req.host 0 0;
    let e : EngIx := 0;
    let ctrl : Nat := Reg.ENG_CANVAS_CTRL e.val;
    let at' : Nat → List Nat → Prop := fun (v : Nat) (l : List Nat) => (entered s r ctrl v).cvState e.val ∈ l;
    (s.gate r ctrl 8).snd = true ∧ ¬at' 8 [Cv.EMPTY, Cv.READY, Cv.DONE, Cv.STANDBY]) ∧
    (let s : State := st06 0;
    let r : Req := Req.host 0 0;
    let e : EngIx := 0;
    let ctrl : Nat := Reg.ENG_CANVAS_CTRL e.val;
    let off : Fin 268435456 := 16779268;
    let v : Word64 := 3#64;
    off.val = ctrl ∧
      (∀ (q : HostIx) (f : FnIx), r = Req.host q f → f.val = 0) ∧
        (s.gate r ctrl (BitVec.toNat v % 2 ^ 32)).snd = true ∧ ¬BitVec.toNat v % 16 ∈ [0, 1, 2, 4, 8]) ∧
    (let s : State := st06 6;
    let e : EngIx := 0;
    s.cvState e.val = Cv.STOPPING ∧
      s.cellsRun e.val = true ∧
        (s.eng e.val).canvas.switchStuck = false ∧ s.delivered e.val = true ∧ s.allEnded e.val = true) ∧
    (let s : State := st06 1;
    let r : Req := Req.host 0 0;
    let e : EngIx := 0;
    let ctrl : Nat := Reg.ENG_CANVAS_CTRL e.val;
    let at' : Nat → List Nat → Prop := fun (v : Nat) (l : List Nat) => (entered s r ctrl v).cvState e.val ∈ l;
    (s.gate r ctrl 2).snd = true ∧ at' 2 [Cv.READY, Cv.DONE] ∧ (s.plan e.val).isNone = true) ∧
    (let s : State := st06 1;
    let r : Req := Req.host 0 0;
    let e : EngIx := 0;
    let ctrl : Nat := Reg.ENG_CANVAS_CTRL e.val;
    let at' : Nat → List Nat → Prop := fun (v : Nat) (l : List Nat) => (entered s r ctrl v).cvState e.val ∈ l;
    (s.gate r ctrl 8).snd = true ∧ at' 8 [Cv.READY, Cv.DONE, Cv.STANDBY]) ∧
    (let s : State := st06 2;
    let r : Req := Req.host 0 0;
    let e : EngIx := 0;
    let ctrl : Nat := Reg.ENG_CANVAS_CTRL e.val;
    let at' : Nat → List Nat → Prop := fun (v : Nat) (l : List Nat) => (entered s r ctrl v).cvState e.val ∈ l;
    (s.gate r ctrl 2).snd = true ∧ at' 2 [Cv.READY, Cv.DONE] ∧ (s.plan e.val).isSome = true) ∧
    (let s : State := st06 3;
    let r : Req := Req.host 0 0;
    let e : EngIx := 0;
    let ctrl : Nat := Reg.ENG_CANVAS_CTRL e.val;
    let at' : Nat → List Nat → Prop := fun (v : Nat) (l : List Nat) => (entered s r ctrl v).cvState e.val ∈ l;
    (s.gate r ctrl 4).snd = true ∧ at' 4 [Cv.RUNNING]) ∧
    (let s : State := st06 8;
    let r : Req := Req.host 0 0;
    let e : EngIx := 1;
    let ctrl : Nat := Reg.ENG_CANVAS_CTRL e.val;
    let at' : Nat → List Nat → Prop := fun (v : Nat) (l : List Nat) => (entered s r ctrl v).cvState e.val ∈ l;
    (s.gate r ctrl 8).snd = true ∧
      at' 8 [Cv.READY, Cv.DONE, Cv.STANDBY] ∧
        at' 8 [Cv.STANDBY] ∧
          let x : EngIx := 0;
          SMap.find? s.armCopies x.val = some e.val) := by
  refine ⟨?_, ?_, ?_, ?_, ?_, ?_, ?_, ?_, ?_, ?_, ?_, ?_, ?_⟩ <;> decide +kernel

theorem witness_GlazeSwitchesToTheNextRun :
    (let s : State := st06 3;
    let e : EngIx := 0;
    let cv : Canvas := (s.eng e.val).canvas;
    let step : Nat := s.fld (Reg.ENG_CANVAS_POS e.val) Fld.ENG_CANVAS_POS.STEP;
    let left : Nat := s.fld (Reg.ENG_CANVAS_POS e.val) Fld.ENG_CANVAS_POS.REPEAT_LEFT;
    let g' : Nat := if left ≠ 0 then s.glaze e.val else (cv.step (step + 1)).fst;
    s.cellsRun e.val = true ∧
      cv.switchStuck = false ∧
        s.delivered e.val = true ∧
          s.allEnded e.val = true ∧
            s.cvState e.val = Cv.RUNNING ∧
              (left ≠ 0 ∨ step + 1 < cv.steps) ∧ (s.queueCheck e.val (s.glaze e.val) g').snd = true) ∧
    (let s : State := st06 5;
    let e : EngIx := 0;
    let cv : Canvas := (s.eng e.val).canvas;
    let step : Nat := s.fld (Reg.ENG_CANVAS_POS e.val) Fld.ENG_CANVAS_POS.STEP;
    let left : Nat := s.fld (Reg.ENG_CANVAS_POS e.val) Fld.ENG_CANVAS_POS.REPEAT_LEFT;
    s.cellsRun e.val = true ∧
      cv.switchStuck = false ∧
        s.delivered e.val = true ∧
          s.allEnded e.val = true ∧
            (s.cvState e.val = Cv.STOPPING ∨
              s.cvState e.val = Cv.RUNNING ∧ left = 0 ∧ cv.steps ≤ step + 1 ∧ s.plan e.val = none)) ∧
    (let s : State := st06 7;
    let e : EngIx := 0;
    let cv : Canvas := (s.eng e.val).canvas;
    let step : Nat := s.fld (Reg.ENG_CANVAS_POS e.val) Fld.ENG_CANVAS_POS.STEP;
    let left : Nat := s.fld (Reg.ENG_CANVAS_POS e.val) Fld.ENG_CANVAS_POS.REPEAT_LEFT;
    let g' : Nat := if left ≠ 0 then s.glaze e.val else (cv.step (step + 1)).fst;
    s.cellsRun e.val = true ∧
      cv.switchStuck = false ∧
        s.delivered e.val = true ∧
          s.allEnded e.val = true ∧
            s.cvState e.val = Cv.RUNNING ∧
              (left ≠ 0 ∨ step + 1 < cv.steps) ∧ (s.queueCheck e.val (s.glaze e.val) g').snd = false) := by
  refine ⟨?_, ?_, ?_⟩ <;> decide +kernel

theorem witness_StandbyArmsAndTakesOver :
    (let s : State := st06 0;
    let r : Req := Req.host 0 0;
    let e : EngIx := 0;
    let v : Word := 0#32;
    let n : Fin 2 := 0;
    (s.gate r (Reg.ENG_STBY_COVER e.val n.val) (BitVec.toNat v)).snd = true) ∧
    (let s : State := st06 8;
    let r : Req := Req.host 0 0;
    let e : EngIx := 1;
    let v : Word := 0#32;
    let n : Fin 2 := 0;
    (s.gate r (Reg.ENG_STBY_COVER e.val n.val) (BitVec.toNat v)).snd = true ∧
      let x : EngIx := 0;
      x.val / 32 = n.val ∧
        SMap.find? (entered s r (Reg.ENG_STBY_COVER e.val n.val) (BitVec.toNat v)).armCopies x.val =
            some e.val ∧
          ((entered s r (Reg.ENG_STBY_COVER e.val n.val) (BitVec.toNat v)).plainWrite
                  (Reg.ENG_STBY_COVER e.val n.val) (BitVec.toNat v)).covers
              e.val x.val =
            false) ∧
    (let s : State := st06 0;
    let r : Req := Req.host 0 0;
    let e : EngIx := 0;
    let v : Word := 1#32;
    let arm : Nat := Reg.ENG_STBY_ARM e.val;
    (s.gate r arm (BitVec.toNat v)).snd = true ∧ bit (BitVec.toNat v) 0 = true) ∧
    (let s : State := st06 0;
    let r : Req := Req.host 0 0;
    let e : EngIx := 0;
    let v : Word := 2#32;
    let arm : Nat := Reg.ENG_STBY_ARM e.val;
    (s.gate r arm (BitVec.toNat v)).snd = true ∧ bit (BitVec.toNat v) 0 = false ∧ bit (BitVec.toNat v) 1 = true) ∧
    (let s : State := st06 8;
    let e : EngIx := 0;
    let arm : Nat := Reg.ENG_STBY_ARM e.val;
    let b : Nat := s.fld arm Fld.ENG_STBY_ARM.STANDBY_ENG;
    (s.eng e.val).armAsk = true ∧ s.armCode e.val b = 0) ∧
    (let s : State := st06 9;
    let e : EngIx := 0;
    let arm : Nat := Reg.ENG_STBY_ARM e.val;
    let b : Nat := s.fld arm Fld.ENG_STBY_ARM.STANDBY_ENG;
    (s.eng e.val).armAsk = true ∧ s.armCode e.val b ≠ 0) ∧
    (let s : State := st06 11;
    let e : EngIx := 0;
    s.inVarnish e.val = true) ∧
    (let s : State := st06 8;
    let e : EngIx := 1;
    Option.any
        (fun (x : Nat) =>
          decide
            (Option.any
                (fun (c : CovSlot) => decide (s.cvState e.val = Cv.STANDBY ∧ (s.eng e.val).contained = false))
                (SMap.find? (s.eng e.val).commits x) =
              true))
        (s.noticeOf e.val) =
      true) ∧
    (let s : State := st06 9;
    let e : EngIx := 1;
    Option.any
        (fun (x : Nat) =>
          decide
            (s.cvState e.val = Cv.STANDBY ∧
              (s.eng e.val).contained = false ∧ SMap.find? (s.eng e.val).commits x = none))
        (s.noticeOf e.val) =
      true) ∧
    (let s : State := st06 10;
    let e : EngIx := 1;
    Option.any (fun (x : Nat) => decide (s.cvState e.val = Cv.ACTIVATING)) (s.eng e.val).adopted = true) := by
  refine ⟨?_, ?_, ?_, ?_, ?_, ?_, ?_, ?_, ?_, ?_⟩ <;> decide +kernel

/-! ### Scratchpads (07_scratchpads) -/

/-- Scratchpads with words in every check state, banks in transition and being filled; the cell and die held in reset as the number says. -/
def spadPanel (x : Nat) : State :=
  let bytes : Memory := (List.range 16).map fun i => (i + 4000, BitVec.ofNat 8 (i + 1))
  let sp : Scratch := { bytes := bytes, st := [(3, .ue), (502, .undef), (510, .ce)], zeroed := [(0, true)], wb := [510] }
  let s := panel.onEng 0 fun g => { g with spm := sp, spmBanks := [(1, 2), (2, 1)], spmMoves := [(3, { target := 2 }), (4, { target := 1, held := some 0 }), (6, { target := 0 })], zeroing := [7], spmOff := 0x8000 }
  let s := s.onCell 0 0 0 fun k => { k with sp := sp, banks := [(1, 2)], held := x == 1 }
  let s := s.onFab 0 0 fun f => { f with held := x == 2 }
  put s [(Reg.ENG_SPM_CTRL 0, Fld.ENG_SPM_CTRL.WB_EN, 1)]

/-- The states for scratchpads. -/
def st07 (n : Nat) : State := spadPanel n

theorem witness_EngineBanksChangeAndFill :
    (let s : State := st07 0;
    let r : Req := Req.host 0 0;
    let e : EngIx := 0;
    let v : Word := 0#32;
    let b : Fin 16 := 3;
    (s.gate r (Reg.ENG_SPM_POWER e.val) (BitVec.toNat v)).snd = true ∧
      let a : State := entered s r (Reg.ENG_SPM_POWER e.val) (BitVec.toNat v);
      let c : Nat := bits (BitVec.toNat v) (2 * b.val + 1) (2 * b.val);
      bit (a.eng e.val).spmOff b.val = false ∧
        c ≠ 3 ∧ (SMap.find? (a.eng e.val).spmMoves b.val).isSome = true) ∧
    (let s : State := st07 0;
    let r : Req := Req.host 0 0;
    let e : EngIx := 0;
    let v : Word := 0#32;
    let b : Fin 16 := 1;
    (s.gate r (Reg.ENG_SPM_POWER e.val) (BitVec.toNat v)).snd = true ∧
      let a : State := entered s r (Reg.ENG_SPM_POWER e.val) (BitVec.toNat v);
      let c : Nat := bits (BitVec.toNat v) (2 * b.val + 1) (2 * b.val);
      let cur : Nat := SMap.getD (a.eng e.val).spmBanks b.val 0;
      bit (a.eng e.val).spmOff b.val = false ∧
        c ≠ 3 ∧ SMap.find? (a.eng e.val).spmMoves b.val = none ∧ c ≠ cur ∧ ¬(cur = 2 ∧ c = 1)) ∧
    (let s : State := st07 0;
    let r : Req := Req.host 0 0;
    let e : EngIx := 0;
    let v : Word := 0#32;
    let b : Fin 16 := 0;
    (s.gate r (Reg.ENG_SPM_POWER e.val) (BitVec.toNat v)).snd = true ∧
      let a : State := entered s r (Reg.ENG_SPM_POWER e.val) (BitVec.toNat v);
      let c : Nat := bits (BitVec.toNat v) (2 * b.val + 1) (2 * b.val);
      let cur : Nat := SMap.getD (a.eng e.val).spmBanks b.val 0;
      bit (a.eng e.val).spmOff b.val = false ∧
        c ≠ 3 ∧ SMap.find? (a.eng e.val).spmMoves b.val = none ∧ (c = cur ∨ cur = 2 ∧ c = 1)) ∧
    (let s : State := st07 0;
    let r : Req := Req.host 0 0;
    let e : EngIx := 0;
    let v : Word := 0#32;
    (s.gate r (Reg.ENG_ACNT_SETI e.val) (BitVec.toNat v)).snd = true) ∧
    (let s : State := st07 0;
    let e : EngIx := 0;
    let b : Fin 16 := 3;
    let g : Engine := s.eng e.val;
    Option.any (fun (m : BankMove) => decide (m.held = none)) (SMap.find? g.spmMoves b.val) = true) ∧
    (let s : State := st07 0;
    let e : EngIx := 0;
    let b : Fin 16 := 4;
    let g : Engine := s.eng e.val;
    Option.any
        (fun (m : BankMove) =>
          decide (Option.any (fun (c : Nat) => decide (c ≠ m.target ∧ ¬(m.target = 2 ∧ c = 1))) m.held = true))
        (SMap.find? g.spmMoves b.val) =
      true) ∧
    (let s : State := st07 0;
    let e : EngIx := 0;
    let b : Fin 16 := 3;
    let g : Engine := s.eng e.val;
    let inBank : Nat → Prop := fun (w : Nat) => w * 8 / 16777216 = b.val;
    Option.any
        (fun (m : BankMove) =>
          decide
            (m.target = 2 ∧
              let w : Nat := 6291456;
              inBank w))
        (SMap.find? g.spmMoves b.val) =
      true) ∧
    (let s : State := st07 0;
    let e : EngIx := 0;
    let b : Fin 16 := 6;
    let g : Engine := s.eng e.val;
    Option.any (fun (m : BankMove) => decide (m.target ≠ 2 ∧ m.held = none)) (SMap.find? g.spmMoves b.val) = true) ∧
    (let s : State := st07 0;
    let e : EngIx := 0;
    let b : Fin 16 := 7;
    let g : Engine := s.eng e.val;
    b.val ∈ g.zeroing ∧ ¬b.val ∈ g.zeroWait) ∧
    (let s : State := st07 0;
    let e : EngIx := 0;
    let b : Fin 16 := 7;
    let g : Engine := s.eng e.val;
    let inBank : Nat → Prop := fun (w : Nat) => w * 8 / 16777216 = b.val;
    b.val ∈ g.zeroing ∧
      let w : Nat := 14680064;
      inBank w) ∧
    (let s : State := st07 0;
    let r : Req := Req.host 0 0;
    let e : EngIx := 0;
    let v : Word := 1#32;
    let b : Fin 16 := 0;
    (s.gate r (Reg.ENG_SPM_ZERO e.val) (BitVec.toNat v)).snd = true ∧
      bit (BitVec.toNat v) b.val = true ∧
        let a : State := entered s r (Reg.ENG_SPM_ZERO e.val) (BitVec.toNat v);
        a.bankState (SpRef.hub e.val) b.val = 0 ∧
          SMap.find? (a.eng e.val).spmMoves b.val = none ∧ (a.eng e.val).zeroing.length ≤ 4) ∧
    (let s : State := st07 0;
    let r : Req := Req.host 0 0;
    let e : EngIx := 0;
    let v : Word := 1#32;
    (s.gate r (Reg.ENG_SPM_CTRL e.val) (BitVec.toNat v)).snd = true ∧ bit (BitVec.toNat v) 0 = true) := by
  refine ⟨?_, ?_, ?_, ?_, ?_, ?_, ?_, ?_, ?_, ?_, ?_, ?_⟩ <;> decide +kernel

theorem witness_RemoteAccessesOfScratchpads :
    (let s : State := st07 0;
    let e : EngIx := 0;
    let sp : SpSel := SpSel.hub;
    let a : Fin 268435456 := 8;
    let x : SpRef := spSel e sp;
    let dieHeld : Bool :=
      match x with
      | SpRef.cell e' d c => (s.fab e' d).held
      | SpRef.hub e => false;
    let cellHeld : Bool :=
      match x with
      | SpRef.cell e' d c => (s.cell e' d c).held
      | SpRef.hub e => false;
    s.posDown e.val = false ∧
      let ctr : Fin 256 := 1;
      let bs : List Byte := leBytes 8 7;
      let n : Nat := bs.length;
      let shaped : Prop :=
        8 ≤ n ∧ n ≤ 4096 ∧ a.val % 8 = 0 ∧ n % 8 = 0 ∧ a.val / 4096 = (a.val + n - 1) / 4096;
      shaped ∧
        dieHeld = false ∧
          ctr.val < x.counters ∧
            s.spRangeOpen x a.val n = true ∧
              cellHeld = false ∧
                let i : Nat := 0;
                i < n) ∧
    (let s : State := st07 0;
    let e : EngIx := 0;
    let sp : SpSel := SpSel.hub;
    let a : Fin 268435456 := 8;
    let x : SpRef := spSel e sp;
    let dieHeld : Bool :=
      match x with
      | SpRef.cell e' d c => (s.fab e' d).held
      | SpRef.hub e => false;
    let cellHeld : Bool :=
      match x with
      | SpRef.cell e' d c => (s.cell e' d c).held
      | SpRef.hub e => false;
    s.posDown e.val = false ∧
      let ctr : Fin 256 := 1;
      let bs : List Byte := leBytes 8 7;
      let n : Nat := bs.length;
      let shaped : Prop :=
        8 ≤ n ∧ n ≤ 4096 ∧ a.val % 8 = 0 ∧ n % 8 = 0 ∧ a.val / 4096 = (a.val + n - 1) / 4096;
      shaped ∧
        dieHeld = false ∧
          ctr.val < x.counters ∧
            s.spRangeOpen x a.val n = true ∧
              cellHeld = false ∧
                let y : Nat := 0;
                y < a.val ∨ a.val + n ≤ y) ∧
    (let s : State := st07 0;
    let e : EngIx := 0;
    let sp : SpSel := SpSel.hub;
    let a : Fin 268435456 := 8;
    let x : SpRef := spSel e sp;
    let dieHeld : Bool :=
      match x with
      | SpRef.cell e' d c => (s.fab e' d).held
      | SpRef.hub e => false;
    let cellHeld : Bool :=
      match x with
      | SpRef.cell e' d c => (s.cell e' d c).held
      | SpRef.hub e => false;
    s.posDown e.val = false ∧
      let ctr : Fin 256 := 1;
      let bs : List Byte := leBytes 8 7;
      let n : Nat := bs.length;
      let shaped : Prop :=
        8 ≤ n ∧ n ≤ 4096 ∧ a.val % 8 = 0 ∧ n % 8 = 0 ∧ a.val / 4096 = (a.val + n - 1) / 4096;
      shaped ∧
        dieHeld = false ∧
          ctr.val < x.counters ∧
            s.spRangeOpen x a.val n = true ∧
              cellHeld = false ∧
                let w : Nat := 1;
                a.val / 8 ≤ w ∧ w < (a.val + n) / 8) ∧
    (let s : State := st07 1;
    let e : EngIx := 0;
    let sp : SpSel := SpSel.cell 0 0;
    let a : Fin 268435456 := 8;
    let x : SpRef := spSel e sp;
    let dieHeld : Bool :=
      match x with
      | SpRef.cell e' d c => (s.fab e' d).held
      | SpRef.hub e => false;
    let cellHeld : Bool :=
      match x with
      | SpRef.cell e' d c => (s.cell e' d c).held
      | SpRef.hub e => false;
    s.posDown e.val = false ∧
      let ctr : Fin 256 := 1;
      let bs : List Byte := leBytes 8 7;
      let n : Nat := bs.length;
      let shaped : Prop :=
        8 ≤ n ∧ n ≤ 4096 ∧ a.val % 8 = 0 ∧ n % 8 = 0 ∧ a.val / 4096 = (a.val + n - 1) / 4096;
      shaped ∧
        dieHeld = false ∧
          ctr.val < x.counters ∧
            s.spRangeOpen x a.val n = true ∧
              cellHeld = true ∧
                let d : DieIx := 0;
                let c : CellIx := 0;
                sp = SpSel.cell d c) ∧
    (let s : State := st07 2;
    let e : EngIx := 0;
    let sp : SpSel := SpSel.cell 0 0;
    let a : Fin 268435456 := 8;
    let x : SpRef := spSel e sp;
    let dieHeld : Bool :=
      match x with
      | SpRef.cell e' d c => (s.fab e' d).held
      | SpRef.hub e => false;
    s.posDown e.val = false ∧
      let bs : List Byte := leBytes 8 7;
      let n : Nat := bs.length;
      let shaped : Prop :=
        8 ≤ n ∧ n ≤ 4096 ∧ a.val % 8 = 0 ∧ n % 8 = 0 ∧ a.val / 4096 = (a.val + n - 1) / 4096;
      shaped ∧ dieHeld = true) ∧
    (let s : State := st07 0;
    let e : EngIx := 0;
    let sp : SpSel := SpSel.hub;
    let a : Fin 268435456 := 8;
    let x : SpRef := spSel e sp;
    let dieHeld : Bool :=
      match x with
      | SpRef.cell e' d c => (s.fab e' d).held
      | SpRef.hub e => false;
    s.posDown e.val = false ∧
      let n : Fin 8192 := 8;
      let shaped : Prop := 1 ≤ n.val ∧ n.val ≤ 4096 ∧ a.val / 4096 = (a.val + n.val - 1) / 4096;
      let rd : State × List Byte × Option Nat := s.spReadBytes x a.val n.val;
      shaped ∧ dieHeld = false ∧ s.spRangeOpen x a.val n.val = true ∧ rd.snd.snd = none) ∧
    (let s : State := st07 0;
    let e : EngIx := 0;
    let sp : SpSel := SpSel.hub;
    let a : Fin 268435456 := 24;
    let x : SpRef := spSel e sp;
    let dieHeld : Bool :=
      match x with
      | SpRef.cell e' d c => (s.fab e' d).held
      | SpRef.hub e => false;
    s.posDown e.val = false ∧
      let n : Fin 8192 := 8;
      let shaped : Prop := 1 ≤ n.val ∧ n.val ≤ 4096 ∧ a.val / 4096 = (a.val + n.val - 1) / 4096;
      let rd : State × List Byte × Option Nat := s.spReadBytes x a.val n.val;
      shaped ∧ dieHeld = false ∧ s.spRangeOpen x a.val n.val = true ∧ rd.snd.snd ≠ none) ∧
    (let s : State := st07 0;
    let e : EngIx := 0;
    let sp : SpSel := SpSel.hub;
    let x : SpRef := spSel e sp;
    s.posDown e.val = false ∧
      let b : Fin 16 := 0;
      Option.any
          (fun (w : Nat) =>
            decide
              (s.flag (Reg.ENG_SPM_CTRL e.val) Fld.ENG_SPM_CTRL.WB_EN = true ∧
                (s.sp x).stAt x.bankBytes w = WordSt.ce))
          (List.find? (fun (w : Nat) => w * 8 / x.bankBytes == b.val) (s.sp x).wb) =
        true) ∧
    (let s : State := st07 0;
    let e : EngIx := 0;
    let a : Fin 268435456 := 4001;
    s.posDown e.val = false ∧
      let bs : List Byte := leBytes 8 7;
      let n : Nat := bs.length;
      let shaped : Prop :=
        8 ≤ n ∧ n ≤ 4096 ∧ a.val % 8 = 0 ∧ n % 8 = 0 ∧ a.val / 4096 = (a.val + n - 1) / 4096;
      ¬shaped) ∧
    (let s : State := st07 0;
    let e : EngIx := 0;
    let sp : SpSel := SpSel.hub;
    let a : Fin 268435456 := 16777216;
    let x : SpRef := spSel e sp;
    let dieHeld : Bool :=
      match x with
      | SpRef.cell e' d c => (s.fab e' d).held
      | SpRef.hub e => false;
    s.posDown e.val = false ∧
      let ctr : Fin 256 := 1;
      let bs : List Byte := leBytes 8 7;
      let n : Nat := bs.length;
      let shaped : Prop :=
        8 ≤ n ∧ n ≤ 4096 ∧ a.val % 8 = 0 ∧ n % 8 = 0 ∧ a.val / 4096 = (a.val + n - 1) / 4096;
      shaped ∧ dieHeld = false ∧ (x.counters ≤ ctr.val ∨ s.spRangeOpen x a.val n = false)) := by
  refine ⟨?_, ?_, ?_, ?_, ?_, ?_, ?_, ?_, ?_, ?_⟩ <;> decide +kernel

theorem witness_ScratchpadWordsReadBack :
    (let a : Nat := 0;
    let bs : List Byte := leBytes 8 7;
    a % 8 = 0 ∧ bs.length % 8 = 0 ∧ bs ≠ []) := by
  decide +kernel

/-! ### The hub's blocks (08_engine_hub) -/

/-- Memory in which block 0 of stack 0 is a block of zeros with its check word. -/
def zeroBlock : Memory := Memory.writeN [] (checkKey 0 0) (leBytes 8 11893821503496244068)

/-- The panel with that memory, or none, and engine 0's scrubber, held writes and blocks past correction. -/
def blockPanel (good : Bool) (scrub at' : Nat) (ue : List Nat := []) (asm : List AsmBuf := []) : State :=
  let s := { panel with now := 10000, hbm := if good then zeroBlock else [] }.onEng 0 fun g => { g with hbmUe := ue, asm := asm, scrubAt := at', merges := [⟨5, [1]⟩, ⟨6, [2]⟩] }
  put s [(Reg.MC_SCRUB 0, Fld.MC_SCRUB.ENABLE, scrub)]

/-- The states for blocks. -/
def st08b : Nat → State
  | 0 => blockPanel true 1 0
  | 1 => blockPanel false 1 0
  | 2 => blockPanel true 0 0 [ueKey 0 0]
  | 3 => blockPanel true 1 0 [] [⟨0, 0, [(3, 5)], 5000⟩]
  | 4 => blockPanel false 1 0 [] [⟨0, 0, [(3, 5)], 5000⟩]
  | 5 => blockPanel true 1 0 [] [⟨0, 0, [(3, 5)], 9000⟩]
  | _ => blockPanel true 1 (2 * stackBlocks - 1)

theorem zero_block_matches : (leNat (Memory.readN zeroBlock (checkKey 0 0) 8) == checkWord 0 0 (Memory.readN zeroBlock (blockKey 0 0) 4096)) = true := by
  decide +kernel

theorem unwritten_block_fails : (leNat (Memory.readN [] (checkKey 0 0) 8) == checkWord 0 0 (Memory.readN [] (blockKey 0 0) 4096)) = false := by
  decide +kernel

/-- In a state with that memory the block reads back. -/
theorem good_of {s : State} (h : s.hbm = zeroBlock) : s.blockGood 0 0 = true := by
  unfold State.blockGood State.blockRaw; rw [h]; exact zero_block_matches

/-- In a state whose memory lists nothing it does not. -/
theorem bad_of {s : State} (h : s.hbm = []) : s.blockGood 0 0 = false := by
  unfold State.blockGood State.blockRaw; rw [h]; exact unwritten_block_fails

theorem witness_SpreadPlacesAreOneToOne : 0 < 96 * ((2044 - panel.limit) * 8192) * 4096 ∧ 0 < 96 * spreadW 0 := by decide +kernel

theorem witness_BlocksCarryTheirCheck :
    (st08b 0).stackReach 0 0 = St.OK ∧ (st08b 0).stackReach 2 0 ≠ St.OK ∧
    (((st08b 0).eng 0).hbmUe.contains (ueKey 0 0) = false ∧ (st08b 0).blockGood 0 0 = true ∧ (st08b 0).asmOf 0 0 = none) ∧
    ((st08b 3).stackReach 0 0 = St.OK ∧ ((st08b 3).eng 0).hbmUe.contains (ueKey 0 0) = false ∧ (st08b 3).blockGood 0 0 = true ∧
      (st08b 3).asmOf 0 0 = some ⟨0, 0, [(3, 5)], 5000⟩ ∧ heldCovers [(3, 5)] 0 4096 = false) ∧
    ((st08b 1).stackReach 0 0 = St.OK ∧ ((st08b 1).eng 0).hbmUe.contains (ueKey 0 0) = false ∧ (st08b 1).blockGood 0 0 = false ∧ (st08b 1).asmOf 0 0 = none) ∧
    ((st08b 2).stackReach 0 0 = St.OK ∧ ((st08b 2).eng 0).hbmUe.contains (ueKey 0 0) = true ∧ (st08b 2).asmOf 0 0 = none) := by
  refine ⟨?_, ?_, ⟨?_, good_of ?_, ?_⟩, ⟨?_, ?_, good_of ?_, ?_, ?_⟩, ⟨?_, ?_, bad_of ?_, ?_⟩, ?_⟩ <;> decide +kernel

theorem witness_WritesScrubsAndErrorCounts :
    ((st08b 0).stackReach 0 0 = St.OK ∧ (st08b 0).asmOf 0 0 = none ∧ ((st08b 0).eng 0).asm.length < 64) ∧ (st08b 0).stackReach 2 0 ≠ St.OK ∧
    ((st08b 5).asmOf 0 0 = some ⟨0, 0, [(3, 5)], 9000⟩ ∧ (st08b 5).now < 9000 + 2000) ∧
    ((st08b 3).asmOf 0 0 = some ⟨0, 0, [(3, 5)], 5000⟩ ∧ 5000 + 2000 ≤ (st08b 3).now ∧ ((st08b 3).eng 0).hbmUe.contains (ueKey 0 0) = false ∧
      (st08b 3).blockGood 0 0 = true) ∧
    ((st08b 4).asmOf 0 0 = some ⟨0, 0, [(3, 5)], 5000⟩ ∧ 5000 + 2000 ≤ (st08b 4).now ∧ ((st08b 4).eng 0).hbmUe.contains (ueKey 0 0) = false ∧
      (st08b 4).blockGood 0 0 = false) ∧
    ((st08b 0).scrubOpen 0 = true ∧ ((st08b 0).eng 0).scrubAt = 0 ∧ ((st08b 0).eng 0).hbmUe.contains (ueKey 0 0) = false ∧ (st08b 0).blockGood 0 0 = true) ∧
    ((st08b 1).scrubOpen 0 = true ∧ ((st08b 1).eng 0).scrubAt = 0 ∧ ((st08b 1).eng 0).hbmUe.contains (ueKey 0 0) = false ∧ (st08b 1).blockGood 0 0 = false) ∧
    ((st08b 6).scrubOpen 0 = true ∧ ((st08b 6).eng 0).scrubAt + 1 = 2 * stackBlocks ∧
      ((st08b 6).eng 0).hbmUe.contains (ueKey 1 (stackBlocks - 1)) = false) ∧
    (st08b 2).scrubOpen 0 = false ∧ Passes (st08b 0) (.host 0 0) (Reg.MC_ERR 0 0) 0 := by
  refine ⟨?_, ?_, ?_, ⟨?_, ?_, ?_, good_of ?_⟩, ⟨?_, ?_, ?_, bad_of ?_⟩, ⟨?_, ?_, ?_, good_of ?_⟩, ⟨?_, ?_, ?_, bad_of ?_⟩, ?_, ?_, ?_⟩ <;>
    first | decide +kernel | (unfold Passes; decide +kernel)

/-! ### Transfer queues (08_engine_hub) -/

/-- The descriptors of the ring: COPY inside the scratchpad with a counter and without, FILL, NOP, NOP with FENCE, one of no operation, and a COPY from a word that
does not read. -/
def ringDescs : List (List Byte) :=
  [descBytes 1 4 9 0x11 (SPE + 1024) (SPE + 2048) 64 1 64 64 0 0 0, descBytes 1 0 0 0x11 (SPE + 1024) (SPE + 2048) 64 1 64 64 0 0 0,
   descBytes 2 4 9 0x10 0x1122334455667788 (SPE + 2048) 64 1 0 64 0 0 0, descBytes 4 0 0 0 0 0 0 0 0 0 0 0 0,
   descBytes 4 1 0 0 0 0 0 0 0 0 0 0 0, descBytes 9 0 0 0 0 0 0 0 0 0 0 0 0, descBytes 1 4 9 0x11 (SPE + 4096) (SPE + 2048) 64 1 64 64 0 0 0]

/-- Engine 0 with its ring in the scratchpad, queue 0 at index `head` and done to `done`, and the flights given. -/
def queuePanel (en halted head done : Nat) (fl : List Flight) : State :=
  let s := { panel with limit := 16 }.onEng 0 fun g => { g with
    spm := { bytes := Memory.writeN [] 0 ringDescs.flatten, st := [(512, .ue)], zeroed := [(0, true)] }, flights := fl }
  put s [(Reg.ENG_DMAQ_CFG 0 0, Fld.ENG_DMAQ_CFG.ENABLE, en), (Reg.ENG_DMAQ_TAIL 0 0, Fld.ENG_DMAQ_TAIL.TAIL, 7), (Reg.ENG_DMAQ_HEAD 0 0, Fld.ENG_DMAQ_HEAD.HEAD, head),
    (Reg.ENG_DMAQ_HEAD 0 0, Fld.ENG_DMAQ_HEAD.DONE, done), (Reg.ENG_DMAQ_STATUS 0 0, Fld.ENG_DMAQ_STATUS.HALTED, halted),
    (Reg.ENG_DMAQ_STATUS 0 0, Fld.ENG_DMAQ_STATUS.INDEX, done)]

/-- Descriptor k of the ring in flight. -/
def ringFlight (k : Nat) : Flight := flightOf 0 k (ringDescs.getD k [])

/-- The states for the queues. -/
def st08q : Nat → State
  | 0 => queuePanel 0 0 0 0 []
  | 1 => queuePanel 1 1 5 5 []
  | 2 => queuePanel 1 1 5 3 [ringFlight 3]
  | 3 => queuePanel 1 0 3 3 []
  | 4 => queuePanel 1 0 4 3 [ringFlight 3]
  | 5 => queuePanel 1 0 5 5 []
  | 6 => queuePanel 1 0 7 0 ((List.range 7).map ringFlight)
  | 7 => queuePanel 1 0 7 0 [{ ringFlight 0 with row := 1, unacked := [(8, none)] }, { ringFlight 1 with row := 1, unacked := [(0, none)] }]
  | 8 => queuePanel 1 0 7 3 [{ ringFlight 3 with opDone := true }]
  | _ => queuePanel 1 0 7 5 [{ ringFlight 5 with code := 9 }]

theorem witness_DmaQueuesAndDescriptors :
    (let s : State := st08q 0;
    let r : Req := Req.host 0 0;
    let e : EngIx := 0;
    let q : QueueIx := 0;
    let v : Word := 256#32;
    (s.gate r (Reg.ENG_DMAQ_TAIL e.val q.val) (BitVec.toNat v)).snd = true ∧
      let a : State := entered s r (Reg.ENG_DMAQ_TAIL e.val q.val) (BitVec.toNat v);
      a.dmaHalted e.val q.val = false) ∧
    (let s : State := st08q 1;
    let r : Req := Req.host 0 0;
    let e : EngIx := 0;
    let q : QueueIx := 0;
    let v : Word := 256#32;
    (s.gate r (Reg.ENG_DMAQ_TAIL e.val q.val) (BitVec.toNat v)).snd = true ∧
      let a : State := entered s r (Reg.ENG_DMAQ_TAIL e.val q.val) (BitVec.toNat v);
      a.dmaHalted e.val q.val = true) ∧
    (let s : State := st08q 0;
    let r : Req := Req.host 0 0;
    let e : EngIx := 0;
    let q : QueueIx := 0;
    let v : Word := 256#32;
    (s.gate r (Reg.ENG_DMAQ_CFG e.val q.val) (BitVec.toNat v)).snd = true ∧
      let a : State := entered s r (Reg.ENG_DMAQ_CFG e.val q.val) (BitVec.toNat v);
      a.flag (Reg.ENG_DMAQ_CFG e.val q.val) Fld.ENG_DMAQ_CFG.ENABLE = false ∧ bit (BitVec.toNat v) 8 = true) ∧
    (let s : State := st08q 0;
    let r : Req := Req.host 0 0;
    let e : EngIx := 0;
    let q : QueueIx := 0;
    (s.gate r (Reg.ENG_DMAQ_CTRL e.val q.val) 4).snd = true ∧
      let a : State := entered s r (Reg.ENG_DMAQ_CTRL e.val q.val) 4;
      a.flag (Reg.ENG_DMAQ_CFG e.val q.val) Fld.ENG_DMAQ_CFG.ENABLE = false ∧
        a.inFlight e.val q.val = []) ∧
    (let s : State := st08q 1;
    let r : Req := Req.host 0 0;
    let e : EngIx := 0;
    let q : QueueIx := 0;
    (s.gate r (Reg.ENG_DMAQ_CTRL e.val q.val) 1).snd = true ∧
      let a : State := entered s r (Reg.ENG_DMAQ_CTRL e.val q.val) 1;
      a.dmaHalted e.val q.val = true ∧ a.inFlight e.val q.val = []) ∧
    (let s : State := st08q 1;
    let r : Req := Req.host 0 0;
    let e : EngIx := 0;
    let q : QueueIx := 0;
    (s.gate r (Reg.ENG_DMAQ_CTRL e.val q.val) 2).snd = true ∧
      let a : State := entered s r (Reg.ENG_DMAQ_CTRL e.val q.val) 2;
      let i : Nat := a.fld (Reg.ENG_DMAQ_STATUS e.val q.val) Fld.ENG_DMAQ_STATUS.INDEX;
      a.dmaHalted e.val q.val = true ∧
        a.inFlight e.val q.val = [] ∧
          (a.dmaq e.val q.val).fin = [] ∧ a.dmaDone e.val q.val = i) ∧
    (let s : State := st08q 2;
    let r : Req := Req.host 0 0;
    let e : EngIx := 0;
    let q : QueueIx := 0;
    (s.gate r (Reg.ENG_DMAQ_CTRL e.val q.val) 1).snd = true ∧
      let a : State := entered s r (Reg.ENG_DMAQ_CTRL e.val q.val) 1;
      a.dmaHalted e.val q.val = true ∧ a.inFlight e.val q.val ≠ []) ∧
    (let s : State := st08q 2;
    let r : Req := Req.host 0 0;
    let e : EngIx := 0;
    let q : QueueIx := 0;
    (s.gate r (Reg.ENG_DMAQ_CTRL e.val q.val) 2).snd = true ∧
      let a : State := entered s r (Reg.ENG_DMAQ_CTRL e.val q.val) 2;
      a.dmaHalted e.val q.val = true ∧ a.inFlight e.val q.val ≠ []) ∧
    (let s : State := st08q 6;
    let e : EngIx := 0;
    let q : QueueIx := 0;
    let ix : Fin 65536 := 0;
    Option.any
        (fun (f : Flight) =>
          decide
            (let x : Nat × Nat × Nat := f.next;
            let code : Fin 16 := 0;
            let data : List Byte := [];
            Option.any
                (fun (y : State × Nat × List Byte) =>
                  decide
                    (let s1 : State := y.fst;
                    y.snd.fst = St.OK ∧
                      let bs : List Byte := y.snd.snd;
                      let r : State × Nat × Nat := s1.dstWrite e.val f.dstSpace x.snd.fst f.peer bs f.counter;
                      r.snd.fst = St.OK ∧ f.op = 1 ∧ f.open' = true))
                (s.srcRead e.val f.srcSpace x.fst x.snd.snd f.peer { code := code.val, data := data : Far }) =
              true))
        (s.flight e.val q.val ix.val) =
      true) ∧
    (let s : State := st08q 6;
    let e : EngIx := 0;
    let q : QueueIx := 0;
    let ix : Fin 65536 := 6;
    Option.any
        (fun (f : Flight) =>
          decide
            (let x : Nat × Nat × Nat := f.next;
            let code : Fin 16 := 0;
            let data : List Byte := [];
            Option.any
                (fun (y : State × Nat × List Byte) =>
                  decide
                    (let st : Nat := y.snd.fst;
                    f.op = 1 ∧ f.open' = true ∧ st ≠ St.OK))
                (s.srcRead e.val f.srcSpace x.fst x.snd.snd f.peer { code := code.val, data := data : Far }) =
              true))
        (s.flight e.val q.val ix.val) =
      true) ∧
    (let s : State := st08q 6;
    let e : EngIx := 0;
    let q : QueueIx := 0;
    let ix : Fin 65536 := 2;
    Option.any (fun (f : Flight) => decide (f.op = 2 ∧ f.open' = true)) (s.flight e.val q.val ix.val) = true) ∧
    (let s : State := st08q 2;
    let e : EngIx := 0;
    let q : QueueIx := 0;
    let ix : Fin 65536 := 3;
    Option.any (fun (f : Flight) => decide (f.op = 4 ∧ f.code = 0)) (s.flight e.val q.val ix.val) = true) ∧
    (let s : State := st08q 3;
    let e : EngIx := 0;
    let q : QueueIx := 0;
    let i : Nat := s.dmaHead e.val q.val;
    let at' : Nat := (s.dmaq e.val q.val).base + 64 * (i % s.dmaSize e.val q.val);
    let rd : State × List Byte × Option Nat := s.spReadBytes (SpRef.hub e.val) at' 64;
    let f0 : Flight := { q := q.val, ix := i, raw := rd.snd.fst : Flight };
    s.dmaReady e.val q.val = true ∧
      (s.dmaq e.val q.val).bad ≠ some i ∧
        s.spRangeOpen (SpRef.hub e.val) at' 64 = true ∧
          rd.snd.snd = none ∧ f0.ok = true ∧ f0.op ≠ 3 ∧ (f0.fence = false ∨ s.dmaDone e.val q.val = i)) ∧
    (let s : State := st08q 4;
    let e : EngIx := 0;
    let q : QueueIx := 0;
    let i : Nat := s.dmaHead e.val q.val;
    let at' : Nat := (s.dmaq e.val q.val).base + 64 * (i % s.dmaSize e.val q.val);
    let rd : State × List Byte × Option Nat := s.spReadBytes (SpRef.hub e.val) at' 64;
    let f0 : Flight := { q := q.val, ix := i, raw := rd.snd.fst : Flight };
    s.dmaReady e.val q.val = true ∧
      (s.dmaq e.val q.val).bad ≠ some i ∧
        s.spRangeOpen (SpRef.hub e.val) at' 64 = true ∧
          rd.snd.snd = none ∧ f0.ok = true ∧ f0.op ≠ 3 ∧ f0.fence = true ∧ s.dmaDone e.val q.val ≠ i) ∧
    (let s : State := st08q 5;
    let e : EngIx := 0;
    let q : QueueIx := 0;
    let i : Nat := s.dmaHead e.val q.val;
    let at' : Nat := (s.dmaq e.val q.val).base + 64 * (i % s.dmaSize e.val q.val);
    let rd : State × List Byte × Option Nat := s.spReadBytes (SpRef.hub e.val) at' 64;
    let f0 : Flight := { q := q.val, ix := i, raw := rd.snd.fst : Flight };
    s.dmaReady e.val q.val = true ∧
      (s.dmaq e.val q.val).bad ≠ some i ∧
        s.spRangeOpen (SpRef.hub e.val) at' 64 = true ∧ rd.snd.snd = none ∧ f0.ok = false) ∧
    (let s : State := st08q 7;
    let e : EngIx := 0;
    let q : QueueIx := 0;
    let ix : Fin 65536 := 1;
    Option.any
        (fun (f : Flight) =>
          decide
            (Option.any (fun (y : Nat × Option (Nat × Nat)) => decide (f.dstSpace = 1 ∧ f.counter = none)) f.unacked.head? =
              true))
        (s.flight e.val q.val ix.val) =
      true) ∧
    (let s : State := st08q 7;
    let e : EngIx := 0;
    let q : QueueIx := 0;
    let ix : Fin 65536 := 0;
    Option.any
        (fun (f : Flight) =>
          decide
            (Option.any (fun (y : Nat × Option (Nat × Nat)) => decide (f.dstSpace = 1 ∧ f.counter.isSome = true))
                f.unacked.head? =
              true))
        (s.flight e.val q.val ix.val) =
      true) ∧
    (let s : State := st08q 8;
    let e : EngIx := 0;
    let q : QueueIx := 0;
    let ix : Fin 65536 := 3;
    Option.any
        (fun (f : Flight) =>
          decide
            (f.open' = false ∧
              f.unacked = [] ∧
                f.notify = false ∧
                  (s.dmaq e.val q.val).restart = 0 ∧
                    s.dmaHalted e.val q.val = false ∧
                      f.code = 0 ∧ (s.dmaq e.val q.val).fin = [] ∧ s.dmaDone e.val q.val = ix.val))
        (s.flight e.val q.val ix.val) =
      true) ∧
    (let s : State := st08q 9;
    let e : EngIx := 0;
    let q : QueueIx := 0;
    let ix : Fin 65536 := 5;
    Option.any
        (fun (f : Flight) =>
          decide
            (f.open' = false ∧
              f.unacked = [] ∧
                f.notify = false ∧
                  (s.dmaq e.val q.val).restart = 0 ∧
                    s.dmaHalted e.val q.val = false ∧ f.code ≠ 0 ∧ f.code < 16))
        (s.flight e.val q.val ix.val) =
      true) := by
  refine ⟨?_, ?_, ?_, ?_, ?_, ?_, ?_, ?_, ?_, ?_, ?_, ?_, ?_, ?_, ?_, ?_, ?_, ?_, ?_⟩ <;> decide +kernel

/-! ### Channel streams (08_engine_hub) -/

/-- A record of the MEM_LAYOUT section's streams (08_engine_hub R226). -/
def streamBytes (chan role space ctr en base : Nat) : List Byte :=
  leBytes 1 0 ++ leBytes 1 chan ++ leBytes 1 255 ++ leBytes 1 role ++ leBytes 1 space ++ leBytes 1 ctr ++ leBytes 2 en ++ leBytes 8 base ++ leBytes 8 0 ++ leBytes 4 64 ++
    leBytes 4 4 ++ leBytes 4 64 ++ leBytes 2 1 ++ leBytes 10 0

/-- Six streams: two that read, three that write, one of doorbells. -/
def streamSec : List Byte :=
  leBytes 16 6 ++ streamBytes 1 1 1 5 1 SPE ++ streamBytes 2 1 1 0 0 SPE ++ streamBytes 3 2 1 5 1 (SPE + 4096) ++ streamBytes 4 2 1 0 0 (SPE + 4096) ++
    streamBytes 5 2 1 0 0 (SPE + 4096) ++ streamBytes 6 3 0 0 0 0

/-- The port input of every cell is routed, and entries stand at the channels. -/
def streamPanel : State :=
  let cell := leBytes 2 0 ++ leBytes 2 0xFFFF ++ leBytes 2 0xFFFF ++ leBytes 2 0 ++ leBytes 8 0 ++ leBytes 8 0xB0000 ++ leBytes 24 0
  let s := panel.onEng 0 fun g => { g with
    spm := { bytes := Memory.writeN [] 0 ((List.range 64).map (BitVec.ofNat 8)), zeroed := [(0, true)] }
    canvas := { g.canvas with secs := [⟨9, 255, 255, streamSec⟩, ⟨5, 0, 0, (List.replicate 65 cell).flatten⟩] }
    hubIn := [(12, [⟨1, false⟩]), (16, [⟨2, false⟩]), (20, [⟨3, true⟩]), (25, [⟨0x30005, false⟩])]
    streams := [(1, { held := some [1, 2] })] }
  put s [(Reg.ENG_DMAQ_CFG 0 5, Fld.ENG_DMAQ_CFG.ENABLE, 1), (Reg.ENG_ACNT 0 5, ⟨31, 0⟩, 0xFFFFFFFF)]

theorem witness_ChannelStreamsMoveEntries :
    (let s : State := streamPanel;
    let e : EngIx := 0;
    let i : Fin 512 := 0;
    let t : StreamRec := (streamsOf streamSec).getD 0 (streamRec []);
    let x : StreamSt := { : StreamSt };
    let code : Fin 16 := 0;
    let data : List Byte := [1, 2];
    let bs : List Byte := List.map (BitVec.ofNat 8) (List.range 64);
    s.streamOn e.val i.val 1 = some (t, x) ∧
      s.streamRoom e.val t = true ∧
        Option.any (fun (y : State × Nat × List Byte) => decide (y.snd.fst = St.OK ∧ y.snd.snd = bs ∧ x.held = none))
            (s.srcRead e.val t.space (t.addr x) 64 0 { code := code.val, data := data : Far }) =
          true) ∧
    (let s : State := streamPanel;
    let e : EngIx := 0;
    let i : Fin 512 := 1;
    let t : StreamRec := (streamsOf streamSec).getD 1 (streamRec []);
    let x : StreamSt := { held := some [1#8, 2#8] : StreamSt };
    let bs : List Byte := [1, 2];
    s.streamOn e.val i.val 1 = some (t, x) ∧ s.streamRoom e.val t = true ∧ x.held = some bs) ∧
    (let s : State := streamPanel;
    let e : EngIx := 0;
    let i : Fin 512 := 3;
    let t : StreamRec := (streamsOf streamSec).getD 3 (streamRec []);
    let x : StreamSt := { : StreamSt };
    Option.any
        (fun (y : FEntry) =>
          decide
            (let rest : List FEntry := (SMap.getD (s.eng e.val).hubIn (t.key 0) []).tail;
            s.streamOn e.val i.val 2 = some (t, x) ∧
              let s1 : State :=
                s.onEng e.val fun (g : Engine) =>
                  { g with hubIn := SMap.set [] g.hubIn (t.key 0) rest };
              let r : State × Nat × Nat :=
                s1.dstWrite e.val t.space (t.addr x) 0 (leBytes 64 y.data)
                  (if t.countEn = true then some t.counter else none);
              r.snd.fst = St.OK ∧ y.parBad = false ∧ t.countEn = false))
        (SMap.getD (s.eng e.val).hubIn (t.key 0) []).head? =
      true) ∧
    (let s : State := streamPanel;
    let e : EngIx := 0;
    let i : Fin 512 := 2;
    let t : StreamRec := (streamsOf streamSec).getD 2 (streamRec []);
    let x : StreamSt := { : StreamSt };
    Option.any
        (fun (y : FEntry) =>
          decide
            (let rest : List FEntry := (SMap.getD (s.eng e.val).hubIn (t.key 0) []).tail;
            s.streamOn e.val i.val 2 = some (t, x) ∧
              let s1 : State :=
                s.onEng e.val fun (g : Engine) =>
                  { g with hubIn := SMap.set [] g.hubIn (t.key 0) rest };
              let r : State × Nat × Nat :=
                s1.dstWrite e.val t.space (t.addr x) 0 (leBytes 64 y.data)
                  (if t.countEn = true then some t.counter else none);
              r.snd.fst = St.OK ∧ y.parBad = false ∧ t.countEn = true))
        (SMap.getD (s.eng e.val).hubIn (t.key 0) []).head? =
      true) ∧
    (let s : State := streamPanel;
    let e : EngIx := 0;
    let i : Fin 512 := 4;
    let t : StreamRec := (streamsOf streamSec).getD 4 (streamRec []);
    let x : StreamSt := { : StreamSt };
    Option.any (fun (y : FEntry) => decide (s.streamOn e.val i.val 2 = some (t, x) ∧ y.parBad = true))
        (SMap.getD (s.eng e.val).hubIn (t.key 0) []).head? =
      true) ∧
    (let s : State := streamPanel;
    let e : EngIx := 0;
    let i : Fin 512 := 5;
    let t : StreamRec := (streamsOf streamSec).getD 5 (streamRec []);
    let x : StreamSt := { : StreamSt };
    Option.any (fun (y : FEntry) => decide (s.streamOn e.val i.val 3 = some (t, x) ∧ y.parBad = false))
        (SMap.getD (s.eng e.val).hubIn (t.key 1) []).head? =
      true) := by
  refine ⟨?_, ?_, ?_, ?_, ?_, ?_⟩ <;> decide +kernel

/-! ### Loads of a canvas (06_canvases_glazes) -/

/-- The bytes of a container of one section, a plan of one glaze, with a byte of its padding set. -/
def canvasBytes : List Byte :=
  leBytes 4 0x56434D4C ++ leBytes 1 0 ++ leBytes 1 1 ++ leBytes 2 1 ++ leBytes 4 192 ++ leBytes 4 224 ++ leBytes 8 0x1234 ++ leBytes 4 0 ++ leBytes 2 1 ++ leBytes 1 1 ++
    leBytes 33 0 ++ leBytes 2 1 ++ leBytes 2 0xFFFF ++ leBytes 4 128 ++ leBytes 4 16 ++ leBytes 52 0 ++ leBytes 1 1 ++ leBytes 7 0 ++ leBytes 8 0x10000 ++ leBytes 6 0 ++
    leBytes 1 1

/-- Memory in which block 0 of stack 0 holds that container with its check word. -/
def canvasBlock : Memory := Memory.writeN (Memory.writeN [] 0 canvasBytes) (checkKey 0 0) (leBytes 8 10585617302256195167)

/-- Engine 0 loading a canvas from the first byte of its near part, out of a memory. -/
def loadPanel (m : Memory) (cv : Canvas) (ue : List Nat) : State :=
  let s := { panel with limit := 1, hbm := m }.onEng 0 fun g => { g with canvas := cv, hbmUe := ue }
  put s [(Reg.ENG_CANVAS_STATUS 0, Fld.ENG_CANVAS_STATUS.STATE, Cv.LOADING)]

/-- The canvas of a load whose header has passed, and what it still waits for. -/
def loadingCanvas (header : Bool) (applied : Nat) (zero data : List Nat) : Canvas :=
  { loadAddr := NE, headerOk := header, applied := applied, zeroWait := zero, dataWait := data }

/-- A read within block 0 of the near part of engine 0, where the block reads back. -/
theorem read_of {s : State} {a n b : Nat} {c : Option Nat} (hp : pieces a n (n / 4096 + 2) = [(a, n)]) (ht : s.target a = .near 0 b)
    (hh : s.holder 0 = 0) (hd : s.posDown 0 = false) (hn : s.nearPlace 0 (s.nearOff 0 b) = some (0, 0, b)) (ha : s.asmOf 0 0 = none)
    (hu : (s.eng 0).hbmUe.contains (ueKey 0 0) = false) (hg : s.blockGood 0 0 = true) :
    s.readRange a n c = (s, St.OK, slice (s.blockRaw 0 0) b n) := by
  have hf : s.blockFetch 0 0 c = (s, St.OK, s.blockRaw 0 0) := by
    unfold State.blockFetch; simp only [Nat.zero_div, hu, hg]; rfl
  have hm : s.memRead a n c = (s, St.OK, slice (s.blockRaw 0 0) b n) := by
    unfold State.memRead; simp only [ht, hh, hd, hn]
    unfold State.hbmRead; simp only [ha, hf]; rfl
  unfold State.readRange; rw [hp]; unfold State.readPieces; simp only [hm]; unfold State.readPieces; simp

theorem canvas_block_matches : (leNat (Memory.readN canvasBlock (checkKey 0 0) 8) == checkWord 0 0 (Memory.readN canvasBlock (blockKey 0 0) 4096)) = true := by
  decide +kernel

/-- In a state with that memory the container reads back. -/
theorem canvas_of {s : State} (h : s.hbm = canvasBlock) : s.blockGood 0 0 = true := by
  unfold State.blockGood State.blockRaw; rw [h]; exact canvas_block_matches

/-- A container load whose header has not passed, a section that is still to come, and a load whose every section has arrived; the remaining checks of R162
rest on the digest, which the model leaves opaque, so the load that is complete here is one whose padding fails. -/
theorem witness_CanvasHeaderAndBlockChecks :
    (let s := loadPanel canvasBlock (loadingCanvas false 0 [] []) []
     let b := slice (s.blockRaw 0 0) 0 headBytes
     s.cvState 0 = Cv.LOADING ∧ s.viewHolds NE headBytes = true ∧ s.loadHead 0 = (s, St.OK, b) ∧
       firstFail [(Code.BAD_ADDR, s.viewHolds NE (hTotal b)), (Code.BAD_HEADER, headerOk 1 b), (Code.BAD_LAYOUT, layoutOk b)] = 0) ∧
    (let s := loadPanel zeroBlock (loadingCanvas false 0 [] []) []
     let b := slice (s.blockRaw 0 0) 0 headBytes
     s.cvState 0 = Cv.LOADING ∧ s.viewHolds NE headBytes = true ∧ s.loadHead 0 = (s, St.OK, b) ∧
       firstFail [(Code.BAD_ADDR, s.viewHolds NE (hTotal b)), (Code.BAD_HEADER, headerOk 1 b), (Code.BAD_LAYOUT, layoutOk b)] ≠ 0) ∧
    (let s := loadPanel [] (loadingCanvas false 0 [] []) [ueKey 0 0]
     s.cvState 0 = Cv.LOADING ∧ s.viewHolds NE headBytes = true ∧ (s.loadHead 0).2.1 ≠ St.OK ∧ (s.loadHead 0).1.cvState 0 = Cv.LOADING) := by
  refine ⟨⟨?_, ?_, read_of ?_ ?_ ?_ ?_ ?_ ?_ ?_ (canvas_of ?_), ?_⟩, ⟨?_, ?_, read_of ?_ ?_ ?_ ?_ ?_ ?_ ?_ (good_of ?_), ?_⟩, ?_⟩ <;> decide +kernel

theorem witness_CanvasSectionsApplyAndComplete :
    (let s := loadPanel canvasBlock (loadingCanvas true 0 [] []) []
     let h := slice (s.blockRaw 0 0) 0 headBytes
     s.cvState 0 = Cv.LOADING ∧ s.loadHead 0 = (s, St.OK, h) ∧ (directory h)[0]? = some ⟨1, 0xFF, 0xFF, 128, 16, 0, 0⟩ ∧
       s.readRange (NE + 128) 16 (some 0) = (s, St.OK, slice (s.blockRaw 0 0) 128 16)) ∧
    (let cv := ((loadPanel [] (loadingCanvas true 2 [0] [0]) []).eng 0).canvas
     (loadPanel [] (loadingCanvas true 2 [0] [0]) []).cvState 0 = Cv.LOADING ∧ cv.zeroWait.contains 0 = true) ∧
    (let cv := ((loadPanel [] (loadingCanvas true 2 [] [0]) []).eng 0).canvas
     (loadPanel [] (loadingCanvas true 2 [] [0]) []).cvState 0 = Cv.LOADING ∧ cv.dataWait.contains 0 = true ∧ cv.zeroWait.contains 0 = false) ∧
    (let s := loadPanel canvasBlock (loadingCanvas true 1 [] []) []
     let b := slice (s.blockRaw 0 0) 0 224
     s.cvState 0 = Cv.LOADING ∧ s.loadAll 0 = (s, St.OK, b) ∧ hSections b ≤ 1 ∧
       canvasCode b false s.ground.policy (s.gridPeriod 0) (s.eng 0).cellOff (s.keyFor 0 b).1 (s.keyFor 0 b).2 ≠ Code.OK) := by
  have hl : ∀ s : State, s = loadPanel canvasBlock (loadingCanvas true 1 [] []) [] → s.loadAll 0 = (s, St.OK, slice (s.blockRaw 0 0) 0 224) := by
    intro s h
    have h1 : s.loadHead 0 = (s, St.OK, slice (s.blockRaw 0 0) 0 headBytes) := by
      subst h; refine read_of ?_ ?_ ?_ ?_ ?_ ?_ ?_ (canvas_of ?_) <;> decide +kernel
    have ht : hTotal (slice (s.blockRaw 0 0) 0 headBytes) = 224 := by subst h; decide +kernel
    have h2 : s.readRange (s.eng 0).canvas.loadAddr 224 (some 0) = (s, St.OK, slice (s.blockRaw 0 0) 0 224) := by
      subst h; refine read_of ?_ ?_ ?_ ?_ ?_ ?_ ?_ (canvas_of ?_) <;> decide +kernel
    unfold State.loadAll; simp only [h1, ht, h2]; rfl
  refine ⟨⟨?_, read_of ?_ ?_ ?_ ?_ ?_ ?_ ?_ (canvas_of ?_), ?_, read_of ?_ ?_ ?_ ?_ ?_ ?_ ?_ (canvas_of ?_)⟩, ?_, ?_, ?_, hl _ rfl, ?_, ?_⟩ <;> decide +kernel

/-! ### Paged tensors (09_paged_tensors) -/

/-- A list line of 16 entries: a page, a hole, a page outside memory, and pages. -/
def listLine : List Byte := leBytes 4 0x40000000 ++ leBytes 4 0xFFFFFFFF ++ leBytes 4 0x6FFFFFFF ++ (List.replicate 13 (leBytes 4 0x40000001)).flatten

/-- A paged descriptor: GATHER 1 or SCATTER 2 of 64 bytes at a context offset, or a context operation. -/
def paged (op h off : Nat) (count : Nat := 0) (cap : Nat := 0) : List Byte :=
  match op with
  | 1 => descBytes 3 4 9 0x10 off SPE 64 1 64 64 0 0 (pagedArgs 1 h 0 0 0)
  | 2 => descBytes 3 0 0 0x01 SPE off 64 1 64 64 0 0 (pagedArgs 2 h 0 0 0)
  | _ => descBytes 3 0 0 0x01 SPE 0 0 0 0 0 0 0 (pagedArgs op h count cap 7)

/-- Engine 0 with contexts 0 and 1 bound, a cached line of context 0, and paged descriptors in flight. -/
def pagedPanel (w : Nat) (busy : Bool) (d : Option CtxDrain) (xl : Option (Nat × Nat)) (miss : List (Nat × Nat)) (wait : Nat) : State :=
  let fl := fun (ix : Nat) (raw : List Byte) => ({ q := 0, ix := ix, raw := raw } : Flight)
  let s := { panel with limit := 16 }.onEng 0 fun g => { g with
    ctxs := [(0, ⟨true, 2, 0x700000000000, 40, 64, 9⟩), (1, ⟨true, 0, 0x700000010000, 8, 8, 0⟩)]
    lines := [⟨0, 0, listLine⟩, ⟨1, 0, listLine⟩], misses := miss, drain := d
    spm := { bytes := Memory.writeN [] 0 listLine, zeroed := [(0, true)] }
    flights := [fl 0 (descBytes 3 0 0 0 (if w % 256 = 16 then 0x700000020000 else 0) 0 8 1 0 0 0 0 w), { fl 1 (paged 1 0x2000 64) with xlat := xl, waiting := wait == 1 },
      { fl 2 (paged 2 0x2000 0) with xlat := xl }, { fl 3 (paged 1 0x2000 65600) with waiting := wait == 3 }, { fl 4 (paged 1 0x2000 131072) with waiting := wait == 4 }, fl 5 (paged 1 0x2000 0x100040),
      fl 6 (paged 1 0x1000 0)] }
  let s := (List.range 4).foldl (fun s n => s.wr (Reg.PT_CMD_ARG 0 n) (w / 2 ^ (32 * n))) s
  s.setFlag (Reg.PT_CMD_STATUS 0) Fld.PT_CMD_STATUS.BUSY busy

/-- The states for the paged tensors. -/
def st09 : Nat → State
  | 0 => pagedPanel (pagedArgs 0x10 0 4 8 7) false none none [] 0
  | 1 => pagedPanel (pagedArgs 0x11 0x2000 4 0 0) false none (some (0x700000000000, 0)) [] 0
  | 2 => pagedPanel (pagedArgs 0x12 0x2000 4 0 0) false none none ((List.range 16).map fun i => (9, i)) 0
  | 3 => pagedPanel (pagedArgs 0x13 0x2000 0 0 0) false none none [(0, 0)] 1
  | 4 => pagedPanel (pagedArgs 0x14 0x2000 0 0 0) false none none [(0, 0)] 3
  | 5 => pagedPanel (pagedArgs 0x10 0 4 8 7) true none none [(0, 0)] 4
  | 6 => pagedPanel 0 true (some ⟨none, 0x2000, 36, 36⟩) (some (NE, 36)) [] 0
  | _ => pagedPanel 0 true (some ⟨none, 0x2000, 36, 36⟩) none [] 0

theorem witness_ContextOperationsAct :
    (let s : State := st09 0;
    let e : Nat := 0;
    let w : Nat := 0;
    let op : Nat := bits w 7 0;
    let h : Nat := bits w 31 16;
    op ≠ 16 ∧ s.handleCheck e h ≠ Pt.OK) ∧
    (let s : State := st09 0;
    let e : Nat := 0;
    let w : Nat := 554597137747424315761663934480;
    let list : Option Nat := some 123145302441984;
    let op : Nat := bits w 7 0;
    let count : Nat := bits w 63 32;
    let cap : Nat := bits w 95 64;
    Option.any
        (fun (a : Nat) =>
          decide
            (Option.any
                (fun (n : Nat) =>
                  decide
                    (op = 16 ∧
                      cap ≠ 0 ∧
                        cap ≤ 65536 ∧
                          count ≤ cap ∧
                            s.listOk e a cap = true ∧
                              let k : Nat := 0;
                              k ≠ n))
                (s.freeCtx e) =
              true))
        list =
      true) ∧
    (let s : State := st09 0;
    let e : Nat := 0;
    let w : Nat := 554597137747424315761663934480;
    let list : Option Nat := some 123145302441984;
    let op : Nat := bits w 7 0;
    let count : Nat := bits w 63 32;
    let cap : Nat := bits w 95 64;
    let x : State × CtxOut := s.ctxOp e w list;
    Option.any
        (fun (a : Nat) =>
          decide
            (Option.any
                (fun (n : Nat) =>
                  decide
                    (op = 16 ∧
                      cap ≠ 0 ∧
                        cap ≤ 65536 ∧ count ≤ cap ∧ s.listOk e a cap = true ∧ (x.fst.eng e).lines[0]?.isSome = true))
                (s.freeCtx e) =
              true))
        list =
      true) ∧
    (let w : Nat := 16;
    let op : Nat := bits w 7 0;
    let cap : Nat := bits w 95 64;
    op = 16 ∧ cap = 0) ∧
    (let w : Nat := 36893488164598972432;
    let op : Nat := bits w 7 0;
    let count : Nat := bits w 63 32;
    let cap : Nat := bits w 95 64;
    op = 16 ∧ cap ≠ 0 ∧ (65536 < cap ∨ cap < count)) ∧
    (let s : State := st09 0;
    let e : Nat := 0;
    let w : Nat := 17716740113;
    let op : Nat := bits w 7 0;
    let h : Nat := bits w 31 16;
    let id : Nat := h % 4096;
    let count : Nat := bits w 63 32;
    let c : Ctx := s.ctx e id;
    s.handleCheck e h = Pt.OK ∧
      op = 17 ∧
        1 ≤ count ∧
          count ≤ 65536 ∧
            c.length + count ≤ c.cap ∧
              let k : Nat := 554597137747424315761663934480;
              k ≠ id) ∧
    (let s : State := st09 0;
    let e : Nat := 0;
    let w : Nat := 17716740113;
    let list : Option Nat := some 123145302441984;
    let op : Nat := bits w 7 0;
    let h : Nat := bits w 31 16;
    let id : Nat := h % 4096;
    let count : Nat := bits w 63 32;
    let c : Ctx := s.ctx e id;
    let x : State × CtxOut := s.ctxOp e w list;
    s.handleCheck e h = Pt.OK ∧
      op = 17 ∧
        1 ≤ count ∧
          count ≤ 65536 ∧
            c.length + count ≤ c.cap ∧ Option.any (fun (l : ListLine) => decide (l.ctx = id)) (x.fst.eng e).lines[0]? = true) ∧
    (let s : State := st09 0;
    let e : Nat := 0;
    let w : Nat := 172335562769;
    let op : Nat := bits w 7 0;
    let h : Nat := bits w 31 16;
    let id : Nat := h % 4096;
    let count : Nat := bits w 63 32;
    let c : Ctx := s.ctx e id;
    s.handleCheck e h = Pt.OK ∧ op = 17 ∧ 1 ≤ count ∧ count ≤ 65536 ∧ c.cap < c.length + count) ∧
    (let s : State := st09 0;
    let e : Nat := 0;
    let w : Nat := 176630530066;
    let op : Nat := bits w 7 0;
    let h : Nat := bits w 31 16;
    let id : Nat := h % 4096;
    let count : Nat := bits w 63 32;
    let c : Ctx := s.ctx e id;
    s.handleCheck e h = Pt.OK ∧ op = 18 ∧ c.length < count) ∧
    (let s : State := st09 0;
    let e : Nat := 0;
    let w : Nat := 17716740114;
    let op : Nat := bits w 7 0;
    let h : Nat := bits w 31 16;
    let id : Nat := h % 4096;
    let count : Nat := bits w 63 32;
    let c : Ctx := s.ctx e id;
    s.handleCheck e h = Pt.OK ∧
      op = 18 ∧
        1 ≤ count ∧
          count ≤ c.length ∧
            let k : Nat := 554597137747424315761663934480;
            k ≠ id) ∧
    (let s : State := st09 0;
    let e : Nat := 0;
    let w : Nat := 536870931;
    let op : Nat := bits w 7 0;
    let h : Nat := bits w 31 16;
    let id : Nat := h % 4096;
    s.handleCheck e h = Pt.OK ∧
      op = 19 ∧
        let k : Nat := 554597137747424315761663934480;
        k ≠ id) ∧
    (let s : State := st09 0;
    let e : Nat := 0;
    let w : Nat := 536870931;
    let list : Option Nat := some 123145302441984;
    let op : Nat := bits w 7 0;
    let h : Nat := bits w 31 16;
    let x : State × CtxOut := s.ctxOp e w list;
    s.handleCheck e h = Pt.OK ∧ op = 19 ∧ (x.fst.eng e).lines[0]?.isSome = true) ∧
    (let s : State := st09 0;
    let e : Nat := 0;
    let w : Nat := 536870932;
    let op : Nat := bits w 7 0;
    let h : Nat := bits w 31 16;
    let id : Nat := h % 4096;
    s.handleCheck e h = Pt.OK ∧
      op = 20 ∧
        let k : Nat := 554597137747424315761663934480;
        k ≠ id) ∧
    (let s : State := st09 0;
    let e : Nat := 0;
    let w : Nat := 536870932;
    let list : Option Nat := some 123145302441984;
    let op : Nat := bits w 7 0;
    let h : Nat := bits w 31 16;
    let x : State × CtxOut := s.ctxOp e w list;
    s.handleCheck e h = Pt.OK ∧ op = 20 ∧ (x.fst.eng e).lines[0]?.isSome = true) ∧
    (let s : State := st09 0;
    let e : EngIx := 0;
    let stat : Nat := Reg.PT_CMD_STATUS e.val;
    let r : Req := Req.host 0 0;
    (s.gate r (Reg.PT_CMD e.val) 1).snd = true ∧
      let a : State := entered s r (Reg.PT_CMD e.val) 1;
      let w : Nat := s.cmdArgs e.val;
      let x : State × CtxOut := a.ctxOp e.val w (a.cmdList e.val);
      bits w 7 0 = 16 ∧
        a.flag stat Fld.PT_CMD_STATUS.BUSY = false ∧
          (a.eng e.val).drain = none ∧ (a.eng e.val).ptCmd = none ∧ pagedArgsOk w = true ∧ x.snd.drainFrom = none) ∧
    (let s : State := st09 5;
    let e : EngIx := 0;
    let stat : Nat := Reg.PT_CMD_STATUS e.val;
    let r : Req := Req.host 0 0;
    (s.gate r (Reg.PT_CMD e.val) 1).snd = true ∧
      let a : State := entered s r (Reg.PT_CMD e.val) 1;
      let w : Nat := s.cmdArgs e.val;
      bits w 7 0 = 16 ∧ a.flag stat Fld.PT_CMD_STATUS.BUSY = true) ∧
    (let s : State := st09 0;
    let e : EngIx := 0;
    let q : QueueIx := 0;
    let ix : Fin 65536 := 0;
    Option.any
        (fun (f : Flight) =>
          decide
            (f.op = 3 ∧
              f.subop = 16 ∧
                f.code = 0 ∧
                  f.opDone = false ∧
                    (s.eng e.val).drain = none ∧
                      (s.eng e.val).ptCmd = none ∧
                        f.pagedOk = true ∧
                          bit f.args 9 = false ∧
                            let x : State × CtxOut := s.ctxOp e.val f.args (s.descList e.val f);
                            x.snd.drainFrom = none))
        (s.flight e.val q.val ix.val) =
      true) ∧
    (let s : State := st09 2;
    let e : EngIx := 0;
    let q : QueueIx := 0;
    let ix : Fin 65536 := 0;
    Option.any
        (fun (f : Flight) =>
          decide
            (f.op = 3 ∧
              f.subop = 18 ∧
                f.code = 0 ∧
                  f.opDone = false ∧
                    (s.eng e.val).drain = none ∧
                      (s.eng e.val).ptCmd = none ∧
                        f.pagedOk = true ∧
                          bit f.args 9 = false ∧
                            let x : State × CtxOut := s.ctxOp e.val f.args (s.descList e.val f);
                            x.snd.drainFrom.isSome = true))
        (s.flight e.val q.val ix.val) =
      true) ∧
    (let s : State := st09 2;
    let e : EngIx := 0;
    let stat : Nat := Reg.PT_CMD_STATUS e.val;
    let r : Req := Req.host 0 0;
    (s.gate r (Reg.PT_CMD e.val) 1).snd = true ∧
      let a : State := entered s r (Reg.PT_CMD e.val) 1;
      let w : Nat := s.cmdArgs e.val;
      let x : State × CtxOut := a.ctxOp e.val w (a.cmdList e.val);
      bits w 7 0 = 18 ∧
        a.flag stat Fld.PT_CMD_STATUS.BUSY = false ∧
          (a.eng e.val).drain = none ∧
            (a.eng e.val).ptCmd = none ∧ pagedArgsOk w = true ∧ x.snd.drainFrom.isSome = true) ∧
    (let s : State := st09 6;
    let e : EngIx := 0;
    Option.any
        (fun (d : CtxDrain) =>
          decide (∃ (f : Flight), f ∈ (s.eng e.val).flights ∧ f.through (d.handle % 4096) d.fromPage = true))
        (s.eng e.val).drain =
      true) ∧
    (let s : State := st09 7;
    let e : EngIx := 0;
    Option.any
        (fun (d : CtxDrain) =>
          decide
            ((∀ (f : Flight), f ∈ (s.eng e.val).flights → f.through (d.handle % 4096) d.fromPage = false) ∧
              (s.eng e.val).ptCmd = none ∧ d.flight = none))
        (s.eng e.val).drain =
      true) := by
  refine ⟨?_, ?_, ?_, ?_, ?_, ?_, ?_, ?_, ?_, ?_, ?_, ?_, ?_, ?_, ?_, ?_, ?_, ?_, ?_, ?_, ?_⟩ <;> decide +kernel

theorem witness_PagedPiecesTranslateAndMove :
    (let s : State := st09 0;
    let e : EngIx := 0;
    let q : QueueIx := 0;
    let ix : Fin 65536 := 3;
    Option.any
        (fun (f : Flight) =>
          decide
            (f.op = 3 ∧
              f.open' = true ∧
                let o : Nat := f.paged.fst;
                let page : Nat := o / 65536;
                let id : Nat := bits f.args 27 16;
                let entry : List Byte → Nat := fun (l : List Byte) => leAt l (4 * (page % 16)) 4;
                subopMoves f.subop = true ∧
                  f.xlat = none ∧
                    f.waiting = false ∧
                      s.walkCheck e.val f = Pt.OK ∧
                        Option.any (fun (l : ListLine) => decide (entry l.bytes = 4294967295))
                            (List.find? (fun (l : ListLine) => l.ctx == id && l.line == page / 16)
                              (s.eng e.val).lines) =
                          true))
        (s.flight e.val q.val ix.val) =
      true) ∧
    (let s : State := st09 0;
    let e : EngIx := 0;
    let q : QueueIx := 0;
    let ix : Fin 65536 := 4;
    Option.any
        (fun (f : Flight) =>
          decide
            (f.op = 3 ∧
              f.open' = true ∧
                let o : Nat := f.paged.fst;
                let page : Nat := o / 65536;
                let id : Nat := bits f.args 27 16;
                let entry : List Byte → Nat := fun (l : List Byte) => leAt l (4 * (page % 16)) 4;
                subopMoves f.subop = true ∧
                  f.xlat = none ∧
                    f.waiting = false ∧
                      s.walkCheck e.val f = Pt.OK ∧
                        Option.any
                            (fun (l : ListLine) =>
                              decide (entry l.bytes ≠ 4294967295 ∧ s.viewHolds (entry l.bytes * 65536) 65536 = false))
                            (List.find? (fun (l : ListLine) => l.ctx == id && l.line == page / 16)
                              (s.eng e.val).lines) =
                          true))
        (s.flight e.val q.val ix.val) =
      true) ∧
    (let s : State := st09 0;
    let e : EngIx := 0;
    let q : QueueIx := 0;
    let ix : Fin 65536 := 1;
    Option.any
        (fun (f : Flight) =>
          decide
            (f.op = 3 ∧
              f.open' = true ∧
                let o : Nat := f.paged.fst;
                let page : Nat := o / 65536;
                let id : Nat := bits f.args 27 16;
                let entry : List Byte → Nat := fun (l : List Byte) => leAt l (4 * (page % 16)) 4;
                subopMoves f.subop = true ∧
                  f.xlat = none ∧
                    f.waiting = false ∧
                      s.walkCheck e.val f = Pt.OK ∧
                        Option.any
                            (fun (l : ListLine) =>
                              decide (entry l.bytes ≠ 4294967295 ∧ s.viewHolds (entry l.bytes * 65536) 65536 = true))
                            (List.find? (fun (l : ListLine) => l.ctx == id && l.line == page / 16)
                              (s.eng e.val).lines) =
                          true))
        (s.flight e.val q.val ix.val) =
      true) ∧
    (let s : State := st09 0;
    let e : EngIx := 0;
    let q : QueueIx := 0;
    let ix : Fin 65536 := 5;
    Option.any
        (fun (f : Flight) =>
          decide
            (f.op = 3 ∧
              f.open' = true ∧
                let o : Nat := f.paged.fst;
                let page : Nat := o / 65536;
                let id : Nat := bits f.args 27 16;
                subopMoves f.subop = true ∧
                  f.xlat = none ∧
                    f.waiting = false ∧
                      s.walkCheck e.val f = Pt.OK ∧
                        List.find? (fun (l : ListLine) => l.ctx == id && l.line == page / 16) (s.eng e.val).lines =
                            none ∧
                          (s.eng e.val).misses.contains (id, page / 16) = false ∧
                            (s.eng e.val).misses.length < 16))
        (s.flight e.val q.val ix.val) =
      true) ∧
    (let s : State := st09 2;
    let e : EngIx := 0;
    let q : QueueIx := 0;
    let ix : Fin 65536 := 5;
    Option.any
        (fun (f : Flight) =>
          decide
            (f.op = 3 ∧
              f.open' = true ∧
                let o : Nat := f.paged.fst;
                let page : Nat := o / 65536;
                let id : Nat := bits f.args 27 16;
                subopMoves f.subop = true ∧
                  f.xlat = none ∧
                    f.waiting = false ∧
                      s.walkCheck e.val f = Pt.OK ∧
                        List.find? (fun (l : ListLine) => l.ctx == id && l.line == page / 16) (s.eng e.val).lines =
                            none ∧
                          (s.eng e.val).misses.contains (id, page / 16) = false ∧
                            16 ≤ (s.eng e.val).misses.length))
        (s.flight e.val q.val ix.val) =
      true) ∧
    (let s : State := st09 0;
    let e : EngIx := 0;
    let q : QueueIx := 0;
    let ix : Fin 65536 := 6;
    Option.any
        (fun (f : Flight) =>
          decide
            (f.op = 3 ∧
              f.open' = true ∧
                subopMoves f.subop = true ∧ f.xlat = none ∧ f.waiting = false ∧ s.walkCheck e.val f ≠ Pt.OK))
        (s.flight e.val q.val ix.val) =
      true) ∧
    (let s : State := st09 1;
    let e : EngIx := 0;
    let q : QueueIx := 0;
    let ix : Fin 65536 := 1;
    Option.any
        (fun (f : Flight) =>
          decide
            (f.op = 3 ∧
              f.open' = true ∧
                Option.any
                    (fun (y : Nat × Nat) =>
                      decide
                        (let a : Nat := y.fst;
                        let x : Nat × Nat × Nat := f.next;
                        let r : State × Nat × List Byte := s.memRead a x.snd.snd (some e.val);
                        let s1 : State := r.fst;
                        r.snd.fst = St.OK ∧
                          let bs : List Byte := r.snd.snd;
                          let r : State × Nat × Nat := s1.dstWrite e.val f.dstSpace x.snd.fst f.peer bs f.counter;
                          r.snd.fst = St.OK ∧ f.subop = 1))
                    f.xlat =
                  true))
        (s.flight e.val q.val ix.val) =
      true) ∧
    (let s : State := st09 1;
    let e : EngIx := 0;
    let q : QueueIx := 0;
    let ix : Fin 65536 := 2;
    Option.any
        (fun (f : Flight) =>
          decide
            (f.op = 3 ∧
              f.open' = true ∧
                Option.any
                    (fun (y : Nat × Nat) =>
                      decide
                        (let a : Nat := y.fst;
                        let x : Nat × Nat × Nat := f.next;
                        let code : Fin 16 := 0;
                        let data : List Byte := [];
                        Option.any
                            (fun (y : State × Nat × List Byte) =>
                              decide
                                (let s1 : State := y.fst;
                                y.snd.fst = St.OK ∧
                                  let bs : List Byte := y.snd.snd;
                                  let r : State × Nat × Nat := s1.dstWrite e.val 0 a f.peer bs f.counter;
                                  r.snd.fst = St.OK ∧ f.subop = 2))
                            (s.srcRead e.val f.srcSpace x.fst x.snd.snd f.peer
                              { code := code.val, data := data : Far }) =
                          true))
                    f.xlat =
                  true))
        (s.flight e.val q.val ix.val) =
      true) ∧
    (let s : State := st09 4;
    let e : EngIx := 0;
    let q : QueueIx := 0;
    let ix : Fin 65536 := 3;
    Option.any
        (fun (f : Flight) =>
          decide
            (f.op = 3 ∧
              f.open' = true ∧
                let o : Nat := f.paged.fst;
                let page : Nat := o / 65536;
                let id : Nat := bits f.args 27 16;
                let entry : List Byte → Nat := fun (l : List Byte) => leAt l (4 * (page % 16)) 4;
                let n : Fin 4096 := 0;
                let r : State × Nat × List Byte :=
                  (s.onEng e.val fun (g : Engine) =>
                        { g with misses := List.filter (fun (x : Nat × Nat) => x != (id, n.val)) g.misses }).memRead
                    ((s.ctx e.val id).list + 64 * n.val) 64 (some e.val);
                let s2 : State := r.fst;
                r.snd.fst = St.OK ∧
                  let bs : List Byte := r.snd.snd;
                  f.waiting = true ∧
                    page / 16 = n.val ∧
                      (s.eng e.val).misses.contains (id, n.val) = true ∧
                        let c : Ctx := s.ctx e.val id;
                        List.filter
                              (fun (f : Flight) =>
                                f.waiting && bits f.args 27 16 == id && f.paged.fst / 65536 / 16 == n.val)
                              (s.eng e.val).flights =
                            [f] ∧
                          c.bound = true ∧ s2.walkCheck e.val f = Pt.OK ∧ entry bs = 4294967295))
        (s.flight e.val q.val ix.val) =
      true) ∧
    (let s : State := st09 5;
    let e : EngIx := 0;
    let q : QueueIx := 0;
    let ix : Fin 65536 := 4;
    Option.any
        (fun (f : Flight) =>
          decide
            (f.op = 3 ∧
              f.open' = true ∧
                let o : Nat := f.paged.fst;
                let page : Nat := o / 65536;
                let id : Nat := bits f.args 27 16;
                let entry : List Byte → Nat := fun (l : List Byte) => leAt l (4 * (page % 16)) 4;
                let n : Fin 4096 := 0;
                let r : State × Nat × List Byte :=
                  (s.onEng e.val fun (g : Engine) =>
                        { g with misses := List.filter (fun (x : Nat × Nat) => x != (id, n.val)) g.misses }).memRead
                    ((s.ctx e.val id).list + 64 * n.val) 64 (some e.val);
                let s2 : State := r.fst;
                r.snd.fst = St.OK ∧
                  let bs : List Byte := r.snd.snd;
                  f.waiting = true ∧
                    page / 16 = n.val ∧
                      (s.eng e.val).misses.contains (id, n.val) = true ∧
                        let c : Ctx := s.ctx e.val id;
                        List.filter
                              (fun (f : Flight) =>
                                f.waiting && bits f.args 27 16 == id && f.paged.fst / 65536 / 16 == n.val)
                              (s.eng e.val).flights =
                            [f] ∧
                          c.bound = true ∧
                            s2.walkCheck e.val f = Pt.OK ∧
                              entry bs ≠ 4294967295 ∧ s.viewHolds (entry bs * 65536) 65536 = false))
        (s.flight e.val q.val ix.val) =
      true) ∧
    (let s : State := st09 3;
    let e : EngIx := 0;
    let q : QueueIx := 0;
    let ix : Fin 65536 := 1;
    Option.any
        (fun (f : Flight) =>
          decide
            (f.op = 3 ∧
              f.open' = true ∧
                let o : Nat := f.paged.fst;
                let page : Nat := o / 65536;
                let id : Nat := bits f.args 27 16;
                let entry : List Byte → Nat := fun (l : List Byte) => leAt l (4 * (page % 16)) 4;
                let n : Fin 4096 := 0;
                let r : State × Nat × List Byte :=
                  (s.onEng e.val fun (g : Engine) =>
                        { g with misses := List.filter (fun (x : Nat × Nat) => x != (id, n.val)) g.misses }).memRead
                    ((s.ctx e.val id).list + 64 * n.val) 64 (some e.val);
                let s2 : State := r.fst;
                r.snd.fst = St.OK ∧
                  let bs : List Byte := r.snd.snd;
                  f.waiting = true ∧
                    page / 16 = n.val ∧
                      (s.eng e.val).misses.contains (id, n.val) = true ∧
                        let c : Ctx := s.ctx e.val id;
                        List.filter
                              (fun (f : Flight) =>
                                f.waiting && bits f.args 27 16 == id && f.paged.fst / 65536 / 16 == n.val)
                              (s.eng e.val).flights =
                            [f] ∧
                          c.bound = true ∧
                            s2.walkCheck e.val f = Pt.OK ∧
                              entry bs ≠ 4294967295 ∧ s.viewHolds (entry bs * 65536) 65536 = true))
        (s.flight e.val q.val ix.val) =
      true) := by
  refine ⟨?_, ?_, ?_, ?_, ?_, ?_, ?_, ?_, ?_, ?_, ?_⟩ <;> decide +kernel

/-! ### Value studies (10_value_studies_counters) -/

/-- The states for value studies and stall counters: READY or not, an export under way, and where the export goes. -/
def st10 : Nat → State
  | 0 => put panel [(Reg.VS_STATUS 0, Fld.VS_STATUS.READY, 1), (Reg.VS_CTRL 0, Fld.VS_CTRL.EXPORT_EN, 1)]
  | 1 => put { panel with limit := 16 } [(Reg.VS_STATUS 0, Fld.VS_STATUS.READY, 0), (Reg.VS_STATUS 0, Fld.VS_STATUS.EXP_BUSY, 1), (Reg.VS_CTRL 0, Fld.VS_CTRL.EXPORT_EN, 1)]
  | _ => put panel [(Reg.VS_STATUS 0, Fld.VS_STATUS.READY, 0), (Reg.VS_STATUS 0, Fld.VS_STATUS.EXP_BUSY, 1), (Reg.VS_EXPORT_ADDR 0 1, Fld.VS_EXPORT_ADDR.ADDR_HI, 15), (Reg.VS_HST 0 1, ⟨31, 0⟩, 5)]

theorem witness_ValueStudiesAndStallCounters :
    (let s : State := st10 0;
    let r : Req := Req.host 0 0;
    let e : EngIx := 0;
    let v : Word := 1#32;
    (s.gate r (Reg.VS_CTRL ↑e) (BitVec.toNat v)).snd = true ∧
      bit (BitVec.toNat v) 0 = true ∧
        let a : State := entered s r (Reg.VS_CTRL ↑e) (BitVec.toNat v);
        a.vsOpen ↑e = true) ∧
    (let s : State := st10 1;
    let e : EngIx := 0;
    let stat : Nat := Reg.VS_STATUS ↑e;
    let r : State × Nat := s.vsWrite (↑e) 4;
    let st : Nat := r.snd;
    s.flag stat Fld.VS_STATUS.EXP_BUSY = true ∧ st < 16) ∧
    (let s : State := st10 0;
    let r : Req := Req.host 0 0;
    let e : EngIx := 0;
    let v : Word := 1#32;
    (s.gate r (Reg.VS_MISSED ↑e) (BitVec.toNat v)).snd = true) ∧
    (let s : State := st10 0;
    let r : Req := Req.host 0 0;
    let e : EngIx := 0;
    let v : Word := 2#32;
    (s.gate r (Reg.VS_STALL_CTRL ↑e) (BitVec.toNat v)).snd = true ∧
      bit (BitVec.toNat v) 1 = true ∧
        let counter : Nat → Prop := fun (x : Nat) =>
          (∃ (n : Nat), n < 10 ∧ x = Reg.VS_HST (↑e) n) ∨
            (∃ (n : Nat), n < 12 ∧ x = Reg.VS_RST (↑e) n) ∨
              ∃ (m : Nat), m < 5 ∧ ∃ (c : Nat), c < 864 ∧ ∃ (n : Nat), n < 18 ∧ x = Reg.CEL_STALL (↑e) m c n;
        let x : Nat := 17563908;
        counter x) ∧
    (let s : State := st10 1;
    let r : Req := Req.host 0 0;
    let e : EngIx := 0;
    let v : Word := 1#32;
    (s.gate r (Reg.VS_CTRL ↑e) (BitVec.toNat v)).snd = true ∧
      bit (BitVec.toNat v) 0 = true ∧
        let a : State := entered s r (Reg.VS_CTRL ↑e) (BitVec.toNat v);
        a.vsOpen ↑e = false) ∧
    (let s : State := st10 1;
    let e : EngIx := 0;
    let stat : Nat := Reg.VS_STATUS ↑e;
    s.flag stat Fld.VS_STATUS.READY = false ∧ s.flag (Reg.VS_CTRL ↑e) Fld.VS_CTRL.EXPORT_EN = true) ∧
    (let s : State := st10 2;
    let e : EngIx := 0;
    let stat : Nat := Reg.VS_STATUS ↑e;
    s.flag stat Fld.VS_STATUS.READY = false ∧ s.flag (Reg.VS_CTRL ↑e) Fld.VS_CTRL.EXPORT_EN = false) := by
  refine ⟨?_, ?_, ?_, ?_, ?_, ?_, ?_⟩ <;> decide +kernel

/-! ### Panel networks (11_panel_networks) -/

/-- A routing image in which engine 0 has the words given, by position; every entry edge engine is e00. -/
def routesOf (w : List Nat) : List Byte := leBytes 0x490 0 ++ w.flatMap (leBytes 4)

/-- The same outputs, primary and alternate, for the three networks. -/
def ways (a b : Nat) : Nat := (a + 8 * b) * 0x1041

/-- Packets at engine 0 and on the ring, the routes of engine 0, its links, its bucket, its barrier channel and its abort lines. -/
def netPanel (link0 spare groups rate lvl bar : Nat) (run plan : Bool) : State :=
  let s := { panel with now := 10000, annDown := [1, 48], annUp := [7], adoptQ := [(3, 9)], edgeFeid := [(10, 3), (11, 4)], edgeDown := [5, 7], members := [0, 1], ground := { panel.ground with routes := routesOf ([ways 5 5, ways 1 0, ways 2 0, ways 2 2] ++ List.replicate 44 (ways 1 1) ++ List.replicate 16 (ways 4 4)) }, packets := [{ net := 0, src := 0, dst := 5, bytes := 64, at' := 0 }, { net := 1, src := 3, dst := 5, bytes := 64, at' := 0 },
      { net := 1, src := 3, dst := 0, bytes := 64, at' := 0 }, { net := 0, src := 3, dst := 0, bytes := 64, at' := 0 },
      { net := 0, src := 0, dst := 48, bytes := 64, at' := 0 }, { net := 0, src := 0, dst := 1, bytes := 64, at' := 0 },
      { net := 0, src := 0, dst := 2, bytes := 64, at' := 0 }, { net := 0, src := 0, dst := 3, bytes := 64, at' := 0 },
      { net := 0, src := 0, dst := 48, bytes := 64, at' := 0, ring := some (0, true) }, { net := 0, src := 0, dst := 48, bytes := 64, at' := 0, ring := some (3, true) },
      { net := 0, src := 49, dst := 8, bytes := 64, at' := 0, ring := some (1, false) }] }
  let s := s.onEng 0 fun g => { g with bucket := (lvl, 10000), abortPart := true, abortPanel := run, canvas := { g.canvas with running := run, secs := if plan then [planSec] else [] } }
  put s [(Reg.NET_LINK 0 0, Fld.NET_LINK.STATE, link0), (Reg.NET_LINK 0 1, Fld.NET_LINK.STATE, 2), (Reg.NET_LINK 0 0, Fld.NET_LINK.SPARE_USED, spare),
    (Reg.NET_LINK 0 0, Fld.NET_LINK.GROUPS, groups), (Reg.NET_LINK 0 4, Fld.NET_LINK.STATE, 2), (Reg.NET_INJ 0, Fld.NET_INJ.RATE, rate),
    (Reg.NET_WDOG 0, Fld.NET_WDOG.ENABLE, 1), (Reg.NET_BAR_STATUS 0, Fld.NET_BAR_STATUS.ARRIVED, bar % 2),
    (Reg.NET_BAR_STATUS 1, Fld.NET_BAR_STATUS.ARRIVED, bar % 2), (Reg.NET_BAR_STATUS 0, Fld.NET_BAR_STATUS.PENDING, bar / 2 % 2),
    (Reg.ENG_CANVAS_STATUS 0, Fld.ENG_CANVAS_STATUS.STATE, if run then 3 else 2)]

/-- The states for the panel networks. -/
def st11 : Nat → State
  | 0 => netPanel 2 0 8 0 0 0 true false
  | 1 => netPanel 3 1 8 1 4096 1 true true
  | 2 => netPanel 2 1 8 1 0 3 false false
  | _ => { netPanel 4 0 8 0 0 0 false false with members := [] }

theorem witness_PacketsCrossThePanelNetworks :
    (let s : State := st11 0;
    let i : Fin 65536 := 0;
    Option.any
        (fun (p : Packet) =>
          decide
            (let e : Nat := p.at';
            p.ring = none ∧ s.packetDown e p = true ∧ p.net = 0))
        s.packets[↑i]? =
      true) ∧
    (let s : State := st11 0;
    let i : Fin 65536 := 1;
    Option.any
        (fun (p : Packet) =>
          decide
            (let e : Nat := p.at';
            p.ring = none ∧ s.packetDown e p = true ∧ p.net ≠ 0))
        s.packets[↑i]? =
      true) ∧
    (let s : State := st11 0;
    let e : EngIx := 0;
    let net : NetIx := 0;
    s.engineUp ↑e = true ∧ (↑net ≠ 0 ∨ s.fld (Reg.NET_INJ ↑e) Fld.NET_INJ.RATE = 0)) ∧
    (let s : State := st11 0;
    let e : EngIx := 0;
    let n : Fin 8 := 0;
    let reply : Bool := false;
    let group : Fin 9 := 1;
    (s.fld (Reg.NET_LINK ↑e ↑n) Fld.NET_LINK.STATE = 2 ∨ s.fld (Reg.NET_LINK ↑e ↑n) Fld.NET_LINK.STATE = 3) ∧
      let a : Nat := Reg.NET_LINK ↑e ↑n;
      let u : State :=
        ((s.netFault (↑e) Fld.NET_FAULT.LANE_FAIL 3 (b2n reply) (↑n) 0).fault Src.NET_LANE_FAIL ↑e ↑n).queueDefect
          { kind := 5, engine := ↑e, unit := ↑n, location := b2n reply + 2 * ↑group, source := 2 : Defect };
      ↑n < 4 ∧ u.flag a Fld.NET_LINK.SPARE_USED = false) ∧
    (let s : State := st11 0;
    let e : EngIx := 0;
    let n : Fin 8 := 4;
    (s.fld (Reg.NET_LINK ↑e ↑n) Fld.NET_LINK.STATE = 2 ∨ s.fld (Reg.NET_LINK ↑e ↑n) Fld.NET_LINK.STATE = 3) ∧ 4 ≤ ↑n) ∧
    (let s : State := st11 0;
    let e : EngIx := 0;
    s.engineUp ↑e = true ∧ s.flag (Reg.NET_WDOG ↑e) Fld.NET_WDOG.ENABLE = true) ∧
    (let s : State := st11 0;
    let i : Fin 65536 := 2;
    Option.any
        (fun (p : Packet) =>
          decide
            (let e : Nat := p.at';
            let ways : Nat × Nat := outputs (s.routeWord e p.dst) p.net;
            p.ring = none ∧ s.packetDown e p = false ∧ ways.fst = 5 ∧ p.net = 1 ∧ p.dst < 48))
        s.packets[↑i]? =
      true) ∧
    (let s : State := st11 0;
    let i : Fin 65536 := 3;
    Option.any
        (fun (p : Packet) =>
          decide
            (let e : Nat := p.at';
            let ways : Nat × Nat := outputs (s.routeWord e p.dst) p.net;
            p.ring = none ∧ s.packetDown e p = false ∧ ways.fst = 5 ∧ (p.net ≠ 1 ∨ 48 ≤ p.dst)))
        s.packets[↑i]? =
      true) ∧
    (let s : State := st11 0;
    let i : Fin 65536 := 4;
    let credit : Bool := true;
    Option.any
        (fun (p : Packet) =>
          decide
            (let e : Nat := p.at';
            let ways : Nat × Nat := outputs (s.routeWord e p.dst) p.net;
            p.ring = none ∧
              s.packetDown e p = false ∧
                Option.any
                    (fun (a : Nat) =>
                      decide (Option.any (fun (b : Nat) => decide (ways.fst = 4 ∧ credit = true)) (stopOf p.dst) = true))
                    (stopOf e) =
                  true))
        s.packets[↑i]? =
      true) ∧
    (let s : State := st11 0;
    let i : Fin 65536 := 5;
    let credit : Bool := true;
    Option.any
        (fun (p : Packet) =>
          decide
            (let e : Nat := p.at';
            let ways : Nat × Nat := outputs (s.routeWord e p.dst) p.net;
            p.ring = none ∧
              s.packetDown e p = false ∧ ways.fst < 4 ∧ s.linkUp e p.net ways.fst = true ∧ p.alt = false ∧ credit = true))
        s.packets[↑i]? =
      true) ∧
    (let s : State := st11 0;
    let i : Fin 65536 := 6;
    let credit : Bool := true;
    Option.any
        (fun (p : Packet) =>
          decide
            (let e : Nat := p.at';
            let ways : Nat × Nat := outputs (s.routeWord e p.dst) p.net;
            p.ring = none ∧
              s.packetDown e p = false ∧
                ways.fst < 4 ∧
                  s.linkUp e p.net ways.fst = false ∧ ways.snd < 4 ∧ s.linkUp e p.net ways.snd = true ∧ credit = true))
        s.packets[↑i]? =
      true) ∧
    (let s : State := st11 0;
    let i : Fin 65536 := 7;
    Option.any
        (fun (p : Packet) =>
          decide
            (let e : Nat := p.at';
            let ways : Nat × Nat := outputs (s.routeWord e p.dst) p.net;
            p.ring = none ∧
              s.packetDown e p = false ∧
                ways.fst < 4 ∧ s.linkUp e p.net ways.fst = false ∧ (4 ≤ ways.snd ∨ s.linkUp e p.net ways.snd = false)))
        s.packets[↑i]? =
      true) ∧
    (let s : State := st11 0;
    let i : Fin 65536 := 8;
    let credit : Bool := true;
    Option.any
        (fun (p : Packet) =>
          decide
            (Option.any
                (fun (y : Nat × Bool) =>
                  decide
                    (let a : Nat := y.fst;
                    let stop : Nat := if 48 ≤ p.dst then p.dst else (s.entryStop p.src p.dst).fst;
                    ringStops.getD a 0 ≠ stop ∧ credit = true))
                p.ring =
              true))
        s.packets[↑i]? =
      true) ∧
    (let s : State := st11 0;
    let i : Fin 65536 := 9;
    Option.any
        (fun (p : Packet) =>
          decide
            (Option.any
                (fun (y : Nat × Bool) =>
                  decide
                    (let a : Nat := y.fst;
                    let stop : Nat := if 48 ≤ p.dst then p.dst else (s.entryStop p.src p.dst).fst;
                    ringStops.getD a 0 = stop ∧ 48 ≤ p.dst))
                p.ring =
              true))
        s.packets[↑i]? =
      true) ∧
    (let s : State := st11 0;
    let i : Fin 65536 := 10;
    let credit : Bool := true;
    Option.any
        (fun (p : Packet) =>
          decide
            (Option.any
                (fun (y : Nat × Bool) =>
                  decide
                    (let a : Nat := y.fst;
                    let stop : Nat := if 48 ≤ p.dst then p.dst else (s.entryStop p.src p.dst).fst;
                    ringStops.getD a 0 = stop ∧ stop < 48 ∧ s.posDown stop = false ∧ credit = true))
                p.ring =
              true))
        s.packets[↑i]? =
      true) ∧
    (let s : State := st11 1;
    let e : EngIx := 0;
    let net : NetIx := 0;
    let bytes : Fin 4097 := 64;
    let reply : Fin 4097 := 64;
    let charge : Nat := min 4096 (max ↑bytes ↑reply);
    s.engineUp ↑e = true ∧ ↑net = 0 ∧ s.fld (Reg.NET_INJ ↑e) Fld.NET_INJ.RATE ≠ 0 ∧ charge ≤ s.bucketNow ↑e) ∧
    (let s : State := st11 1;
    let e : EngIx := 0;
    let n : Fin 8 := 0;
    let reply : Bool := false;
    let group : Fin 9 := 1;
    (s.fld (Reg.NET_LINK ↑e ↑n) Fld.NET_LINK.STATE = 2 ∨ s.fld (Reg.NET_LINK ↑e ↑n) Fld.NET_LINK.STATE = 3) ∧
      let a : Nat := Reg.NET_LINK ↑e ↑n;
      let u : State :=
        ((s.netFault (↑e) Fld.NET_FAULT.LANE_FAIL 3 (b2n reply) (↑n) 0).fault Src.NET_LANE_FAIL ↑e ↑n).queueDefect
          { kind := 5, engine := ↑e, unit := ↑n, location := b2n reply + 2 * ↑group, source := 2 : Defect };
      ↑n < 4 ∧ u.flag a Fld.NET_LINK.SPARE_USED = true ∧ 4 ≤ u.fld a Fld.NET_LINK.GROUPS - 1) ∧
    (let s : State := st11 2;
    let e : EngIx := 0;
    let net : NetIx := 0;
    let bytes : Fin 4097 := 64;
    let reply : Fin 4097 := 64;
    let charge : Nat := min 4096 (max ↑bytes ↑reply);
    s.engineUp ↑e = true ∧ ↑net = 0 ∧ s.fld (Reg.NET_INJ ↑e) Fld.NET_INJ.RATE ≠ 0 ∧ s.bucketNow ↑e < charge) := by
  refine ⟨?_, ?_, ?_, ?_, ?_, ?_, ?_, ?_, ?_, ?_, ?_, ?_, ?_, ?_, ?_, ?_, ?_, ?_⟩ <;> decide +kernel

theorem witness_PositionsBarriersAndAborts :
    (let s : State := st11 0;
    let p : Fin 64 := 48;
    ↑p ∈ s.annDown ∧ 48 ≤ ↑p) ∧
    (let s : State := st11 0;
    let p : Fin 64 := 1;
    ↑p ∈ s.annDown ∧
      ↑p < 48 ∧
        Option.any
            (fun (q : PartRec) =>
              decide
                (Option.any (fun (x : Nat) => decide (s.inBarrier ↑p = true ∧ x ≠ ↑p ∧ s.inBarrier x = true)) q.list[0]? =
                  true))
            (s.partOf ↑p) =
          true) ∧
    (let s : State := st11 0;
    let p : Fin 64 := 7;
    ↑p ∈ s.annUp ∧ ¬↑p ∈ s.annDown) ∧
    (let s : State := st11 0;
    Option.any
        (fun (y : Nat × Nat) =>
          decide
            (let x : Nat := y.fst;
            x < 48 ∧
              let f : Nat := 10;
              (SMap.find? s.edgeFeid f).isSome = true))
        s.adoptQ.head? =
      true) ∧
    (let s : State := st11 3;
    let r : Req := Req.host 0 0;
    let e : EngIx := 0;
    let v : Word := 1#32;
    (s.gate r (Reg.NET_BAR_ARRIVE ↑e) (BitVec.toNat v)).snd = true ∧
      bit (BitVec.toNat v) 0 = true ∧
        let a : State := entered s r (Reg.NET_BAR_ARRIVE ↑e) (BitVec.toNat v);
        a.inBarrier ↑e = false) ∧
    (let s : State := st11 0;
    let r : Req := Req.host 0 0;
    let e : EngIx := 0;
    let v : Word := 1#32;
    (s.gate r (Reg.NET_BAR_ARRIVE ↑e) (BitVec.toNat v)).snd = true ∧
      bit (BitVec.toNat v) 0 = true ∧
        let a : State := entered s r (Reg.NET_BAR_ARRIVE ↑e) (BitVec.toNat v);
        a.inBarrier ↑e = true) ∧
    (let s : State := st11 0;
    let c : Fin 16 := 3;
    List.find? (fun (x : PartRec) => x.id == ↑c) s.ground.parts = none) ∧
    (let s : State := st11 0;
    let r : Req := Req.host 0 0;
    let e : EngIx := 0;
    let v : Word := 1#32;
    (s.gate r (Reg.NET_ABORT ↑e) (BitVec.toNat v)).snd = true ∧
      bit (BitVec.toNat v) 0 = true ∧
        let a : State := entered s r (Reg.NET_ABORT ↑e) (BitVec.toNat v);
        Option.any (fun (q : PartRec) => decide (q.list[0]?.isSome = true)) (a.partOf ↑e) = true) ∧
    (let s : State := st11 0;
    let r : Req := Req.host 0 0;
    let e : EngIx := 0;
    let v : Word := 1#32;
    (s.gate r (Reg.NET_ABORT ↑e) (BitVec.toNat v)).snd = true ∧
      bit (BitVec.toNat v) 0 = true ∧
        let a : State := entered s r (Reg.NET_ABORT ↑e) (BitVec.toNat v);
        Option.any
            (fun (q : PartRec) =>
              decide
                (let x : Nat := 50;
                ¬x ∈ q.list))
            (a.partOf ↑e) =
          true) ∧
    (let s : State := st11 0;
    let e : EngIx := 0;
    ((s.eng ↑e).abortPart = true ∨ (s.eng ↑e).abortPanel = true) ∧ s.engineUp ↑e = true ∧ (s.eng ↑e).abortPart = true) ∧
    (let s : State := st11 0;
    let e : EngIx := 0;
    ((s.eng ↑e).abortPart = true ∨ (s.eng ↑e).abortPanel = true) ∧ s.engineUp ↑e = true ∧ (s.eng ↑e).abortPanel = true) ∧
    (let s : State := st11 0;
    let e : EngIx := 0;
    ((s.eng ↑e).abortPart = true ∨ (s.eng ↑e).abortPanel = true) ∧
      s.engineUp ↑e = true ∧ (s.cvState ↑e = Cv.RUNNING ∨ s.cvState ↑e = Cv.STOPPING) ∧ s.plan ↑e = none) ∧
    (let s : State := st11 1;
    let e : EngIx := 0;
    ((s.eng ↑e).abortPart = true ∨ (s.eng ↑e).abortPanel = true) ∧
      s.engineUp ↑e = true ∧ (s.cvState ↑e = Cv.RUNNING ∨ s.cvState ↑e = Cv.STOPPING) ∧ s.plan ↑e ≠ none) ∧
    (let s : State := st11 2;
    let e : EngIx := 0;
    ((s.eng ↑e).abortPart = true ∨ (s.eng ↑e).abortPanel = true) ∧
      s.engineUp ↑e = true ∧ ¬(s.cvState ↑e = Cv.RUNNING ∨ s.cvState ↑e = Cv.STOPPING)) ∧
    (let s : State := st11 1;
    let c : Fin 16 := 0;
    Option.any (fun (q : PartRec) => decide (s.barDue q = true ∧ (s.membersOf q)[0]?.isSome = true))
        (List.find? (fun (x : PartRec) => x.id == ↑c) s.ground.parts) =
      true) ∧
    (let s : State := st11 2;
    let r : Req := Req.host 0 0;
    let e : EngIx := 0;
    let v : Word := 1#32;
    (s.gate r (Reg.NET_BAR_ARRIVE ↑e) (BitVec.toNat v)).snd = true ∧
      bit (BitVec.toNat v) 0 = true ∧
        let a : State := entered s r (Reg.NET_BAR_ARRIVE ↑e) (BitVec.toNat v);
        a.inBarrier ↑e = true ∧ a.arrived ↑e = true ∧ a.barPending ↑e = true) := by
  refine ⟨?_, ?_, ?_, ?_, ?_, ?_, ?_, ?_, ?_, ?_, ?_, ?_, ?_, ?_, ?_, ?_⟩ <;> decide +kernel

/-! ### Clocks and periods (12_clocks_cadence) -/

/-- Engine 0 with its reference, its count off the master by `off` ticks, its misses and what droop leaves its clock. -/
def clockPanel (ref : Nat) (off : Int) (misses droop warned : Nat) (pend : Option Nat) : State :=
  let s := { panel with now := 20000, master := 25000 * 2 ^ 24, setPend := pend }.onEng 0 fun g => { g with
    count := (25000 * 2 ^ 24 + off * 2 ^ 24).toNat, clk := { g.clk with misses := misses, droop := droop, warns := [(20000, warned)] } }
  put s [(Reg.CAD_ENG_CLK 0, Fld.CAD_ENG_CLK.REF, ref), (Reg.CAD_ENG_CLK 3, Fld.CAD_ENG_CLK.REF, ref), (Reg.CAD_MARGIN_CFG, Fld.CAD_MARGIN_CFG.WARN_LIMIT, 64)]

/-- The master on beat source `src` in state `mode`, with the next expected beat at 20,000 ticks. -/
def beatPanel (src mode ticks missed : Nat) (plan : Bool) : State :=
  let s := { panel with master := ticks * 2 ^ 24, beat := { mode := mode, next := 2 } }.onEng 0 fun g => { g with
    canvas := { g.canvas with secs := if plan then [planSec] else [] } }
  put s [(Reg.CAD_BEAT_CFG, Fld.CAD_BEAT_CFG.SOURCE, src), (Reg.CAD_BEAT_PERIOD, Fld.CAD_BEAT_PERIOD.PERIOD, 10000),
    (Reg.CAD_BEAT_STAT, Fld.CAD_BEAT_STAT.MISSED, missed)]

/-- Engine 0 in the place of its two-phase period plan that `g` gives. -/
def planPanel (wait plan : Bool) (g : Sched) : State :=
  let s := { panel with master := 25000 * 2 ^ 24 }.onEng 0 fun x => { x with
    count := 25000 * 2 ^ 24, canvas := { x.canvas with secs := [planSec 1000 [(0, 0), (600, 2)]], waitPeriod := wait }, sched := g }
  put s [(Reg.CAD_ENG_PHASE 0, Fld.CAD_ENG_PHASE.PLAN, if plan then 1 else 0), (Reg.CAD_PART_PERIOD 0, ⟨31, 0⟩, 1000)]

/-- The states for clocks, beats and periods. -/
def st12 : Nat → State
  | 0 => clockPanel 0 (-5) 0 940 0 none
  | 1 => clockPanel 1 (-50) 3 827 63 (some 30000)
  | 2 => clockPanel 2 50 0 900 0 none
  | 3 => beatPanel 1 1 20004 0 false
  | 4 => beatPanel 1 2 20004 0 false
  | 5 => beatPanel 1 2 25000 0 false
  | 6 => beatPanel 2 1 20004 0 false
  | 7 => beatPanel 2 2 20004 7 false
  | 8 => beatPanel 2 4 25000 7 true
  | 9 => beatPanel 3 2 3000000 7 false
  | 10 => beatPanel 3 2 2000004 0 false
  | 11 => beatPanel 3 1 20004 0 false
  | 12 => planPanel true false { startAt := 25000, n := 25 }
  | 13 => planPanel true false { startAt := 26000, n := 26 }
  | 14 => planPanel false true { n := 24, phase := 0, start := 24000, target := 24600, workDone := true }
  | 15 => planPanel false true { n := 24, phase := 1, start := 24600, target := 25000, workDone := true }
  | 16 => planPanel false true { n := 24, phase := 1, start := 24600, target := 25000, workDone := true, realign := true }
  | 17 => planPanel false true { n := 24, phase := 1, start := 24600, target := 25001 }
  | _ => planPanel false true { n := 3, phase := 1, start := 24600, target := 25001 }

theorem witness_ClocksFollowReferenceAndBeat :
    (let s : State := st12 0;
    let e : EngIx := 0;
    let p : Bool := false;
    let a : Bool := false;
    s.refSel e.val = 0 ∧ p = false ∧ s.refUsable e.val true a = false) ∧
    (let s : State := st12 0;
    let e : EngIx := 0;
    (s.eng e.val).clk.locked = true) ∧
    (let s : State := st12 0;
    let e : EngIx := 0;
    let n : Fin 128 := 1;
    (s.eng e.val).clk.locked = true ∧ n.val ≠ 0) ∧
    (let s : State := st12 0;
    s.edgeMark < s.master / (10000 * 2 ^ 24) ∧ s.setPend = none) ∧
    (let s : State := st12 1;
    s.edgeMark < s.master / (10000 * 2 ^ 24) ∧
      Option.any (fun (x : Nat) => decide (s.ticks < x ∧ s.beatSrc = 0)) s.setPend = true) ∧
    (let s : State := st12 0;
    let e : EngIx := 0;
    let lost : Fin 281474976710656 := 0;
    s.edgeMark < s.master / (10000 * 2 ^ 24) ∧
      let d : Int := (Int.ofNat s.master) - (Int.ofNat (s.eng e.val).count);
      (s.eng e.val).clk.locked = true ∧ bit lost.val e.val = false ∧ d.natAbs ≤ 10 * 2 ^ 24) ∧
    (let s : State := st12 0;
    let e : EngIx := 0;
    let lost : Fin 281474976710656 := 1;
    s.edgeMark < s.master / (10000 * 2 ^ 24) ∧ bit lost.val e.val = true) ∧
    (let s : State := st12 0;
    let e : EngIx := 0;
    (s.eng e.val).clk.locked = true ∧ (s.eng e.val).clk.edgeAt + 15000 ≤ s.now) ∧
    (let s : State := st12 0;
    let r : Req := Req.host 0 0;
    let e : EngIx := 0;
    let v : Word := 0#32;
    (s.gate r (Reg.CAD_ENG_DROOP e.val) (BitVec.toNat v)).snd = true) ∧
    (let s : State := st12 0;
    let r : Req := Req.host 0 0;
    let e : EngIx := 0;
    let v : Word := 0#32;
    (s.gate r (Reg.CAD_ENG_MARGIN e.val) (BitVec.toNat v)).snd = true) ∧
    (let s : State := st12 0;
    let e : EngIx := 3;
    let p : Bool := false;
    let a : Bool := true;
    s.refSel e.val = 0 ∧ p = false ∧ s.refUsable e.val true a = true) ∧
    (let s : State := st12 1;
    let e : EngIx := 0;
    let p : Bool := true;
    let a : Bool := false;
    s.refSel e.val = 1 ∧ a = false ∧ s.refUsable e.val false p = true) ∧
    (let s : State := st12 1;
    let e : EngIx := 0;
    let p : Bool := true;
    s.refSel e.val ≠ 0 ∧ s.refUsable e.val false p = true) ∧
    (let s : State := st12 1;
    let e : EngIx := 0;
    let lost : Fin 281474976710656 := 0;
    s.edgeMark < s.master / (10000 * 2 ^ 24) ∧
      let d : Int := (Int.ofNat s.master) - (Int.ofNat (s.eng e.val).count);
      (s.eng e.val).clk.locked = true ∧ bit lost.val e.val = false ∧ 10 * 2 ^ 24 < d) ∧
    (let s : State := st12 2;
    let e : EngIx := 0;
    let lost : Fin 281474976710656 := 0;
    s.edgeMark < s.master / (10000 * 2 ^ 24) ∧
      let d : Int := (Int.ofNat s.master) - (Int.ofNat (s.eng e.val).count);
      (s.eng e.val).clk.locked = true ∧ bit lost.val e.val = false ∧ d < -(10 * 2 ^ 24)) ∧
    (let s : State := st12 2;
    let e : EngIx := 3;
    let p : Bool := false;
    let a : Bool := true;
    s.refSel e.val = 2 ∧ s.refUsable e.val false p = false ∧ s.refUsable e.val true a = true) ∧
    (let s : State := st12 0;
    let r : Req := Req.host 0 0;
    let v : Word := 7#32;
    (s.gate r Reg.CAD_BEAT_CFG (BitVec.toNat v)).snd = true ∧
      let src : Nat := bits (BitVec.toNat v) 2 0;
      4 ≤ src) ∧
    (let s : State := st12 0;
    let r : Req := Req.host 0 0;
    let v : Word := 0#32;
    (s.gate r Reg.CAD_BEAT_CFG (BitVec.toNat v)).snd = true ∧
      let src : Nat := bits (BitVec.toNat v) 2 0;
      src < 4 ∧ src = 0) ∧
    (let s : State := st12 0;
    let r : Req := Req.host 0 0;
    let v : Word := 0#32;
    let cnt : Nat := Reg.CAD_BEAT_CNT;
    (s.gate r cnt (BitVec.toNat v)).snd = true) ∧
    (let s : State := st12 0;
    let r : Req := Req.host 0 0;
    let v : Word := 0#32;
    let p : Fin 16 := 0;
    let i : Fin 3 := 0;
    Option.any
        (fun (q : PartRec) =>
          decide
            (let reg : Nat :=
              if i.val = 2 then Reg.CAD_PART_PERIOD p.val else Reg.CAD_PART_ORIGIN p.val i.val;
            let a : State := entered s r reg (BitVec.toNat v);
            (s.gate r reg (BitVec.toNat v)).snd = true ∧
              q.list.any a.gridHeld = false ∧
                q.ownedBy r = true ∧ (i.val = 2 → BitVec.toNat v = 0 ∨ 1000 ≤ BitVec.toNat v)))
        (List.find? (fun (x : PartRec) => x.id == p.val)
          (entered s r
                (if i.val = 2 then Reg.CAD_PART_PERIOD p.val else Reg.CAD_PART_ORIGIN p.val i.val)
                (BitVec.toNat v)).ground.parts) =
      true) ∧
    (let s : State := st12 0;
    let r : Req := Req.host 0 0;
    let v : Word := 1#32;
    let p : Fin 16 := 0;
    let i : Fin 3 := 2;
    Option.any
        (fun (q : PartRec) =>
          decide
            (let reg : Nat :=
              if i.val = 2 then Reg.CAD_PART_PERIOD p.val else Reg.CAD_PART_ORIGIN p.val i.val;
            let a : State := entered s r reg (BitVec.toNat v);
            (s.gate r reg (BitVec.toNat v)).snd = true ∧
              (q.list.any a.gridHeld = true ∨
                q.ownedBy r = false ∨ i.val = 2 ∧ BitVec.toNat v ≠ 0 ∧ BitVec.toNat v < 1000)))
        (List.find? (fun (x : PartRec) => x.id == p.val)
          (entered s r
                (if i.val = 2 then Reg.CAD_PART_PERIOD p.val else Reg.CAD_PART_ORIGIN p.val i.val)
                (BitVec.toNat v)).ground.parts) =
      true) ∧
    (let s : State := st12 0;
    let r : Req := Req.host 0 0;
    let v : Word := 1#32;
    (s.gate r Reg.CAD_CTRL (BitVec.toNat v)).snd = true ∧
      bit (BitVec.toNat v) 0 = true ∧
        let a : State := entered s r Reg.CAD_CTRL (BitVec.toNat v);
        a.beatSrc = 0) ∧
    (let s : State := st12 3;
    let r : Req := Req.host 0 0;
    let v : Word := 1#32;
    (s.gate r Reg.CAD_CTRL (BitVec.toNat v)).snd = true ∧
      bit (BitVec.toNat v) 0 = true ∧
        let a : State := entered s r Reg.CAD_CTRL (BitVec.toNat v);
        a.beatSrc ≠ 0) ∧
    (let s : State := st12 0;
    let r : Req := Req.host 0 0;
    let v : Word := 1#32;
    (s.gate r Reg.CAD_BEAT_CFG (BitVec.toNat v)).snd = true ∧
      let a : State := entered s r Reg.CAD_BEAT_CFG (BitVec.toNat v);
      let src : Nat := bits (BitVec.toNat v) 2 0;
      src < 4 ∧ src ≠ 0 ∧ src ≠ a.beatSrc) ∧
    (let s : State := st12 3;
    let wide : Bool := false;
    s.beatSrc = 1 ∧ s.beat.stuck = false ∧ wide = false) ∧
    (let s : State := st12 3;
    let wide : Bool := true;
    s.beatSrc = 1 ∧ s.beat.stuck = false ∧ wide = true ∧ (s.beat.mode = 1 ∨ s.beat.mode = 4)) ∧
    (let s : State := st12 4;
    let wide : Bool := true;
    s.beatSrc = 1 ∧
      s.beat.stuck = false ∧
        wide = true ∧ (s.beat.mode = 2 ∨ s.beat.mode = 3) ∧ ((Int.ofNat s.ticks) - (Int.ofNat s.beatDue)).natAbs ≤ s.beatWindow) ∧
    (let s : State := st12 5;
    let wide : Bool := true;
    s.beatSrc = 1 ∧
      s.beat.stuck = false ∧
        wide = true ∧ (s.beat.mode = 2 ∨ s.beat.mode = 3) ∧ s.beatWindow < ((Int.ofNat s.ticks) - (Int.ofNat s.beatDue)).natAbs) ∧
    (let s : State := st12 5;
    let stat : Nat := Reg.CAD_BEAT_STAT;
    s.beatSrc ≠ 0 ∧
      (s.beat.mode = 2 ∨ s.beat.mode = 3) ∧ s.beatDue + s.beatWindow < s.ticks ∧ s.fld stat Fld.CAD_BEAT_STAT.MISSED < 7) ∧
    (let s : State := st12 9;
    let stat : Nat := Reg.CAD_BEAT_STAT;
    s.beatSrc ≠ 0 ∧
      (s.beat.mode = 2 ∨ s.beat.mode = 3) ∧ s.beatDue + s.beatWindow < s.ticks ∧ 7 ≤ s.fld stat Fld.CAD_BEAT_STAT.MISSED) ∧
    (let s : State := st12 6;
    let time : Word64 := 20400#64;
    s.beatSrc = 2 ∧ (s.beat.mode = 1 ∨ s.beat.mode = 4) ∧ s.beatSrc ≠ 1 ∧ s.master < BitVec.toNat time * 2 ^ 24) ∧
    (let s : State := st12 6;
    let time : Word64 := 20004#64;
    s.beatSrc = 2 ∧ (s.beat.mode = 1 ∨ s.beat.mode = 4) ∧ s.beatSrc ≠ 1 ∧ BitVec.toNat time * 2 ^ 24 ≤ s.master) ∧
    (let s : State := st12 7;
    let time : Word64 := 20004#64;
    s.beatSrc = 2 ∧
      (s.beat.mode = 2 ∨ s.beat.mode = 3) ∧ ((Int.ofNat (BitVec.toNat time)) - (Int.ofNat s.beatDue)).natAbs ≤ s.beatWindow) ∧
    (let s : State := st12 7;
    let time : Word64 := 20400#64;
    s.beatSrc = 2 ∧
      (s.beat.mode = 2 ∨ s.beat.mode = 3) ∧ s.beatWindow < ((Int.ofNat (BitVec.toNat time)) - (Int.ofNat s.beatDue)).natAbs) ∧
    (let s : State := st12 9;
    let time : Word64 := 20004#64;
    s.beatSrc = 3 ∧
      (s.beat.mode = 2 ∨ s.beat.mode = 3) ∧
        s.beatWindow <
          ((Int.ofNat ((BitVec.toNat time + s.rdN (Reg.CAD_PTM_OFFSET 0) + s.rdN (Reg.CAD_PTM_OFFSET 1) * 2 ^ 32) % 2 ^ 64)) -
              (Int.ofNat s.beatDue)).natAbs) ∧
    (let s : State := st12 9;
    let time : Word64 := 2000004#64;
    s.beatSrc = 3 ∧
      (s.beat.mode = 2 ∨ s.beat.mode = 3) ∧
        ((Int.ofNat ((BitVec.toNat time + s.rdN (Reg.CAD_PTM_OFFSET 0) + s.rdN (Reg.CAD_PTM_OFFSET 1) * 2 ^ 32) % 2 ^ 64)) -
              (Int.ofNat s.beatDue)).natAbs ≤
          s.beatWindow) ∧
    (let s : State := st12 9;
    let stat : Nat := Reg.CAD_BEAT_STAT;
    s.beatSrc = 3 ∧ (s.beat.mode = 2 ∨ s.beat.mode = 3) ∧ 7 ≤ s.fld stat Fld.CAD_BEAT_STAT.MISSED) ∧
    (let s : State := st12 10;
    let stat : Nat := Reg.CAD_BEAT_STAT;
    s.beatSrc = 3 ∧ (s.beat.mode = 2 ∨ s.beat.mode = 3) ∧ s.fld stat Fld.CAD_BEAT_STAT.MISSED < 7) ∧
    (let s : State := st12 11;
    let time : Word64 := 20400#64;
    s.beatSrc = 3 ∧
      (s.beat.mode = 1 ∨ s.beat.mode = 4) ∧
        s.beatSrc ≠ 1 ∧
          s.master <
            (BitVec.toNat time + s.rdN (Reg.CAD_PTM_OFFSET 0) + s.rdN (Reg.CAD_PTM_OFFSET 1) * 2 ^ 32) % 2 ^ 64 * 2 ^ 24) ∧
    (let s : State := st12 11;
    let time : Word64 := 20004#64;
    s.beatSrc = 3 ∧
      (s.beat.mode = 1 ∨ s.beat.mode = 4) ∧
        s.beatSrc ≠ 1 ∧
          (BitVec.toNat time + s.rdN (Reg.CAD_PTM_OFFSET 0) + s.rdN (Reg.CAD_PTM_OFFSET 1) * 2 ^ 32) % 2 ^ 64 * 2 ^ 24 ≤
            s.master) := by
  refine ⟨?_, ?_, ?_, ?_, ?_, ?_, ?_, ?_, ?_, ?_, ?_, ?_, ?_, ?_, ?_, ?_, ?_, ?_, ?_, ?_, ?_, ?_, ?_, ?_, ?_, ?_, ?_, ?_, ?_, ?_, ?_, ?_, ?_, ?_, ?_, ?_, ?_, ?_, ?_, ?_⟩ <;> decide +kernel

theorem witness_PeriodsRunTheirPhases :
    (let s : State := st12 13;
    let e : EngIx := 0;
    Option.any
        (fun (x : List Byte) =>
          decide
            (let g : Sched := (s.eng e.val).sched;
            let now : Nat := s.stamp e.val;
            s.cvState e.val = Cv.RUNNING ∧ (s.eng e.val).canvas.waitPeriod = true ∧ now < g.startAt))
        (s.plan e.val) =
      true) ∧
    (let s : State := st12 17;
    let e : EngIx := 0;
    Option.any
        (fun (x : List Byte) =>
          decide
            (let g : Sched := (s.eng e.val).sched;
            let now : Nat := s.stamp e.val;
            s.cvState e.val = Cv.RUNNING ∧ s.inPeriod e.val = true ∧ (now < g.target ∨ g.workDone = false)))
        (s.plan e.val) =
      true) ∧
    (let s : State := st12 18;
    let e : EngIx := 0;
    Option.any
        (fun (x : List Byte) =>
          decide
            (let g : Sched := (s.eng e.val).sched;
            g.lost = false ∧ 4 * s.gridPeriod e.val < s.lag e.val))
        (s.plan e.val) =
      true) ∧
    (let s : State := st12 8;
    let e : EngIx := 0;
    Option.any
        (fun (x : List Byte) =>
          decide
            (let g : Sched := (s.eng e.val).sched;
            g.lost = true ∨ s.lag e.val ≤ 4 * s.gridPeriod e.val))
        (s.plan e.val) =
      true) ∧
    (let s : State := st12 8;
    let r : Req := Req.host 0 0;
    let e : EngIx := 0;
    Option.any
        (fun (x : List Byte) =>
          decide
            (let v : Word := 1#32;
            (s.gate r (Reg.CAD_ENG_CTRL e.val) (BitVec.toNat v)).snd = true ∧
              bit (BitVec.toNat v) 0 = true ∧
                let a : State := entered s r (Reg.CAD_ENG_CTRL e.val) (BitVec.toNat v);
                a.inPeriod e.val = false))
        (s.plan e.val) =
      true) ∧
    (let s : State := st12 12;
    let e : EngIx := 0;
    Option.any
        (fun (x : List Byte) =>
          decide
            (let g : Sched := (s.eng e.val).sched;
            let now : Nat := s.stamp e.val;
            s.cvState e.val = Cv.RUNNING ∧
              (s.eng e.val).canvas.waitPeriod = true ∧ g.startAt ≤ now ∧ planKind x 0 = 0))
        (s.plan e.val) =
      true) ∧
    (let s : State := st12 14;
    let e : EngIx := 0;
    Option.any
        (fun (x : List Byte) =>
          decide
            (let g : Sched := (s.eng e.val).sched;
            let now : Nat := s.stamp e.val;
            s.cvState e.val = Cv.RUNNING ∧
              s.inPeriod e.val = true ∧
                g.target ≤ now ∧ g.workDone = true ∧ g.realign = false ∧ g.phase + 1 < planCount x))
        (s.plan e.val) =
      true) ∧
    (let s : State := st12 14;
    let r : Req := Req.host 0 0;
    let e : EngIx := 0;
    Option.any
        (fun (x : List Byte) =>
          decide
            (let v : Word := 1#32;
            (s.gate r (Reg.CAD_ENG_CTRL e.val) (BitVec.toNat v)).snd = true ∧
              bit (BitVec.toNat v) 0 = true ∧
                let a : State := entered s r (Reg.CAD_ENG_CTRL e.val) (BitVec.toNat v);
                a.inPeriod e.val = true))
        (s.plan e.val) =
      true) ∧
    (let s : State := st12 15;
    let e : EngIx := 0;
    Option.any
        (fun (x : List Byte) =>
          decide
            (let g : Sched := (s.eng e.val).sched;
            let now : Nat := s.stamp e.val;
            s.cvState e.val = Cv.RUNNING ∧
              s.inPeriod e.val = true ∧
                g.target ≤ now ∧ g.workDone = true ∧ g.realign = false ∧ planCount x ≤ g.phase + 1 ∧ planKind x 0 = 0))
        (s.plan e.val) =
      true) ∧
    (let s : State := st12 16;
    let e : EngIx := 0;
    Option.any
        (fun (x : List Byte) =>
          decide
            (let g : Sched := (s.eng e.val).sched;
            let now : Nat := s.stamp e.val;
            s.cvState e.val = Cv.RUNNING ∧
              s.inPeriod e.val = true ∧ g.target ≤ now ∧ g.workDone = true ∧ g.realign = true))
        (s.plan e.val) =
      true) := by
  refine ⟨?_, ?_, ?_, ?_, ?_, ?_, ?_, ?_, ?_, ?_⟩ <;> decide +kernel

/-! ### Host ports (13_host_ports) -/

/-- Host port 0 in a state, with windows to the scratchpads of e00 and e01 and to no target, a guest that owes an answer since `since`, an
event of e00, and a COPY from host memory in flight. -/
def hostPanel (st : Nat) (perst : Bool) (perstAt resetAt now since evt : Nat) : State :=
  let s := { panel with now := now, edgeDown := [1], ports := [(0, ⟨perst, perstAt, resetAt⟩)], guestWaits := [⟨0, 1, since, .hostRead 0 0⟩], events := [⟨3, 0, 1, 2, 5⟩] }
  let s := s.onEng 0 fun g => { g with spm := { zeroed := [(0, true)] }, flights := [flightOf 0 0 (descBytes 1 0 0 0x12 0x1000 SPE 64 1 64 64 0 0 0)] }
  let win := fun (i base : Nat) => [(Reg.HP_WIN 0 i, Fld.HP_WIN.ENABLE, 1), (Reg.HP_WIN 0 i, Fld.HP_WIN.BASE, base)]
  put s ([(Reg.HP_PORT_STAT 0, Fld.HP_PORT_STAT.STATE, st), (Reg.HP_EVT_CFG 0 0, Fld.HP_EVT_CFG.ENABLE, evt), (Reg.HP_QCTX 0 0, Fld.HP_QCTX.STATE, 1), (Reg.HP_QCTX 0 1, Fld.HP_QCTX.STATE, 1), (Reg.HP_QCTX 0 1, Fld.HP_QCTX.OWNER, 1)] ++ win 0 0x1C000 ++ win 2 0x1FC00 ++ win 3 0x1C004)

/-- A command of a ring: OP, engine, queue, and OFFSET and VALUE of a WRITE. -/
def cmdOf (op e q off : Nat) : List Byte := leBytes 1 op ++ leBytes 1 0 ++ leBytes 1 e ++ leBytes 1 q ++ leBytes 4 0 ++ leBytes 4 off ++ leBytes 4 1 ++ leBytes 112 0

/-- Contexts 0 and 1 of host port 0: context 0 in a state with the commands fetched, context 1 in another; DMA queue 0 of e00 is enabled. -/
def qcPanel (arg4 st0 st1 : Nat) (fetched : List (Option (List Byte))) (tail dma : Nat) (all : Bool) : State :=
  let s := { panel with now := 20000000, qctx := [(0, { cmdSize := 16, cplSize := 16, fetched := fetched })] }
  let s := s.onEng 0 fun g => { g with spm := { zeroed := [(0, true)] } }
  put s ([(Reg.HP_QC_ARG 0 0 4, ⟨31, 0⟩, arg4), (Reg.HP_QCTX 0 0, Fld.HP_QCTX.STATE, st0), (Reg.HP_QCTX 0 1, Fld.HP_QCTX.STATE, st1),
    (Reg.CMD_TAIL 0 0, Fld.CMD_TAIL.TAIL, tail), (Reg.ENG_DMAQ_CFG 0 0, Fld.ENG_DMAQ_CFG.ENABLE, 1), (Reg.ENG_DMAQ_TAIL 0 0, Fld.ENG_DMAQ_TAIL.TAIL, dma)] ++
    if all then (List.range 62).map fun k => (Reg.HP_QCTX 0 (k + 2), Fld.HP_QCTX.STATE, 1) else [])

/-- Feed queue 0 of host port 0 with the contents given, and COPYs of e00 from its port in flight. -/
def feedPanel (x : FeedQ) (stat : Fld) (v reader on framed : Nat) : State :=
  let s := { panel with feeds := [(0, x)] }
  let s := s.onEng 0 fun g => { g with spm := { zeroed := [(0, true)] }, flights := [flightOf 0 0 (descBytes 1 0 0 0x10 0x780000000000 SPE 64 1 64 64 0 0 0)] }
  put s [(Reg.FQ_CFG 0 0, Fld.FQ_CFG.ENABLE, on), (Reg.FQ_CFG 0 0, Fld.FQ_CFG.ENGINE, reader), (Reg.FQ_CFG 0 0, Fld.FQ_CFG.FRAMED, framed),
    (Reg.FQ_STAT 0 0, stat, v)]

/-- A packet of 64 bytes in one word. -/
def pkt64 (closed : Bool) : FeedPkt := { seq := 0, closed := closed, bytes := 64, words := [leBytes 64 0] }

/-- The states for the host ports. -/
def st13 : Nat → State
  | 0 => hostPanel 2 false 0 0 2000000 0 1
  | 1 => hostPanel 2 true 0 0 500000 0 0
  | 2 => { hostPanel 3 true 5 0 20000000000 0 0 with msix := [] }
  | 3 => hostPanel 3 false 0 19950000 20000000 0 0
  | 4 => hostPanel 0 false 0 0 500000 0 1
  | 5 => qcPanel 0 1 0 [some (cmdOf 1 0 0 0)] 5 0 false
  | 6 => qcPanel 9 2 3 [some (cmdOf 1 0 0 0)] 5 0 false
  | 7 => qcPanel 0 2 3 [some (cmdOf 1 0 0 0)] 5 16 true
  | 8 => qcPanel 0 1 3 [some (cmdOf 1 0 0 0)] 5 16 false
  | 9 => qcPanel 0 1 1 [some (cmdOf 1 0 9 0)] 5 0 false
  | 10 => qcPanel 0 1 1 [some (cmdOf 2 0 0 0x40000)] 5 0 false
  | 11 => qcPanel 0 1 1 [some (cmdOf 2 50 0 0x40000)] 5 0 false
  | 12 => qcPanel 0 3 1 [] 5 0 false
  | 13 => qcPanel 0 1 1 [some (cmdOf 3 0 0 0)] 5 0 false
  | 14 => qcPanel 0 1 1 [] 5 0 false
  | 15 => feedPanel { pkts := [pkt64 false] } Fld.FQ_STAT.DAMAGED 0 0 1 0
  | 16 => feedPanel { pkts := [⟨0, 0, false, true, 64, List.replicate 1024 [], 0, false⟩] } Fld.FQ_STAT.DAMAGED 0 1 1 0
  | 17 => feedPanel { pkts := [pkt64 true], waits := [⟨1, some 0, 0, 0, 1, []⟩, ⟨0, none, 0, 1, 1, []⟩] } Fld.FQ_STAT.DAMAGED 0 0 1 0
  | 18 => feedPanel { pkts := [pkt64 true], waits := [⟨1, none, 0, 0, 2, []⟩] ++ (List.range 15).map fun i => ⟨2, none, i, 0, 1, []⟩ } Fld.FQ_STAT.DAMAGED 0 0 1 1
  | _ => feedPanel { } Fld.FQ_STAT.DAMAGED 0 0 0 0

theorem witness_HostPortsServeRequestsAndEvents :
    (let s : State := st13 3;
    let p : HostIx := 0;
    s.portDie p.val = true ∧ s.portUp p.val = false) ∧
    (let s : State := st13 0;
    let p : HostIx := 0;
    let fn : FnIx := 0;
    let dw : Fin 1024 := 0;
    s.portDie p.val = true ∧
      Option.any (fun (x : Nat) => decide (s.portUp p.val = true)) (cfgFixed fn.val dw.val) = true) ∧
    (let s : State := st13 0;
    let p : HostIx := 0;
    let fn : FnIx := 0;
    let dw : Fin 1024 := 1;
    s.portDie p.val = true ∧ s.portUp p.val = true ∧ cfgFixed fn.val dw.val = none) ∧
    (let s : State := st13 0;
    let p : HostIx := 0;
    let fn : FnIx := 0;
    let off : Fin 68719476736 := 4294967296;
    s.portUp p.val = true ∧
      (fn.val ≠ 0 → off.val < 2 ^ 32) ∧
        let n : Fin 4097 := 64;
        n.val ≠ 0 ∧ off.val % 4096 + n.val ≤ 4096 ∧ s.windowMap p.val fn.val off.val = none) ∧
    (let s : State := st13 0;
    let p : HostIx := 0;
    let fn : FnIx := 0;
    let off : Fin 68719476736 := 8589934592;
    s.portUp p.val = true ∧
      (fn.val ≠ 0 → off.val < 2 ^ 32) ∧
        let n : Fin 4097 := 64;
        n.val ≠ 0 ∧
          off.val % 4096 + n.val ≤ 4096 ∧
            Option.any (fun (a : Nat) => decide (s.hostReach (Req.host p fn) a n.val ≠ St.OK))
                (s.windowMap p.val fn.val off.val) =
              true) ∧
    (let s : State := st13 0;
    let p : HostIx := 0;
    let fn : FnIx := 0;
    let off : Fin 68719476736 := 0;
    s.portUp p.val = true ∧
      (fn.val ≠ 0 → off.val < 2 ^ 32) ∧
        let n : Fin 4097 := 64;
        n.val ≠ 0 ∧
          off.val % 4096 + n.val ≤ 4096 ∧
            Option.any (fun (a : Nat) => decide (s.hostReach (Req.host p fn) a n.val = St.OK ∧ toGuest s a = false))
                (s.windowMap p.val fn.val off.val) =
              true) ∧
    (let s : State := st13 0;
    let p : HostIx := 0;
    let fn : FnIx := 0;
    let off : Fin 68719476736 := 4294967296;
    s.portUp p.val = true ∧
      (fn.val ≠ 0 → off.val < 2 ^ 32) ∧
        let bs : List Byte :=
          let y : List (BitVec 8) :=
            let y : List (BitVec 8) :=
              let y : List (BitVec 8) :=
                let y : List (BitVec 8) := [60#8, 61#8, 62#8, 63#8];
                56#8 :: 57#8 :: 58#8 :: 59#8 :: y;
              let y : List (BitVec 8) := 52#8 :: 53#8 :: 54#8 :: 55#8 :: y;
              48#8 :: 49#8 :: 50#8 :: 51#8 :: y;
            let y : List (BitVec 8) :=
              let y : List (BitVec 8) := 44#8 :: 45#8 :: 46#8 :: 47#8 :: y;
              40#8 :: 41#8 :: 42#8 :: 43#8 :: y;
            let y : List (BitVec 8) := 36#8 :: 37#8 :: 38#8 :: 39#8 :: y;
            32#8 :: 33#8 :: 34#8 :: 35#8 :: y;
          let y : List (BitVec 8) :=
            let y : List (BitVec 8) :=
              let y : List (BitVec 8) := 28#8 :: 29#8 :: 30#8 :: 31#8 :: y;
              24#8 :: 25#8 :: 26#8 :: 27#8 :: y;
            let y : List (BitVec 8) := 20#8 :: 21#8 :: 22#8 :: 23#8 :: y;
            16#8 :: 17#8 :: 18#8 :: 19#8 :: y;
          let y : List (BitVec 8) :=
            let y : List (BitVec 8) := 12#8 :: 13#8 :: 14#8 :: 15#8 :: y;
            8#8 :: 9#8 :: 10#8 :: 11#8 :: y;
          let y : List (BitVec 8) := 4#8 :: 5#8 :: 6#8 :: 7#8 :: y;
          0#8 :: 1#8 :: 2#8 :: 3#8 :: y;
        bs ≠ [] ∧ off.val % 4096 + bs.length ≤ 4096 ∧ s.windowMap p.val fn.val off.val = none) ∧
    (let s : State := st13 0;
    let p : HostIx := 0;
    let fn : FnIx := 0;
    let off : Fin 68719476736 := 8589934592;
    s.portUp p.val = true ∧
      (fn.val ≠ 0 → off.val < 2 ^ 32) ∧
        let bs : List Byte :=
          let y : List (BitVec 8) :=
            let y : List (BitVec 8) :=
              let y : List (BitVec 8) :=
                let y : List (BitVec 8) := [60#8, 61#8, 62#8, 63#8];
                56#8 :: 57#8 :: 58#8 :: 59#8 :: y;
              let y : List (BitVec 8) := 52#8 :: 53#8 :: 54#8 :: 55#8 :: y;
              48#8 :: 49#8 :: 50#8 :: 51#8 :: y;
            let y : List (BitVec 8) :=
              let y : List (BitVec 8) := 44#8 :: 45#8 :: 46#8 :: 47#8 :: y;
              40#8 :: 41#8 :: 42#8 :: 43#8 :: y;
            let y : List (BitVec 8) := 36#8 :: 37#8 :: 38#8 :: 39#8 :: y;
            32#8 :: 33#8 :: 34#8 :: 35#8 :: y;
          let y : List (BitVec 8) :=
            let y : List (BitVec 8) :=
              let y : List (BitVec 8) := 28#8 :: 29#8 :: 30#8 :: 31#8 :: y;
              24#8 :: 25#8 :: 26#8 :: 27#8 :: y;
            let y : List (BitVec 8) := 20#8 :: 21#8 :: 22#8 :: 23#8 :: y;
            16#8 :: 17#8 :: 18#8 :: 19#8 :: y;
          let y : List (BitVec 8) :=
            let y : List (BitVec 8) := 12#8 :: 13#8 :: 14#8 :: 15#8 :: y;
            8#8 :: 9#8 :: 10#8 :: 11#8 :: y;
          let y : List (BitVec 8) := 4#8 :: 5#8 :: 6#8 :: 7#8 :: y;
          0#8 :: 1#8 :: 2#8 :: 3#8 :: y;
        bs ≠ [] ∧
          off.val % 4096 + bs.length ≤ 4096 ∧
            Option.any (fun (a : Nat) => decide (s.hostReach (Req.host p fn) a bs.length ≠ St.OK))
                (s.windowMap p.val fn.val off.val) =
              true) ∧
    (let s : State := st13 0;
    let p : HostIx := 0;
    let fn : FnIx := 0;
    let off : Fin 68719476736 := 0;
    s.portUp p.val = true ∧
      (fn.val ≠ 0 → off.val < 2 ^ 32) ∧
        let bs : List Byte :=
          let y : List (BitVec 8) :=
            let y : List (BitVec 8) :=
              let y : List (BitVec 8) :=
                let y : List (BitVec 8) := [60#8, 61#8, 62#8, 63#8];
                56#8 :: 57#8 :: 58#8 :: 59#8 :: y;
              let y : List (BitVec 8) := 52#8 :: 53#8 :: 54#8 :: 55#8 :: y;
              48#8 :: 49#8 :: 50#8 :: 51#8 :: y;
            let y : List (BitVec 8) :=
              let y : List (BitVec 8) := 44#8 :: 45#8 :: 46#8 :: 47#8 :: y;
              40#8 :: 41#8 :: 42#8 :: 43#8 :: y;
            let y : List (BitVec 8) := 36#8 :: 37#8 :: 38#8 :: 39#8 :: y;
            32#8 :: 33#8 :: 34#8 :: 35#8 :: y;
          let y : List (BitVec 8) :=
            let y : List (BitVec 8) :=
              let y : List (BitVec 8) := 28#8 :: 29#8 :: 30#8 :: 31#8 :: y;
              24#8 :: 25#8 :: 26#8 :: 27#8 :: y;
            let y : List (BitVec 8) := 20#8 :: 21#8 :: 22#8 :: 23#8 :: y;
            16#8 :: 17#8 :: 18#8 :: 19#8 :: y;
          let y : List (BitVec 8) :=
            let y : List (BitVec 8) := 12#8 :: 13#8 :: 14#8 :: 15#8 :: y;
            8#8 :: 9#8 :: 10#8 :: 11#8 :: y;
          let y : List (BitVec 8) := 4#8 :: 5#8 :: 6#8 :: 7#8 :: y;
          0#8 :: 1#8 :: 2#8 :: 3#8 :: y;
        bs ≠ [] ∧
          off.val % 4096 + bs.length ≤ 4096 ∧
            let ctr : Nat := s.fld (windowReg p.val fn.val off.val) Fld.HP_WIN.COUNTER;
            Option.any
                (fun (a : Nat) =>
                  decide
                    (let r : State × Nat := s.memWrite a bs (some ctr);
                    let st : Nat := r.snd;
                    s.hostReach (Req.host p fn) a bs.length = St.OK ∧ toGuest s a = false ∧ st = St.OK))
                (s.windowMap p.val fn.val off.val) =
              true) ∧
    (let s : State := st13 0;
    let p : HostIx := 0;
    let fn : FnIx := 0;
    let off : Fin 68719476736 := 12884901888;
    s.portUp p.val = true ∧
      (fn.val ≠ 0 → off.val < 2 ^ 32) ∧
        let bs : List Byte :=
          let y : List (BitVec 8) :=
            let y : List (BitVec 8) :=
              let y : List (BitVec 8) :=
                let y : List (BitVec 8) := [60#8, 61#8, 62#8, 63#8];
                56#8 :: 57#8 :: 58#8 :: 59#8 :: y;
              let y : List (BitVec 8) := 52#8 :: 53#8 :: 54#8 :: 55#8 :: y;
              48#8 :: 49#8 :: 50#8 :: 51#8 :: y;
            let y : List (BitVec 8) :=
              let y : List (BitVec 8) := 44#8 :: 45#8 :: 46#8 :: 47#8 :: y;
              40#8 :: 41#8 :: 42#8 :: 43#8 :: y;
            let y : List (BitVec 8) := 36#8 :: 37#8 :: 38#8 :: 39#8 :: y;
            32#8 :: 33#8 :: 34#8 :: 35#8 :: y;
          let y : List (BitVec 8) :=
            let y : List (BitVec 8) :=
              let y : List (BitVec 8) := 28#8 :: 29#8 :: 30#8 :: 31#8 :: y;
              24#8 :: 25#8 :: 26#8 :: 27#8 :: y;
            let y : List (BitVec 8) := 20#8 :: 21#8 :: 22#8 :: 23#8 :: y;
            16#8 :: 17#8 :: 18#8 :: 19#8 :: y;
          let y : List (BitVec 8) :=
            let y : List (BitVec 8) := 12#8 :: 13#8 :: 14#8 :: 15#8 :: y;
            8#8 :: 9#8 :: 10#8 :: 11#8 :: y;
          let y : List (BitVec 8) := 4#8 :: 5#8 :: 6#8 :: 7#8 :: y;
          0#8 :: 1#8 :: 2#8 :: 3#8 :: y;
        bs ≠ [] ∧
          off.val % 4096 + bs.length ≤ 4096 ∧
            let ctr : Nat := s.fld (windowReg p.val fn.val off.val) Fld.HP_WIN.COUNTER;
            Option.any
                (fun (a : Nat) =>
                  decide
                    (let r : State × Nat := s.memWrite a bs (some ctr);
                    let st : Nat := r.snd;
                    s.hostReach (Req.host p fn) a bs.length = St.OK ∧ toGuest s a = false ∧ st ≠ St.OK))
                (s.windowMap p.val fn.val off.val) =
              true) ∧
    (let s : State := st13 0;
    let p : HostIx := 0;
    Option.any (fun (w : GuestWait) => decide (w.since + 1000000 ≤ s.now))
        (List.find? (fun (w : GuestWait) => w.ofPort p.val) s.guestWaits) =
      true) ∧
    (let s : State := st13 1;
    let p : HostIx := 0;
    Option.any (fun (w : GuestWait) => decide (s.now < w.since + 1000000))
        (List.find? (fun (w : GuestWait) => w.ofPort p.val) s.guestWaits) =
      true) ∧
    (let s : State := st13 0;
    let e : EngIx := 0;
    let q : QueueIx := 0;
    let ix : Fin 65536 := 0;
    Option.any
        (fun (f : Flight) =>
          decide
            (let code : Fin 16 := 0;
            let data : List Byte := [];
            Option.any
                (fun (y : State × Nat × List Byte) =>
                  decide
                    (let s1 : State := y.fst;
                    y.snd.fst = St.OK ∧
                      let bs : List Byte := y.snd.snd;
                      let r : State × Nat × Nat := s1.dstWrite e.val f.dstSpace f.next.snd.fst f.peer bs f.counter;
                      r.snd.fst = St.OK ∧ f.op = 1 ∧ f.open' = true ∧ (f.srcSpace = 2 ∨ f.dstSpace = 2)))
                (s.srcRead e.val f.srcSpace f.next.fst f.next.snd.snd f.peer
                  { code := code.val, data := data : Far }) =
              true))
        (s.flight e.val q.val ix.val) =
      true) ∧
    (let s : State := st13 0;
    let e : EngIx := 0;
    Option.any
        (fun (x : Event) =>
          decide
            (Option.any
                (fun (q : PartRec) =>
                  decide
                    (let tl : Nat := Reg.HP_EVT_TAIL q.port q.fn;
                    let room : Prop :=
                      ahead (s.fld tl Fld.HP_EVT_TAIL.TAIL) (s.fld (Reg.HP_EVT_HEAD q.port q.fn) Fld.HP_EVT_HEAD.HEAD) <
                        s.evtSize q.port q.fn;
                    let on : Prop :=
                      s.flag (Reg.HP_EVT_CFG q.port q.fn) Fld.HP_EVT_CFG.ENABLE = true ∧ s.portUp q.port = true;
                    on ∧ room))
                (s.partOf e.val) =
              true))
        (List.find? (fun (x : Event) => x.engine == e.val) s.events) =
      true) ∧
    (let s : State := st13 1;
    let e : EngIx := 0;
    Option.any
        (fun (x : Event) =>
          decide
            (Option.any
                (fun (q : PartRec) =>
                  decide
                    (let tl : Nat := Reg.HP_EVT_TAIL q.port q.fn;
                    let room : Prop :=
                      ahead (s.fld tl Fld.HP_EVT_TAIL.TAIL) (s.fld (Reg.HP_EVT_HEAD q.port q.fn) Fld.HP_EVT_HEAD.HEAD) <
                        s.evtSize q.port q.fn;
                    let on : Prop :=
                      s.flag (Reg.HP_EVT_CFG q.port q.fn) Fld.HP_EVT_CFG.ENABLE = true ∧ s.portUp q.port = true;
                    ¬(on ∧ room)))
                (s.partOf e.val) =
              true))
        (List.find? (fun (x : Event) => x.engine == e.val) s.events) =
      true) ∧
    (let s : State := st13 4;
    let p : HostIx := 0;
    let width : Fin 17 := 4;
    let rate : Fin 6 := 5;
    s.portDie p.val = true ∧
      bit (s.fld Reg.PNL_PHYS Fld.PNL_PHYS.CPRSNT) p.val = true ∧
        s.portState p.val < 2 ∧ width.val ≠ 0 ∧ rate.val ≠ 0) := by
  refine ⟨?_, ?_, ?_, ?_, ?_, ?_, ?_, ?_, ?_, ?_, ?_, ?_, ?_, ?_, ?_, ?_⟩ <;> decide +kernel

theorem witness_CommandContextsRunTheirRings :
    (let s : State := st13 0;
    let r : Req := Req.host 0 0;
    let p : HostIx := 0;
    let fn : FnIx := 0;
    let v : Word := 0#32;
    let k : Fin 64 := 0;
    let reg : Nat := Reg.HP_QC_CMD p.val fn.val;
    let res : Nat := Reg.HP_QC_RESULT p.val fn.val;
    let op : Nat → Nat := fun (n : Nat) => putBits (BitVec.toNat v) 7 0 n;
    let clear : Prop := bits (BitVec.toNat v) 31 22 = 0 ∧ bits (BitVec.toNat v) 15 8 = 0;
    let plain : Prop := clear ∧ bits (BitVec.toNat v) 21 16 = k.val;
    (s.gate r reg (op 2)).snd = true ∧
      plain ∧
        let a : State := entered s r reg (op 2);
        a.flag res Fld.HP_QC_RESULT.BUSY = false ∧
          a.qcState p.val k.val ≠ Qc.FREE ∧
            a.qcOwner p.val k.val = fn.val ∧ a.qcState p.val k.val ≠ Qc.ROOM) ∧
    (let s : State := st13 0;
    let p : HostIx := 0;
    let fn : FnIx := 0;
    let k : Fin 64 := 0;
    s.portUp p.val = true ∧ s.qcState p.val k.val ≠ Qc.FREE ∧ s.qcOwner p.val k.val = fn.val) ∧
    (let s : State := st13 0;
    let p : HostIx := 0;
    let fn : FnIx := 0;
    let k : Fin 64 := 1;
    s.portUp p.val = true ∧ (s.qcState p.val k.val = Qc.FREE ∨ s.qcOwner p.val k.val ≠ fn.val)) ∧
    (let s : State := st13 13;
    let p : HostIx := 0;
    let k : Fin 64 := 0;
    (s.cmdReady p.val k.val 3).isSome = true) ∧
    (let s : State := st13 11;
    let p : HostIx := 0;
    let k : Fin 64 := 0;
    Option.any (fun (c : List Byte) => decide (s.cmdCheck p.val (s.qcOwner p.val k.val) c ≠ 0))
        (s.cmdReady p.val k.val 2) =
      true) ∧
    (let s : State := st13 10;
    let p : HostIx := 0;
    let k : Fin 64 := 0;
    Option.any (fun (c : List Byte) => decide (s.cmdCheck p.val (s.qcOwner p.val k.val) c = 0))
        (s.cmdReady p.val k.val 2) =
      true) ∧
    (let s : State := st13 0;
    let p : HostIx := 0;
    let k : Fin 64 := 0;
    let status : Nat := 0;
    s.qcState p.val k.val ≠ Qc.DRAINING ∧ status < 256 ∧ status = 0) ∧
    (let s : State := st13 0;
    let p : HostIx := 0;
    let k : Fin 64 := 0;
    let status : Nat := 5;
    s.qcState p.val k.val ≠ Qc.DRAINING ∧ status < 256 ∧ status ≠ 0) ∧
    (let s : State := st13 0;
    let r : Req := Req.host 0 0;
    let p : HostIx := 0;
    let fn : FnIx := 0;
    let v : Word := 0#32;
    let k : Fin 64 := 2;
    let reg : Nat := Reg.HP_QC_CMD p.val fn.val;
    let res : Nat := Reg.HP_QC_RESULT p.val fn.val;
    let op : Nat → Nat := fun (n : Nat) => putBits (BitVec.toNat v) 7 0 n;
    let clear : Prop := bits (BitVec.toNat v) 31 22 = 0 ∧ bits (BitVec.toNat v) 15 8 = 0;
    (s.gate r reg (op 1)).snd = true ∧
      clear ∧
        let a : State := entered s r reg (op 1);
        let w : Nat := a.rdN (Reg.HP_QC_ARG p.val fn.val 4);
        let bad : Prop := 8 < bits w 3 0 ∨ 8 < bits w 7 4 ∨ (if fn.val = 0 then 2048 else 64) ≤ bits w 18 8;
        a.flag res Fld.HP_QC_RESULT.BUSY = false ∧
          ¬bad ∧
            (∀ (i : Fin 64), i < k → a.qcState p.val i.val ≠ Qc.FREE) ∧ a.qcState p.val k.val = Qc.FREE) ∧
    (let s : State := st13 5;
    let p : HostIx := 0;
    let k : Fin 64 := 0;
    s.qcState p.val k.val = Qc.RUNNING ∧
      (s.qc p.val k.val).fetched.length < 8 ∧
        (s.qc p.val k.val).fetched.contains none = false ∧
          s.portUp p.val = true ∧
            (s.qcHead p.val k.val + (s.qc p.val k.val).fetched.length) % 65536 ≠
              s.fld (Reg.CMD_TAIL p.val k.val) Fld.CMD_TAIL.TAIL) ∧
    (let s : State := st13 9;
    let p : HostIx := 0;
    let k : Fin 64 := 0;
    Option.any
        (fun (c : List Byte) =>
          decide
            (let code : Nat := s.cmdCheck p.val (s.qcOwner p.val k.val) c;
            code ≠ 0))
        (s.cmdReady p.val k.val 1) =
      true) ∧
    (let s : State := st13 5;
    let p : HostIx := 0;
    let k : Fin 64 := 0;
    Option.any
        (fun (c : List Byte) =>
          decide
            (let e : Nat := byteAt c 2;
            let q : Nat := byteAt c 3;
            let code : Nat := s.cmdCheck p.val (s.qcOwner p.val k.val) c;
            code = 0 ∧ s.dmaRoom e q = true))
        (s.cmdReady p.val k.val 1) =
      true) ∧
    (let s : State := st13 7;
    let p : HostIx := 0;
    let k : Fin 64 := 0;
    Option.any
        (fun (c : List Byte) =>
          decide
            (let e : Nat := byteAt c 2;
            let q : Nat := byteAt c 3;
            s.qcState p.val k.val ≠ Qc.RUNNING ∧
              s.dmaRoom e q = false ∧ (s.qc p.val k.val).waitAt + 10000000 ≤ s.now))
        (s.cmdReady p.val k.val 1) =
      true) ∧
    (let s : State := st13 6;
    let r : Req := Req.host 0 0;
    let p : HostIx := 0;
    let fn : FnIx := 0;
    let v : Word := 0#32;
    let reg : Nat := Reg.HP_QC_CMD p.val fn.val;
    let res : Nat := Reg.HP_QC_RESULT p.val fn.val;
    let op : Nat → Nat := fun (n : Nat) => putBits (BitVec.toNat v) 7 0 n;
    let clear : Prop := bits (BitVec.toNat v) 31 22 = 0 ∧ bits (BitVec.toNat v) 15 8 = 0;
    (s.gate r reg (op 1)).snd = true ∧
      clear ∧
        let a : State := entered s r reg (op 1);
        let w : Nat := a.rdN (Reg.HP_QC_ARG p.val fn.val 4);
        let bad : Prop := 8 < bits w 3 0 ∨ 8 < bits w 7 4 ∨ (if fn.val = 0 then 2048 else 64) ≤ bits w 18 8;
        a.flag res Fld.HP_QC_RESULT.BUSY = false ∧ bad) ∧
    (let s : State := st13 6;
    let r : Req := Req.host 0 0;
    let p : HostIx := 0;
    let fn : FnIx := 0;
    let v : Word := 0#32;
    let k : Fin 64 := 0;
    let reg : Nat := Reg.HP_QC_CMD p.val fn.val;
    let res : Nat := Reg.HP_QC_RESULT p.val fn.val;
    let op : Nat → Nat := fun (n : Nat) => putBits (BitVec.toNat v) 7 0 n;
    let clear : Prop := bits (BitVec.toNat v) 31 22 = 0 ∧ bits (BitVec.toNat v) 15 8 = 0;
    let plain : Prop := clear ∧ bits (BitVec.toNat v) 21 16 = k.val;
    (s.gate r reg (op 2)).snd = true ∧
      plain ∧
        let a : State := entered s r reg (op 2);
        a.flag res Fld.HP_QC_RESULT.BUSY = false ∧
          a.qcState p.val k.val ≠ Qc.FREE ∧
            a.qcOwner p.val k.val = fn.val ∧ a.qcState p.val k.val = Qc.ROOM) ∧
    (let s : State := st13 6;
    let r : Req := Req.host 0 0;
    let p : HostIx := 0;
    let fn : FnIx := 0;
    let v : Word := 65536#32;
    let k : Fin 64 := 1;
    let reg : Nat := Reg.HP_QC_CMD p.val fn.val;
    let res : Nat := Reg.HP_QC_RESULT p.val fn.val;
    let op : Nat → Nat := fun (n : Nat) => putBits (BitVec.toNat v) 7 0 n;
    let clear : Prop := bits (BitVec.toNat v) 31 22 = 0 ∧ bits (BitVec.toNat v) 15 8 = 0;
    let plain : Prop := clear ∧ bits (BitVec.toNat v) 21 16 = k.val;
    let n : Fin 2 := 0;
    (s.gate r reg (op (3 + n.val))).snd = true ∧
      plain ∧
        let a : State := entered s r reg (op (3 + n.val));
        a.flag res Fld.HP_QC_RESULT.BUSY = false ∧
          a.qcState p.val k.val = Qc.HALTED ∧ a.qcOwner p.val k.val = fn.val) ∧
    (let s : State := st13 7;
    let r : Req := Req.host 0 0;
    let p : HostIx := 0;
    let fn : FnIx := 0;
    let v : Word := 0#32;
    let reg : Nat := Reg.HP_QC_CMD p.val fn.val;
    let res : Nat := Reg.HP_QC_RESULT p.val fn.val;
    let op : Nat → Nat := fun (n : Nat) => putBits (BitVec.toNat v) 7 0 n;
    let clear : Prop := bits (BitVec.toNat v) 31 22 = 0 ∧ bits (BitVec.toNat v) 15 8 = 0;
    (s.gate r reg (op 1)).snd = true ∧
      clear ∧
        let a : State := entered s r reg (op 1);
        let w : Nat := a.rdN (Reg.HP_QC_ARG p.val fn.val 4);
        let bad : Prop := 8 < bits w 3 0 ∨ 8 < bits w 7 4 ∨ (if fn.val = 0 then 2048 else 64) ≤ bits w 18 8;
        a.flag res Fld.HP_QC_RESULT.BUSY = false ∧ ¬bad ∧ ∀ (i : Fin 64), a.qcState p.val i.val ≠ Qc.FREE) ∧
    (let s : State := st13 8;
    let p : HostIx := 0;
    let k : Fin 64 := 0;
    Option.any
        (fun (c : List Byte) =>
          decide
            (let e : Nat := byteAt c 2;
            let q : Nat := byteAt c 3;
            let code : Nat := s.cmdCheck p.val (s.qcOwner p.val k.val) c;
            code = 0 ∧ s.dmaRoom e q = false ∧ s.qcState p.val k.val = Qc.RUNNING))
        (s.cmdReady p.val k.val 1) =
      true) ∧
    (let s : State := st13 14;
    let p : HostIx := 0;
    let k : Fin 64 := 0;
    s.qcState p.val k.val = Qc.RUNNING ∧
      (s.qc p.val k.val).fetched.length < 8 ∧
        (s.qc p.val k.val).fetched.contains none = false ∧
          s.portUp p.val = true ∧
            (s.qcHead p.val k.val + (s.qc p.val k.val).fetched.length) % 65536 ≠
                s.fld (Reg.CMD_TAIL p.val k.val) Fld.CMD_TAIL.TAIL ∧
              (s.qc p.val k.val).fetched = []) := by
  refine ⟨?_, ?_, ?_, ?_, ?_, ?_, ?_, ?_, ?_, ?_, ?_, ?_, ?_, ?_, ?_, ?_, ?_, ?_, ?_⟩ <;> decide +kernel

theorem witness_FeedQueuesTakeAndDeliver :
    (let s : State := st13 0;
    let p : HostIx := 0;
    let fn : FnIx := 0;
    let f : Fin 16 := 0;
    s.portUp p.val = true ∧ s.feedWritable p.val fn.val f.val = false) ∧
    (let s : State := st13 0;
    let r : Req := Req.host 0 0;
    let p : HostIx := 0;
    let f : Fin 16 := 0;
    let v : Word := 0#32;
    (s.gate r (Reg.FQ_CFG p.val f.val) (BitVec.toNat v)).snd = true ∧
      let b : State := entered s r (Reg.FQ_CFG p.val f.val) (BitVec.toNat v);
      let w : State := b.plainWrite (Reg.FQ_CFG p.val f.val) (BitVec.toNat v);
      b.feedOn p.val f.val = false ∧
        (w.feedOn p.val f.val = false ∨ b.feedBindOk p.val (BitVec.toNat v) = true)) ∧
    (let s : State := st13 15;
    let r : Req := Req.host 0 0;
    let p : HostIx := 0;
    let f : Fin 16 := 0;
    let v : Word := 0#32;
    (s.gate r (Reg.FQ_CFG p.val f.val) (BitVec.toNat v)).snd = true ∧
      let b : State := entered s r (Reg.FQ_CFG p.val f.val) (BitVec.toNat v);
      let w : State := b.plainWrite (Reg.FQ_CFG p.val f.val) (BitVec.toNat v);
      b.feedOn p.val f.val = true ∧
        bits (w.rdN (Reg.FQ_CFG p.val f.val)) 30 0 = bits (b.rdN (Reg.FQ_CFG p.val f.val)) 30 0) ∧
    (let s : State := st13 0;
    let r : Req := Req.host 0 0;
    let p : HostIx := 0;
    let f : Fin 16 := 0;
    let v : Word := 2147483696#32;
    (s.gate r (Reg.FQ_CFG p.val f.val) (BitVec.toNat v)).snd = true ∧
      let b : State := entered s r (Reg.FQ_CFG p.val f.val) (BitVec.toNat v);
      let w : State := b.plainWrite (Reg.FQ_CFG p.val f.val) (BitVec.toNat v);
      b.feedOn p.val f.val = true ∧
          bits (w.rdN (Reg.FQ_CFG p.val f.val)) 30 0 ≠ bits (b.rdN (Reg.FQ_CFG p.val f.val)) 30 0 ∨
        b.feedOn p.val f.val = false ∧
          w.feedOn p.val f.val = true ∧ b.feedBindOk p.val (BitVec.toNat v) = false) ∧
    (let s : State := st13 0;
    let r : Req := Req.host 0 0;
    let p : HostIx := 0;
    let f : Fin 16 := 0;
    let v : Word := 0#32;
    (s.gate r (Reg.FQ_ERR p.val f.val) (BitVec.toNat v)).snd = true) ∧
    (let s : State := st13 0;
    let r : Req := Req.host 0 0;
    let p : HostIx := 0;
    let f : Fin 16 := 0;
    let v : Word := 1#32;
    (s.gate r (Reg.FQ_CTRL p.val f.val) (BitVec.toNat v)).snd = true ∧ bit (BitVec.toNat v) 0 = true) ∧
    (let s : State := st13 15;
    let p : HostIx := 0;
    let fn : FnIx := 0;
    let f : Fin 16 := 0;
    let a : Nat := Reg.FQ_STAT p.val f.val;
    let x : FeedQ := s.feedOf p.val f.val;
    s.portUp p.val = true ∧
      s.feedWritable p.val fn.val f.val = true ∧
        let off : Fin 2048 := 0;
        let bs : List Byte :=
          let y : List (BitVec 8) :=
            let y : List (BitVec 8) :=
              let y : List (BitVec 8) :=
                let y : List (BitVec 8) := [60#8, 61#8, 62#8, 63#8];
                56#8 :: 57#8 :: 58#8 :: 59#8 :: y;
              let y : List (BitVec 8) := 52#8 :: 53#8 :: 54#8 :: 55#8 :: y;
              48#8 :: 49#8 :: 50#8 :: 51#8 :: y;
            let y : List (BitVec 8) :=
              let y : List (BitVec 8) := 44#8 :: 45#8 :: 46#8 :: 47#8 :: y;
              40#8 :: 41#8 :: 42#8 :: 43#8 :: y;
            let y : List (BitVec 8) := 36#8 :: 37#8 :: 38#8 :: 39#8 :: y;
            32#8 :: 33#8 :: 34#8 :: 35#8 :: y;
          let y : List (BitVec 8) :=
            let y : List (BitVec 8) :=
              let y : List (BitVec 8) := 28#8 :: 29#8 :: 30#8 :: 31#8 :: y;
              24#8 :: 25#8 :: 26#8 :: 27#8 :: y;
            let y : List (BitVec 8) := 20#8 :: 21#8 :: 22#8 :: 23#8 :: y;
            16#8 :: 17#8 :: 18#8 :: 19#8 :: y;
          let y : List (BitVec 8) :=
            let y : List (BitVec 8) := 12#8 :: 13#8 :: 14#8 :: 15#8 :: y;
            8#8 :: 9#8 :: 10#8 :: 11#8 :: y;
          let y : List (BitVec 8) := 4#8 :: 5#8 :: 6#8 :: 7#8 :: y;
          0#8 :: 1#8 :: 2#8 :: 3#8 :: y;
        off.val % 4 = 0 ∧
          bs.length % 4 = 0 ∧
            4 ≤ bs.length ∧
              bs.length ≤ 512 ∧
                off.val + bs.length ≤ 2048 ∧
                  s.flag a Fld.FQ_STAT.DAMAGED = false ∧
                    let y : FeedQ := x.append bs;
                    y.used ≤ 1024) ∧
    (let s : State := st13 15;
    let p : HostIx := 0;
    let fn : FnIx := 0;
    let f : Fin 16 := 0;
    let a : Nat := Reg.FQ_STAT p.val f.val;
    let x : FeedQ := s.feedOf p.val f.val;
    s.portUp p.val = true ∧
      s.feedWritable p.val fn.val f.val = true ∧
        x.openPkt.snd.bytes ≠ 0 ∧ x.openPkt.snd.words ≠ [] ∧ s.flag a Fld.FQ_STAT.DAMAGED = false) ∧
    (let s : State := st13 15;
    let p : HostIx := 0;
    let f : Fin 16 := 0;
    let x : FeedQ := s.feedOf p.val f.val;
    let e : EngIx := 0;
    let who : FeedReader := FeedReader.copy 0 0;
    Option.any
        (fun (y : Nat × Nat) =>
          decide
            (let addr : Nat := y.fst;
            let n : Nat := y.snd;
            s.target addr = Target.feed p.val f.val ∧
              let w : FeedWait :=
                { engine := e.val, stream := (feedWho who).fst, q := (feedWho who).snd.fst,
                  ix := (feedWho who).snd.snd, need := n / 64 : FeedWait };
              (x.waits.any fun (y : FeedWait) =>
                    y.engine == w.engine && y.stream == w.stream && y.q == w.q && y.ix == w.ix) =
                  false ∧
                s.feedOn p.val f.val = true ∧
                  s.feedReader p.val f.val = e.val ∧
                    addr % 64 = 0 ∧ n % 64 = 0 ∧ n ≠ 0 ∧ n ≤ 4096 ∧ x.waits.length < 16))
        (s.feedWant e.val who) =
      true) ∧
    (let s : State := st13 18;
    let p : HostIx := 0;
    let f : Fin 16 := 0;
    let x : FeedQ := s.feedOf p.val f.val;
    let e : EngIx := 0;
    let who : FeedReader := FeedReader.copy 0 0;
    Option.any
        (fun (y : Nat × Nat) =>
          decide
            (let addr : Nat := y.fst;
            let n : Nat := y.snd;
            s.target addr = Target.feed p.val f.val ∧
              let w : FeedWait :=
                { engine := e.val, stream := (feedWho who).fst, q := (feedWho who).snd.fst,
                  ix := (feedWho who).snd.snd, need := n / 64 : FeedWait };
              (x.waits.any fun (y : FeedWait) =>
                    y.engine == w.engine && y.stream == w.stream && y.q == w.q && y.ix == w.ix) =
                  false ∧
                s.feedOn p.val f.val = true ∧
                  s.feedReader p.val f.val = e.val ∧
                    addr % 64 = 0 ∧ n % 64 = 0 ∧ n ≠ 0 ∧ n ≤ 4096 ∧ 16 ≤ x.waits.length))
        (s.feedWant e.val who) =
      true) ∧
    (let s : State := st13 16;
    let p : HostIx := 0;
    let f : Fin 16 := 0;
    let x : FeedQ := s.feedOf p.val f.val;
    let e : EngIx := 0;
    let who : FeedReader := FeedReader.copy 0 0;
    Option.any
        (fun (y : Nat × Nat) =>
          decide
            (let addr : Nat := y.fst;
            let n : Nat := y.snd;
            s.target addr = Target.feed p.val f.val ∧
              let w : FeedWait :=
                { engine := e.val, stream := (feedWho who).fst, q := (feedWho who).snd.fst,
                  ix := (feedWho who).snd.snd, need := n / 64 : FeedWait };
              (x.waits.any fun (y : FeedWait) =>
                    y.engine == w.engine && y.stream == w.stream && y.q == w.q && y.ix == w.ix) =
                  false ∧
                (s.feedOn p.val f.val = false ∨ s.feedReader p.val f.val ≠ e.val)))
        (s.feedWant e.val who) =
      true) ∧
    (let s : State := st13 16;
    let p : HostIx := 0;
    let fn : FnIx := 0;
    let f : Fin 16 := 0;
    let a : Nat := Reg.FQ_STAT p.val f.val;
    let x : FeedQ := s.feedOf p.val f.val;
    s.portUp p.val = true ∧
      s.feedWritable p.val fn.val f.val = true ∧
        let off : Fin 2048 := 0;
        let bs : List Byte :=
          let y : List (BitVec 8) :=
            let y : List (BitVec 8) :=
              let y : List (BitVec 8) :=
                let y : List (BitVec 8) := [60#8, 61#8, 62#8, 63#8];
                56#8 :: 57#8 :: 58#8 :: 59#8 :: y;
              let y : List (BitVec 8) := 52#8 :: 53#8 :: 54#8 :: 55#8 :: y;
              48#8 :: 49#8 :: 50#8 :: 51#8 :: y;
            let y : List (BitVec 8) :=
              let y : List (BitVec 8) := 44#8 :: 45#8 :: 46#8 :: 47#8 :: y;
              40#8 :: 41#8 :: 42#8 :: 43#8 :: y;
            let y : List (BitVec 8) := 36#8 :: 37#8 :: 38#8 :: 39#8 :: y;
            32#8 :: 33#8 :: 34#8 :: 35#8 :: y;
          let y : List (BitVec 8) :=
            let y : List (BitVec 8) :=
              let y : List (BitVec 8) := 28#8 :: 29#8 :: 30#8 :: 31#8 :: y;
              24#8 :: 25#8 :: 26#8 :: 27#8 :: y;
            let y : List (BitVec 8) := 20#8 :: 21#8 :: 22#8 :: 23#8 :: y;
            16#8 :: 17#8 :: 18#8 :: 19#8 :: y;
          let y : List (BitVec 8) :=
            let y : List (BitVec 8) := 12#8 :: 13#8 :: 14#8 :: 15#8 :: y;
            8#8 :: 9#8 :: 10#8 :: 11#8 :: y;
          let y : List (BitVec 8) := 4#8 :: 5#8 :: 6#8 :: 7#8 :: y;
          0#8 :: 1#8 :: 2#8 :: 3#8 :: y;
        off.val % 4 = 0 ∧
          bs.length % 4 = 0 ∧
            4 ≤ bs.length ∧
              bs.length ≤ 512 ∧
                off.val + bs.length ≤ 2048 ∧
                  s.flag a Fld.FQ_STAT.DAMAGED = false ∧
                    let y : FeedQ := x.append bs;
                    1024 < y.used) ∧
    (let s : State := st13 17;
    let p : HostIx := 0;
    let f : Fin 16 := 0;
    let a : Nat := Reg.FQ_STAT p.val f.val;
    let x : FeedQ := s.feedOf p.val f.val;
    Option.any
        (fun (w : FeedWait) =>
          decide
            (Option.any
                (fun (y : List Byte × FeedQ × Option Nat) =>
                  decide
                    (let entry : List Byte := y.fst;
                    s.feedOn p.val f.val = true ∧
                      s.flag a Fld.FQ_STAT.UE = false ∧
                        Option.any (fun (i : Nat) => decide (w.need * 64 ≤ (w.got ++ entry).length)) w.stream = true))
                (x.take (s.feedFramed p.val f.val) (s.feedC2 p.val f.val)) =
              true))
        x.waits.head? =
      true) ∧
    (let s : State := st13 18;
    let p : HostIx := 0;
    let f : Fin 16 := 0;
    let a : Nat := Reg.FQ_STAT p.val f.val;
    let x : FeedQ := s.feedOf p.val f.val;
    Option.any
        (fun (w : FeedWait) =>
          decide
            (Option.any
                (fun (y : List Byte × FeedQ × Option Nat) =>
                  decide
                    (let entry : List Byte := y.fst;
                    s.feedOn p.val f.val = true ∧
                      s.flag a Fld.FQ_STAT.UE = false ∧ (w.got ++ entry).length < w.need * 64))
                (x.take (s.feedFramed p.val f.val) (s.feedC2 p.val f.val)) =
              true))
        x.waits.head? =
      true) := by
  refine ⟨?_, ?_, ?_, ?_, ?_, ?_, ?_, ?_, ?_, ?_, ?_, ?_, ?_, ?_⟩ <;> decide +kernel

theorem witness_PortsAndFunctionsReset :
    (let s : State := st13 0;
    let p : HostIx := 0;
    let runs : Prop := s.portState p.val ≠ 0 ∧ s.portState p.val ≠ 3;
    (s.port p.val).perstAt = 0 ∧ runs) ∧
    (let s : State := st13 2;
    let p : HostIx := 0;
    (s.port p.val).perst = true ∧ (s.port p.val).perstAt + 10000000000 < s.now) ∧
    (let s : State := st13 0;
    let p : HostIx := 0;
    let runs : Prop := s.portState p.val ≠ 0 ∧ s.portState p.val ≠ 3;
    runs ∧ (s.port p.val).perst = false) ∧
    (let s : State := st13 2;
    let p : HostIx := 0;
    let runs : Prop := s.portState p.val ≠ 0 ∧ s.portState p.val ≠ 3;
    ¬runs) ∧
    (let s : State := st13 3;
    let p : HostIx := 0;
    s.portState p.val = 3 ∧ s.now < (s.port p.val).resetAt + 100000) ∧
    (let s : State := st13 0;
    let p : HostIx := 0;
    let fn : FnIx := 1;
    s.portUp p.val = true ∧
      fn.val ≠ 0 ∧
        let k : Fin 64 := 1;
        s.qcOwner p.val k.val = fn.val) ∧
    (let s : State := st13 0;
    let p : HostIx := 0;
    let fn : FnIx := 1;
    s.portUp p.val = true ∧
      fn.val ≠ 0 ∧
        let k : Fin 64 := 0;
        s.qcOwner p.val k.val ≠ fn.val) ∧
    (let s : State := st13 2;
    let p : HostIx := 0;
    s.portState p.val = 3 ∧
      (s.port p.val).resetAt + 100000 ≤ s.now ∧
        let k : Fin 64 := 0;
        s.qcState p.val k.val ≠ Qc.FREE) := by
  refine ⟨?_, ?_, ?_, ?_, ?_, ?_, ?_, ?_⟩ <;> decide +kernel

/-! ### Links, collectives, pairs (14_links_pairs_chains) -/

/-- The remote entry of the routing image that leads to panels 5 to 9 over LP1. -/
def remoteRoutes : List Byte := leBytes 0x410 0 ++ leBytes 2 5 ++ leBytes 2 9 ++ leBytes 1 49 ++ leBytes 1 1 ++ leBytes 0x7A 0

/-- The panel with LP0 in a state, LP1 up, panel 9 expelled, and packets received on LP0. -/
def linkPanel (st : Nat) (l : LinkPort) (inq : List LinkPkt) (peer redir : Nat) : State :=
  let s := { panel with now := 100000, master := 5000 * 2 ^ 24, ground := { panel.ground with routes := remoteRoutes },
                        links := [(0, l)], linkIn := inq.map fun x => (0, x), edgeFeid := [(0, 0x80)], pair := { feids := [(1, 2)] } }
  let s := s.onEng 0 fun g => { g with flights := [flightOf 0 0 (descBytes 1 0 0 0x31 SPE 0 64 1 64 64 0x500 0 0)] }
  put s ([(Reg.LNK_PORT_STAT 0, Fld.LNK_PORT_STAT.STATE, st), (Reg.LNK_PORT_STAT 1, Fld.LNK_PORT_STAT.STATE, 2), (Reg.LNK_PORT_PEER 0, Fld.LNK_PORT_PEER.PANEL, peer),
    (Reg.LNK_EXPEL 0, Fld.LNK_EXPEL.VALID, 1), (Reg.LNK_EXPEL 0, Fld.LNK_EXPEL.PANEL, 9), (Reg.CAD_BEAT_PERIOD, ⟨31, 0⟩, 1000), (Reg.LNK_PORT_CTRL 0, Fld.LNK_PORT_CTRL.BEAT_TX, 1),
    (Reg.LNK_PAIR_STAT, Fld.LNK_PAIR_STAT.STATE, 6), (Reg.LNK_PAIR_STAT, Fld.LNK_PAIR_STAT.PARTNER, 7)] ++ (List.range redir).map fun i => (Reg.LNK_REDIR i, ⟨31, 0⟩, 0x00110001))

/-- LP0 up with one packet received. -/
def gotPanel (x : LinkPkt) : State := linkPanel 2 { present := true } [x] 5 0

/-- A packet as it stands on a link, with no payload. -/
def wirePkt (kind : Nat) : List Byte :=
  let h := leBytes 1 kind ++ leBytes 7 0 ++ leBytes 3 0 ++ leBytes 1 0 ++ leBytes 3 0x500 ++ leBytes 17 0
  h ++ leBytes 4 (crc32c (h.take 1 ++ List.replicate 5 0#8 ++ h.drop 6))

/-- Collective 0 in a state, with the steps it holds and what waits for it. -/
def collPanel (st en diam : Nat) (x : Coll) (ins : List CollIn) (inq : List LinkPkt) : State :=
  let s := { panel with now := 2000000, colls := [(0, x)], collIn := ins, linkIn := inq.map fun x => (0, x) }
  put s [(Reg.LNK_COLL_STAT 0, Fld.LNK_COLL_STAT.STATE, st), (Reg.LNK_COLL_CFG 0 0, Fld.LNK_COLL_CFG.ENABLE, en), (Reg.LNK_COLL_CFG 0 0, Fld.LNK_COLL_CFG.LOCAL, 2),
    (Reg.LNK_COLL_CFG 0 1, Fld.LNK_COLL_CFG.DIAMETER, diam), (Reg.LNK_CFG, Fld.LNK_CFG.HORIZON, 16), (Reg.LNK_CFG, Fld.LNK_CFG.COLL_TIMEOUT, 1000)]

/-- A block of zeros. -/
def blk0 : Vector Byte 4096 := Vector.replicate 4096 0

/-- The pair in a state; partner engine 3 has stand-in e02. -/
def pairPanel (st en links peer7 : Nat) (x : Pair) : State :=
  let s := { panel with now := 100000, pair := x, linkIn := [(6, { kind := 0x32, aux := 1 })] }
  let s := s.onEng 2 fun g => { g with up := true, canvas := { secs := [⟨0xC, 0xFF, 0xFF, leBytes 8 0 ++ leBytes 4 8192 ++ leBytes 4 0⟩] } }
  put s ([(Reg.LNK_PAIR_STAT, Fld.LNK_PAIR_STAT.STATE, st), (Reg.LNK_PAIR_CTRL, Fld.LNK_PAIR_CTRL.ENABLE, en), (Reg.LNK_PORT_STAT 6, Fld.LNK_PORT_STAT.STATE, links),
    (Reg.LNK_PORT_STAT 7, Fld.LNK_PORT_STAT.STATE, links), (Reg.LNK_PORT_PEER 7, Fld.LNK_PORT_PEER.PANEL, peer7), (Reg.ENG_CANVAS_STATUS 2, Fld.ENG_CANVAS_STATUS.STATE, 6),
    (Reg.LNK_PAIR_STAGE 2, Fld.LNK_PAIR_STAGE.BLOCKS, 4)] ++ if st = 0 then [] else [(Reg.LNK_PAIR_MAP 3, Fld.LNK_PAIR_MAP.VALID, 1), (Reg.LNK_PAIR_MAP 3, Fld.LNK_PAIR_MAP.STANDIN, 2)])

/-- A partner with one mirrored region. -/
def partner1 : Partner := ⟨16, [(0, 1, 1)], [], []⟩

/-- The states for the links. -/
def st14 : Nat → State
  | 0 => linkPanel 0 { } [] 5 0
  | 1 => linkPanel 1 { present := true } [] 5 0
  | 2 => linkPanel 2 { present := true } [{ kind := 0x22 }] 5 0
  | 3 => linkPanel 3 { present := true, failed := 0x0111 } [{ kind := 0x21, data := leBytes 8 7 }] 5 0
  | 4 => linkPanel 4 { present := true, heldAt := 0 } [{ kind := 0x23, data := leBytes 4 0x00220001 }] 5 16
  | 5 => linkPanel 4 { present := true, heldAt := 90000 } [{ kind := 0x23, data := leBytes 4 0x00220001 }] 5 0
  | 6 => linkPanel 7 { present := true } [] 6 0
  | 7 => { linkPanel 3 { present := true } [{ kind := 0x21, data := leBytes 8 7 }] 5 0 with verdictSeen := [leBytes 8 7] }
  | 8 => gotPanel { kind := 1, src := 0x500, dst := 0x501, aux := 64 }
  | 9 => gotPanel { kind := 1, src := 0x500, dst := 0, aux := 64 }
  | 10 => gotPanel { kind := 3, src := 0x500, dst := 0 }
  | 11 => gotPanel { kind := 1, src := 0x500, dst := 0x701, aux := 64 }
  | 12 => gotPanel { kind := 1, src := 0x500, dst := 0x900, aux := 64 }
  | 13 => gotPanel { kind := 1, src := 0x500, dst := 0x702, aux := 64 }
  | 14 => gotPanel { kind := 1, src := 0x500, dst := 2, aux := 64 }
  | 15 => collPanel 0 0 4 { } [] []
  | 16 => collPanel 0 0 40 { } [] []
  | 17 => collPanel 1 1 4 { due := 5 } [⟨0, some 0, 0, leBytes 8 1⟩] [{ kind := 0x10, data := leBytes 8 1 }]
  | 18 => collPanel 2 1 4 { steps := [⟨0, 0, [], 0⟩] } [] [{ kind := 0x10, aux := 1, data := leBytes 8 1 }, { kind := 0x11 }]
  | 19 => pairPanel 0 0 0 0 { }
  | 20 => pairPanel 0 0 2 0 { }
  | 21 => pairPanel 0 0 2 5 { }
  | 22 => pairPanel 5 1 2 0 { }
  | 23 => pairPanel 3 1 2 0 { partner := partner1, passes := [3] }
  | 24 => pairPanel 2 1 2 0 { partner := partner1, passes := [3] }
  | 25 => pairPanel 4 1 2 0 { partner := partner1, apply := [(0, 0)] }
  | _ => { linkPanel 2 { present := true } [] 5 0 with now := 20000000 }

theorem witness_LinkPortsTrainHoldAndDrop :
    (let s : State := st14 0;
    let p : LinkIx := 0;
    let l : LinkPort := s.link p.val;
    s.linkDie p.val = true ∧ l.present = false ∧ l.overpower = false) ∧
    (let s : State := st14 6;
    let r : Req := Req.host 0 0;
    let p : LinkIx := 0;
    let v : Word := 0#32;
    let i : Fin 16 := 15;
    (s.gate r (Reg.LNK_EXPEL i.val) (BitVec.toNat v)).snd = true ∧
      let a : State :=
        (entered s r (Reg.LNK_EXPEL i.val) (BitVec.toNat v)).plainWrite (Reg.LNK_EXPEL i.val) (BitVec.toNat v);
      a.linkState p.val = 7 ∧
        a.expelled (a.fld (Reg.LNK_PORT_PEER p.val) Fld.LNK_PORT_PEER.PANEL) = false ∧ a.expelled a.panelNo = false) ∧
    (let s : State := st14 0;
    let r : Req := Req.host 0 0;
    let p : LinkIx := 0;
    let v : Word := 0#32;
    let i : Fin 16 := 15;
    (s.gate r (Reg.LNK_EXPEL i.val) (BitVec.toNat v)).snd = true ∧
      let a : State :=
        (entered s r (Reg.LNK_EXPEL i.val) (BitVec.toNat v)).plainWrite (Reg.LNK_EXPEL i.val) (BitVec.toNat v);
      a.linkState p.val ≠ 7) ∧
    (let s : State := st14 0;
    let r : Req := Req.host 0 0;
    let p : LinkIx := 0;
    let v : Word := 0#32;
    let n : Fin 2 := 0;
    (s.gate r (Reg.LNK_PORT_CNT p.val n.val) (BitVec.toNat v)).snd = true) ∧
    (let s : State := st14 0;
    let r : Req := Req.host 0 0;
    let v : Word := 0#32;
    let i : Fin 16 := 15;
    (s.gate r (Reg.LNK_REDIR i.val) (BitVec.toNat v)).snd = true) ∧
    (let s : State := st14 1;
    let p : LinkIx := 0;
    let st : Nat := s.linkState p.val;
    let l : LinkPort := s.link p.val;
    let locked : Bool := false;
    s.linkDie p.val = true ∧ l.present = true ∧ (st = 1 ∨ st = 5) ∧ locked = false) ∧
    (let s : State := st14 1;
    let p : LinkIx := 0;
    let st : Nat := s.linkState p.val;
    let l : LinkPort := s.link p.val;
    let version : Fin 256 := 1;
    let panel : Fin 65536 := 0;
    let port : LinkIx := 0;
    let locked : Bool := true;
    s.linkDie p.val = true ∧
      l.present = true ∧
        (st = 1 ∨ st = 5) ∧
          let bad : Nat := s.linkMismatch p.val version.val panel.val port.val;
          locked = true ∧ bad ≠ 0) ∧
    (let s : State := st14 1;
    let p : LinkIx := 0;
    let st : Nat := s.linkState p.val;
    let l : LinkPort := s.link p.val;
    let version : Fin 256 := 1;
    let panel : Fin 65536 := 9;
    let port : LinkIx := 0;
    let locked : Bool := true;
    s.linkDie p.val = true ∧
      l.present = true ∧
        (st = 1 ∨ st = 5) ∧
          let bad : Nat := s.linkMismatch p.val version.val panel.val port.val;
          let barred : Prop := s.expelled panel.val = true ∨ s.expelled s.panelNo = true;
          locked = true ∧ bad = 0 ∧ barred) ∧
    (let s : State := st14 1;
    let p : LinkIx := 0;
    let st : Nat := s.linkState p.val;
    let l : LinkPort := s.link p.val;
    let failed : Fin 65536 := 65535;
    let version : Fin 256 := 1;
    let panel : Fin 65536 := 65535;
    let port : LinkIx := 0;
    let locked : Bool := true;
    s.linkDie p.val = true ∧
      l.present = true ∧
        (st = 1 ∨ st = 5) ∧
          let lanes : Nat := lanesOf failed.val;
          let bad : Nat := s.linkMismatch p.val version.val panel.val port.val;
          let barred : Prop := s.expelled panel.val = true ∨ s.expelled s.panelNo = true;
          locked = true ∧ bad = 0 ∧ ¬barred ∧ lanes = 0) ∧
    (let s : State := st14 1;
    let p : LinkIx := 0;
    let st : Nat := s.linkState p.val;
    let l : LinkPort := s.link p.val;
    let failed : Fin 65536 := 0;
    let version : Fin 256 := 1;
    let panel : Fin 65536 := 65535;
    let port : LinkIx := 0;
    let locked : Bool := true;
    s.linkDie p.val = true ∧
      l.present = true ∧
        (st = 1 ∨ st = 5) ∧
          let lanes : Nat := lanesOf failed.val;
          let bad : Nat := s.linkMismatch p.val version.val panel.val port.val;
          let barred : Prop := s.expelled panel.val = true ∨ s.expelled s.panelNo = true;
          locked = true ∧ bad = 0 ∧ ¬barred ∧ lanes ≠ 0) ∧
    (let s : State := st14 1;
    let p : LinkIx := 0;
    let st : Nat := s.linkState p.val;
    let l : LinkPort := s.link p.val;
    (st = 1 ∨ st = 4 ∧ s.now < l.heldAt + 50000) ∧ ∀ (x : LinkPkt × Nat), x ∈ l.wait → s.now < x.snd + 50000) ∧
    (let s : State := st14 1;
    let r : Req := Req.host 0 0;
    let p : LinkIx := 0;
    let v : Word := 1#32;
    let l : LinkPort := s.link p.val;
    (s.gate r (Reg.LNK_PORT_CTRL p.val) (BitVec.toNat v)).snd = true ∧ bit (BitVec.toNat v) 0 = true ∧ l.present = true) ∧
    (let s : State := st14 2;
    let p : LinkIx := 0;
    let st : Nat := s.linkState p.val;
    let l : LinkPort := s.link p.val;
    let lane : Fin 16 := 15;
    (st = 2 ∨ st = 3) ∧
      bit l.failed lane.val = false ∧
        let mask : Nat := l.failed + 2 ^ lane.val;
        lanesOf mask ≠ 0) ∧
    (let s : State := st14 3;
    let p : LinkIx := 0;
    let st : Nat := s.linkState p.val;
    let l : LinkPort := s.link p.val;
    let lane : Fin 16 := 15;
    (st = 2 ∨ st = 3) ∧
      bit l.failed lane.val = false ∧
        let mask : Nat := l.failed + 2 ^ lane.val;
        lanesOf mask = 0) ∧
    (let s : State := st14 2;
    let p : LinkIx := 0;
    let st : Nat := s.linkState p.val;
    let l : LinkPort := s.link p.val;
    let failed : Fin 65536 := 65535;
    (st = 2 ∨ st = 3 ∨ st = 4) ∧
      l.noticed = false ∧
        let mask : Nat := l.failed.lor failed.val;
        lanesOf mask = 0) ∧
    (let s : State := st14 2;
    let p : LinkIx := 0;
    let st : Nat := s.linkState p.val;
    let l : LinkPort := s.link p.val;
    let failed : Fin 65536 := 0;
    (st = 2 ∨ st = 3 ∨ st = 4) ∧
      l.noticed = false ∧
        let mask : Nat := l.failed.lor failed.val;
        lanesOf mask ≠ 0) ∧
    (let s : State := st14 2;
    let p : LinkIx := 0;
    Option.any (fun (y : LinkPkt × State) => decide (s.linkLive p.val = true))
        (s.linkPop p.val fun (x : LinkPkt) => x.kind == 34) =
      true) ∧
    (let s : State := st14 4;
    let p : LinkIx := 0;
    let st : Nat := s.linkState p.val;
    let l : LinkPort := s.link p.val;
    st = 4 ∧ l.heldAt + 50000 ≤ s.now) := by
  refine ⟨?_, ?_, ?_, ?_, ?_, ?_, ?_, ?_, ?_, ?_, ?_, ?_, ?_, ?_, ?_, ?_, ?_, ?_⟩ <;> decide +kernel

theorem witness_LinkPacketsArriveAndAreRouted :
    (let s : State := st14 2;
    let p : LinkIx := 0;
    let per : Nat := s.rdN Reg.CAD_BEAT_PERIOD;
    s.linkLive p.val = true ∧
      s.linkPaired p.val = false ∧
        s.flag (Reg.LNK_PORT_CTRL p.val) Fld.LNK_PORT_CTRL.BEAT_TX = true ∧
          per ≠ 0 ∧ (s.link p.val).beatMark < s.ticks / per) ∧
    (let s : State := st14 2;
    let p : LinkIx := 0;
    let bad : Bool := false;
    let data : List Byte := wirePkt 1;
    s.linkLive p.val = true ∧
      byteAt data 0 ≠ 0 ∧
        let seq : Nat := (s.link p.val).rxSeq;
        let good : Prop := bad = false ∧ pktCrcOk data = true ∧ leAt data 2 2 = seq;
        let x : LinkPkt := pktOf data;
        good ∧ pktOk data = true ∧ ¬x.kind ∈ [32, 63, 48, 49, 50]) ∧
    (let s : State := st14 2;
    let p : LinkIx := 0;
    let bad : Bool := false;
    let data : List Byte := leBytes 8 1;
    s.linkLive p.val = true ∧
      byteAt data 0 ≠ 0 ∧
        let seq : Nat := (s.link p.val).rxSeq;
        let good : Prop := bad = false ∧ pktCrcOk data = true ∧ leAt data 2 2 = seq;
        ¬good) ∧
    (let s : State := st14 2;
    let p : LinkIx := 0;
    let bad : Bool := false;
    let data : List Byte := wirePkt 127;
    s.linkLive p.val = true ∧
      byteAt data 0 ≠ 0 ∧
        let seq : Nat := (s.link p.val).rxSeq;
        let good : Prop := bad = false ∧ pktCrcOk data = true ∧ leAt data 2 2 = seq;
        good ∧ pktOk data = false) ∧
    (let s : State := st14 3;
    let p : LinkIx := 0;
    Option.any
        (fun (y : LinkPkt × State) =>
          decide
            (let x : LinkPkt := y.fst;
            s.verdictSeen.contains (List.take 8 x.data) = false))
        (s.linkPop p.val fun (x : LinkPkt) => x.kind == 33) =
      true) ∧
    (let s : State := st14 7;
    let p : LinkIx := 0;
    Option.any
        (fun (y : LinkPkt × State) =>
          decide
            (let x : LinkPkt := y.fst;
            s.verdictSeen.contains (List.take 8 x.data) = true))
        (s.linkPop p.val fun (x : LinkPkt) => x.kind == 33) =
      true) ∧
    (let s : State := st14 4;
    let p : LinkIx := 0;
    Option.any
        (fun (y : LinkPkt × State) =>
          decide
            (let x : LinkPkt := y.fst;
            let w : Nat := leAt x.data 0 2 * 65536 + leAt x.data 2 2;
            (∀ (j : Fin 16), s.rdN (Reg.LNK_REDIR j.val) ≠ w) ∧ ∀ (j : Fin 16), s.rdN (Reg.LNK_REDIR j.val) ≠ 0))
        (s.linkPop p.val fun (x : LinkPkt) => x.kind == 35) =
      true) ∧
    (let s : State := st14 5;
    let p : LinkIx := 0;
    Option.any
        (fun (y : LinkPkt × State) =>
          decide
            (let x : LinkPkt := y.fst;
            let w : Nat := leAt x.data 0 2 * 65536 + leAt x.data 2 2;
            (∀ (j : Fin 16), s.rdN (Reg.LNK_REDIR j.val) ≠ w) ∧
              let i : Fin 16 := 0;
              (∀ (j : Fin 16), j < i → s.rdN (Reg.LNK_REDIR j.val) ≠ 0) ∧ s.rdN (Reg.LNK_REDIR i.val) = 0))
        (s.linkPop p.val fun (x : LinkPkt) => x.kind == 35) =
      true) ∧
    (let s : State := st14 8;
    let p : LinkIx := 0;
    Option.any
        (fun (y : LinkPkt × State) =>
          decide
            (let x : LinkPkt := y.fst;
            let s1 : State := y.snd;
            s.expelled (x.src / 256) = false ∧
              let q : Nat := 1;
              s1.feidRoute x.dst = FeidDest.away q))
        (s.linkPop p.val fun (x : LinkPkt) => decide (1 ≤ x.kind ∧ x.kind ≤ 4)) =
      true) ∧
    (let s : State := st14 9;
    let p : LinkIx := 0;
    Option.any
        (fun (y : LinkPkt × State) =>
          decide
            (let x : LinkPkt := y.fst;
            let s1 : State := y.snd;
            s.expelled (x.src / 256) = false ∧
              let pos : Nat := 0;
              s1.feidRoute x.dst = FeidDest.here pos ∧ x.request = true))
        (s.linkPop p.val fun (x : LinkPkt) => decide (1 ≤ x.kind ∧ x.kind ≤ 4)) =
      true) ∧
    (let s : State := st14 10;
    let p : LinkIx := 0;
    Option.any
        (fun (y : LinkPkt × State) =>
          decide
            (let x : LinkPkt := y.fst;
            let s1 : State := y.snd;
            s.expelled (x.src / 256) = false ∧
              let pos : Nat := 0;
              s1.feidRoute x.dst = FeidDest.here pos ∧ x.request = false ∧ pos < 48))
        (s.linkPop p.val fun (x : LinkPkt) => decide (1 ≤ x.kind ∧ x.kind ≤ 4)) =
      true) ∧
    (let s : State := st14 11;
    let p : LinkIx := 0;
    Option.any
        (fun (y : LinkPkt × State) =>
          decide
            (let x : LinkPkt := y.fst;
            let s1 : State := y.snd;
            s.expelled (x.src / 256) = false ∧
              let b : Nat := 2;
              s1.feidRoute x.dst = FeidDest.standIn b ∧ x.request = true))
        (s.linkPop p.val fun (x : LinkPkt) => decide (1 ≤ x.kind ∧ x.kind ≤ 4)) =
      true) ∧
    (let s : State := st14 12;
    let p : LinkIx := 0;
    Option.any
        (fun (y : LinkPkt × State) =>
          decide
            (let x : LinkPkt := y.fst;
            let s1 : State := y.snd;
            s.expelled (x.src / 256) = false ∧ s1.feidRoute x.dst = FeidDest.barred ∧ x.request = true))
        (s.linkPop p.val fun (x : LinkPkt) => decide (1 ≤ x.kind ∧ x.kind ≤ 4)) =
      true) ∧
    (let s : State := st14 13;
    let p : LinkIx := 0;
    Option.any
        (fun (y : LinkPkt × State) =>
          decide
            (let x : LinkPkt := y.fst;
            let s1 : State := y.snd;
            s.expelled (x.src / 256) = false ∧ s1.feidRoute x.dst = FeidDest.orphan ∧ x.request = true))
        (s.linkPop p.val fun (x : LinkPkt) => decide (1 ≤ x.kind ∧ x.kind ≤ 4)) =
      true) ∧
    (let s : State := st14 14;
    let p : LinkIx := 0;
    Option.any
        (fun (y : LinkPkt × State) =>
          decide
            (let x : LinkPkt := y.fst;
            let s1 : State := y.snd;
            s.expelled (x.src / 256) = false ∧ s1.feidRoute x.dst = FeidDest.nowhere ∧ x.request = true))
        (s.linkPop p.val fun (x : LinkPkt) => decide (1 ≤ x.kind ∧ x.kind ≤ 4)) =
      true) ∧
    (let s : State := st14 26;
    let e : EngIx := 0;
    let q : QueueIx := 0;
    let ix : Fin 65536 := 0;
    Option.any
        (fun (f : Flight) =>
          decide
            (s.flightFar f = true ∧
              f.open' = true ∧
                f.code = 0 ∧ f.asked.headD f.since + 1000 * max 10 (s.fld Reg.LNK_TIMEOUT Fld.LNK_TIMEOUT.US) ≤ s.now))
        (s.flight e.val q.val ix.val) =
      true) := by
  refine ⟨?_, ?_, ?_, ?_, ?_, ?_, ?_, ?_, ?_, ?_, ?_, ?_, ?_, ?_, ?_, ?_⟩ <;> decide +kernel

theorem witness_CollectivesCombineDeliverAndAbort :
    (let s : State := st14 16;
    let r : Req := Req.host 0 0;
    let c : Fin 64 := 0;
    let v : Word := 2147483648#32;
    let cfg : Nat := Reg.LNK_COLL_CFG c.val 0;
    (s.gate r cfg (BitVec.toNat v)).snd = true ∧
      let a : State := entered s r cfg (BitVec.toNat v);
      a.flag cfg Fld.LNK_COLL_CFG.ENABLE = false ∧
        bit (BitVec.toNat v) 31 = true ∧ a.horizon < a.fld (Reg.LNK_COLL_CFG c.val 1) Fld.LNK_COLL_CFG.DIAMETER) ∧
    (let s : State := st14 17;
    let r : Req := Req.host 0 0;
    let c : Fin 64 := 0;
    let v : Word := 2147483648#32;
    let cfg : Nat := Reg.LNK_COLL_CFG c.val 0;
    (s.gate r cfg (BitVec.toNat v)).snd = true ∧
      let a : State := entered s r cfg (BitVec.toNat v);
      a.flag cfg Fld.LNK_COLL_CFG.ENABLE = true ∧ bit (BitVec.toNat v) 31 = true) ∧
    (let s : State := st14 17;
    let c : Fin 64 := 0;
    let live : State → Prop := fun (s : State) => s.collState c.val = 1 ∨ s.collState c.val = 2;
    Option.any (fun (x : CollIn) => decide (collOf x.addr = c.val ∧ s.collDie c.val = x.die ∧ live s))
        s.collIn.head? =
      true) ∧
    (let s : State := st14 17;
    let p : LinkIx := 0;
    (s.linkPop p.val fun (x : LinkPkt) => x.kind == 16 && !bit x.aux 0).isSome = true) ∧
    (let s : State := st14 17;
    let c : Fin 64 := 0;
    let live : State → Prop := fun (s : State) => s.collState c.val = 1 ∨ s.collState c.val = 2;
    let addr : Nat := 0;
    let bs : List Byte := wirePkt 1;
    collOf addr = c.val ∧
      live s ∧
        s.collBroadcast c.val = false ∧
          (((s.coll c.val).steps.any fun (x : CollStep) => x.step == stepOf addr) = true ∨
              (s.coll c.val).steps.length < 2) ∧
            let old : CollStep :=
              (List.find? (fun (x : CollStep) => x.step == stepOf addr) (s.coll c.val).steps).getD
                { step := stepOf addr, lastAt := 0 : CollStep };
            let words : List (BitVec 64) :=
              List.map (fun (w : List Byte) => BitVec.ofNat 64 (leNat w)) (chunks 8 (bs.length / 8) bs);
            let r : CollStep × List (Nat × List Byte) × Bool :=
              collAdd (s.collNeed c.val)
                { step := old.step, lastAt := s.now, words := old.words, done := old.done : CollStep } (collOffset addr)
                words;
            r.snd.snd = false) ∧
    (let s : State := st14 18;
    let c : Fin 64 := 0;
    let live : State → Prop := fun (s : State) => s.collState c.val = 1 ∨ s.collState c.val = 2;
    let p : LinkIx := 0;
    Option.any
        (fun (y : LinkPkt × State) =>
          decide
            (let x : LinkPkt := y.fst;
            collOf x.addr = c.val ∧ live s ∧ s.collParent c.val = p.val))
        (s.linkPop p.val fun (x : LinkPkt) => x.kind == 16 && bit x.aux 0) =
      true) ∧
    (let s : State := st14 0;
    let r : Req := Req.host 0 0;
    let c : Fin 64 := 0;
    let v : Word := 2147483648#32;
    let cfg : Nat := Reg.LNK_COLL_CFG c.val 0;
    (s.gate r cfg (BitVec.toNat v)).snd = true ∧
      let a : State := entered s r cfg (BitVec.toNat v);
      a.flag cfg Fld.LNK_COLL_CFG.ENABLE = false ∧
        bit (BitVec.toNat v) 31 = true ∧ a.fld (Reg.LNK_COLL_CFG c.val 1) Fld.LNK_COLL_CFG.DIAMETER ≤ a.horizon) ∧
    (let s : State := st14 17;
    let c : Fin 64 := 0;
    let live : State → Prop := fun (s : State) => s.collState c.val = 1 ∨ s.collState c.val = 2;
    live s ∧ (s.coll c.val).due ≠ 0 ∧ (s.coll c.val).due < 16) ∧
    (let s : State := st14 17;
    let r : Req := Req.host 0 0;
    let c : Fin 64 := 0;
    let v : Word := 1#32;
    let cfg : Nat := Reg.LNK_COLL_CFG c.val 0;
    (s.gate r (Reg.LNK_COLL_CTRL c.val) (BitVec.toNat v)).snd = true ∧
      bit (BitVec.toNat v) 1 = false ∧
        bit (BitVec.toNat v) 0 = true ∧
          let a : State := entered s r (Reg.LNK_COLL_CTRL c.val) (BitVec.toNat v);
          a.flag cfg Fld.LNK_COLL_CFG.ENABLE = true) ∧
    (let s : State := st14 17;
    let r : Req := Req.host 0 0;
    let c : Fin 64 := 0;
    let v : Word := 2#32;
    let live : State → Prop := fun (s : State) => s.collState c.val = 1 ∨ s.collState c.val = 2;
    (s.gate r (Reg.LNK_COLL_CTRL c.val) (BitVec.toNat v)).snd = true ∧
      bit (BitVec.toNat v) 1 = true ∧ bit (BitVec.toNat v) 0 = false ∧ live s) ∧
    (let s : State := st14 18;
    let c : Fin 64 := 0;
    let live : State → Prop := fun (s : State) => s.collState c.val = 1 ∨ s.collState c.val = 2;
    let q : LinkIx := 0;
    Option.any (fun (y : LinkPkt × State) => decide (live s))
        (s.linkPop q.val fun (x : LinkPkt) => x.kind == 17 && x.aux % 64 == c.val) =
      true) ∧
    (let s : State := st14 18;
    let c : Fin 64 := 0;
    let live : State → Prop := fun (s : State) => s.collState c.val = 1 ∨ s.collState c.val = 2;
    Option.any
        (fun (x : CollStep) =>
          decide (live s ∧ x.lastAt + max 1 (s.fld Reg.LNK_CFG Fld.LNK_CFG.COLL_TIMEOUT) * 1000 ≤ s.now))
        (s.coll c.val).steps[0]? =
      true) := by
  refine ⟨?_, ?_, ?_, ?_, ?_, ?_, ?_, ?_, ?_, ?_, ?_, ?_⟩ <;> decide +kernel

theorem witness_PairsMirrorCommitAndTakeOver :
    (let s : State := st14 23;
    let formed : Prop := 2 ≤ s.pairState ∧ s.pairState ≤ 4;
    formed ∧ s.pair.heard + 3000 ≤ s.now) ∧
    (let s : State := st14 0;
    2 ≤ s.pairState ∧ s.pair.beatAt + 1000 ≤ s.now) ∧
    (let s : State := st14 0;
    let r : Req := Req.host 0 0;
    let v : Word := 1#32;
    let ctl : Nat := Reg.LNK_PAIR_CTRL;
    (s.gate r ctl (BitVec.toNat v)).snd = true ∧
      bit (BitVec.toNat v) 0 = true ∧
        let a : State := entered s r ctl (BitVec.toNat v);
        a.flag ctl Fld.LNK_PAIR_CTRL.ENABLE = false ∧ (s.linkLive 6 = false ∨ s.linkLive 7 = false)) ∧
    (let s : State := st14 24;
    let p : LinkIx := 6;
    Option.any (fun (y : LinkPkt × State) => decide (s.pairState = 2 ∨ s.pairState = 4))
        (s.linkPop p.val fun (x : LinkPkt) => x.kind == 50 && bit x.aux 0) =
      true) ∧
    (let s : State := st14 20;
    let r : Req := Req.host 0 0;
    let v : Word := 1#32;
    let ctl : Nat := Reg.LNK_PAIR_CTRL;
    let stat : Nat := Reg.LNK_PAIR_STAT;
    let partner : Partner := { stage := 0, regions := [], canvases := [], feids := [] : Partner };
    (s.gate r ctl (BitVec.toNat v)).snd = true ∧
      bit (BitVec.toNat v) 0 = true ∧
        let a : State := entered s r ctl (BitVec.toNat v);
        let b : State := (a.plainWrite ctl (BitVec.toNat v)).wr stat 1;
        a.flag ctl Fld.LNK_PAIR_CTRL.ENABLE = false ∧ s.linkLive 6 = true ∧ s.linkLive 7 = true ∧ b.pairCode partner = 0) ∧
    (let s : State := st14 21;
    let r : Req := Req.host 0 0;
    let v : Word := 1#32;
    let ctl : Nat := Reg.LNK_PAIR_CTRL;
    let stat : Nat := Reg.LNK_PAIR_STAT;
    let partner : Partner := { stage := 0, regions := [], canvases := [], feids := [] : Partner };
    (s.gate r ctl (BitVec.toNat v)).snd = true ∧
      bit (BitVec.toNat v) 0 = true ∧
        let a : State := entered s r ctl (BitVec.toNat v);
        let b : State := (a.plainWrite ctl (BitVec.toNat v)).wr stat 1;
        a.flag ctl Fld.LNK_PAIR_CTRL.ENABLE = false ∧ s.linkLive 6 = true ∧ s.linkLive 7 = true ∧ b.pairCode partner ≠ 0) ∧
    (let s : State := st14 22;
    let r : Req := Req.host 0 0;
    let v : Word := 3#32;
    let ctl : Nat := Reg.LNK_PAIR_CTRL;
    (s.gate r ctl (BitVec.toNat v)).snd = true ∧
      bit (BitVec.toNat v) 0 = true ∧
        bit (BitVec.toNat v) 1 = true ∧
          let a : State := entered s r ctl (BitVec.toNat v);
          a.flag ctl Fld.LNK_PAIR_CTRL.ENABLE = true ∧
            a.pairState = 5 ∧ (a.plainWrite ctl (BitVec.toNat v)).standIns[0]?.isSome = true) ∧
    (let s : State := st14 22;
    let r : Req := Req.host 0 0;
    let v : Word := 3#32;
    let ctl : Nat := Reg.LNK_PAIR_CTRL;
    (s.gate r ctl (BitVec.toNat v)).snd = true ∧
      bit (BitVec.toNat v) 0 = true ∧
        bit (BitVec.toNat v) 1 = true ∧
          let a : State := entered s r ctl (BitVec.toNat v);
          a.flag ctl Fld.LNK_PAIR_CTRL.ENABLE = true ∧
            a.pairState = 5 ∧
              let e : Nat := 0;
              ∀ (x : Nat × Nat), x ∈ (a.plainWrite ctl (BitVec.toNat v)).standIns → x.snd ≠ e) ∧
    (let s : State := st14 23;
    let p : LinkIx := 6;
    Option.any
        (fun (y : LinkPkt × State) =>
          decide
            (let s1 : State := y.snd;
            s.pairState = 3 ∧ s1.standIns[0]?.isSome = true))
        (s.linkPop p.val fun (x : LinkPkt) => x.kind == 50 && bit x.aux 0) =
      true) ∧
    (let s : State := st14 23;
    let p : LinkIx := 6;
    Option.any
        (fun (y : LinkPkt × State) =>
          decide
            (let s1 : State := y.snd;
            s.pairState = 3 ∧
              let e : Nat := 0;
              ∀ (x : Nat × Nat), x ∈ s1.standIns → x.snd ≠ e))
        (s.linkPop p.val fun (x : LinkPkt) => x.kind == 50 && bit x.aux 0) =
      true) ∧
    (let s : State := st14 23;
    let formed : Prop := 2 ≤ s.pairState ∧ s.pairState ≤ 4;
    formed ∧
      (s.linkLive 6 = true ∨ s.linkLive 7 = true) ∧
        let b : Fin 68719476736 := 0;
        (s.mirrorOf (b.val * 4096)).isSome = true) ∧
    (let s : State := st14 23;
    let formed : Prop := 2 ≤ s.pairState ∧ s.pairState ≤ 4;
    formed ∧
      (s.linkLive 6 = true ∨ s.linkLive 7 = true) ∧
        let e : EngIx := 3;
        Option.any
            (fun (y : Nat × Nat) =>
              decide
                (y.fst = e.val ∧
                  let b : Nat := y.snd;
                  let i : Fin 16384 := 0;
                  s.pair.apply = [] ∧ i.val * 4096 + 4096 ≤ varnishLenOf (s.stbyBody b)))
            (List.find? (fun (p : Nat × Nat) => p.fst == e.val) s.standIns) =
          true) ∧
    (let s : State := st14 23;
    let formed : Prop := 2 ≤ s.pairState ∧ s.pairState ≤ 4;
    formed ∧
      (s.linkLive 6 = true ∨ s.linkLive 7 = true) ∧
        let j : Fin 1048576 := 0;
        s.pair.apply = [] ∧ j.val < s.stageBlocks) ∧
    (let s : State := st14 24;
    let formed : Prop := 2 ≤ s.pairState ∧ s.pairState ≤ 4;
    let copied : Bool := true;
    formed ∧ s.pair.apply = [] ∧ copied = true ∧ s.pairState = 2) ∧
    (let s : State := st14 23;
    let formed : Prop := 2 ≤ s.pairState ∧ s.pairState ≤ 4;
    let copied : Bool := false;
    formed ∧ s.pair.apply = [] ∧ (copied = false ∨ s.pairState ≠ 2)) ∧
    (let s : State := st14 23;
    let formed : Prop := 2 ≤ s.pairState ∧ s.pairState ≤ 4;
    formed ∧
      s.pair.apply = [] ∧
        Option.any (fun (x : Nat × Nat) => decide (s.pair.passes.contains x.fst = true ∧ s.cvState x.snd = Cv.STANDBY))
            s.standIns[0]? =
          true) ∧
    (let s : State := st14 25;
    s.pair.apply ≠ []) := by
  refine ⟨?_, ?_, ?_, ?_, ?_, ?_, ?_, ?_, ?_, ?_, ?_, ?_, ?_, ?_, ?_, ?_, ?_⟩ <;> decide +kernel

/-! ### Guest sites (15_sekaen_guest_sites) -/

/-- A guest's packet with good header and CRC (15_sekaen_guest_sites R412). -/
def guestPkt (kind dst addr tag aux : Nat) (data : List Byte) : List Byte :=
  let h := leBytes 1 kind ++ leBytes 5 0 ++ leBytes 2 data.length ++ leBytes 3 dst ++ leBytes 1 0 ++ leBytes 3 0 ++ leBytes 1 0 ++ leBytes 6 addr ++ leBytes 2 tag ++
    leBytes 8 aux ++ data
  h ++ leBytes 4 (crc32c (h.take 1 ++ List.replicate 5 0#8 ++ h.drop 6))

/-- The panel with a guest at site 0 whose flags are as given. -/
def guestPanel (present powered qual adm rst : Nat) : State :=
  let s := { panel with now := 5000000, edgeFeid := [(0, 0x80)], guestWaits := [⟨0, 5, 0, .engine 0⟩], ground := { panel.ground with routes := leBytes 0x410 0 ++ leBytes 2 5 ++ leBytes 2 9 ++ leBytes 1 49 ++ leBytes 1 1 ++ leBytes 0x7A 0 } }
  put s ([(Reg.SK_GUEST_STAT 0, Fld.SK_GUEST_STAT.PRESENT, present), (Reg.SK_GUEST_STAT 0, Fld.SK_GUEST_STAT.POWERED, powered),
    (Reg.SK_GUEST_STAT 0, Fld.SK_GUEST_STAT.QUALIFIED, qual), (Reg.SK_GUEST_STAT 0, Fld.SK_GUEST_STAT.ADMITTED, adm), (Reg.SK_GUEST_STAT 0, Fld.SK_GUEST_STAT.IN_RESET, rst),
    (Reg.SK_GUEST_PORT 0 0, Fld.SK_PORT.STATE, 1), (Reg.SK_GUEST_PORT 0 1, Fld.SK_PORT.STATE, 1), (Reg.SK_GUEST_ACCESS 0, Fld.SK_GUEST_ACCESS.PARTS, 1),
    (Reg.SK_GUEST_TIMEOUT 0, Fld.SK_GUEST_TIMEOUT.US, 1), (Reg.SK_GUEST_CAP 0 2, ⟨31, 0⟩, 0x10000)] ++
    (List.range 14).map fun n => (Reg.SK_PORT 0 n, Fld.SK_PORT.STATE, 1))

/-- A guest in service. -/
def liveGuest : State := guestPanel 1 1 1 1 0

/-- The failed lanes of port 0 of engine 0: five in each of 12 modules, four in the next. -/
def lanes12 : SMap Nat := (List.range 13).map fun m => (m, if m < 12 then 31 else 15)

/-- The states for ports and guests. -/
def st15 : Nat → State
  | 0 => liveGuest
  | 1 => put (guestPanel 0 0 0 0 1) [(Reg.PNL_ENG_STATE 0, Fld.PNL_ENG_STATE.STATE, 3)]
  | 2 => let s := guestPanel 0 0 0 0 1; { s with flash := { s.flash with quals := [(0, leBytes 5 0 ++ leBytes 1 180 ++ leBytes 40 0)] } }
  | 3 => guestPanel 1 1 1 0 0
  | 4 => guestPanel 1 1 0 0 0
  | 5 => { guestPanel 1 1 1 1 1 with guestHeld := [0] }
  | 6 => { liveGuest with skFail := lanes12 }
  | _ => { liveGuest with edgeDown := [3] }

theorem witness_GuestSitesAndSekaenPorts :
    (let s : State := st15 0;
    let e : EngIx := 0;
    let n : Fin 14 := 0;
    let m : Fin 16 := 0;
    let lane : Fin 64 := 40;
    s.fld (Reg.SK_PORT e.val n.val) Fld.SK_PORT.STATE = 1 ∧
      bit (s.skMask (SkPort.die e n) m.val) lane.val = false) ∧
    (let s : State := st15 0;
    let g : SiteIx := 0;
    s.guestFlag g.val Fld.SK_GUEST_STAT.PRESENT = true ∧
      s.guestFlag g.val Fld.SK_GUEST_STAT.POWERED = true ∧ s.guestLive g.val = true) ∧
    (let s : State := st15 0;
    let r : Req := Req.host 0 0;
    let g : SiteIx := 0;
    let v : Word := 0#32;
    let ctl : Nat := Reg.SK_GUEST_CTRL g.val;
    let at' : Nat → State := fun (x : Nat) => entered s r ctl x;
    let clear : Nat → List Nat → Prop := fun (x : Nat) (bs : List Nat) => ∀ (b : Nat), b ∈ bs → bit x b = false;
    let x : Nat := putBits (BitVec.toNat v) 3 3 1;
    (s.gate r ctl x).snd = true ∧
      clear x [0, 1, 2] ∧
        (at' x).guestFlag g.val Fld.SK_GUEST_STAT.ADMITTED = true ∧ (at' x).guestLive g.val = true) ∧
    (let s : State := st15 0;
    let r : Req := Req.host 0 0;
    let g : SiteIx := 0;
    let v : Word := 0#32;
    let ctl : Nat := Reg.SK_GUEST_CTRL g.val;
    let at' : Nat → State := fun (x : Nat) => entered s r ctl x;
    let clear : Nat → List Nat → Prop := fun (x : Nat) (bs : List Nat) => ∀ (b : Nat), b ∈ bs → bit x b = false;
    let x : Nat := putBits (BitVec.toNat v) 1 1 1;
    (s.gate r ctl x).snd = true ∧ clear x [0, 2, 3] ∧ (at' x).guestLive g.val = true) ∧
    (let s : State := st15 0;
    let r : Req := Req.host 0 0;
    let g : SiteIx := 0;
    let v : Word := 0#32;
    let err : Nat := Reg.SK_GUEST_ERR g.val;
    (s.gate r err (BitVec.toNat v)).snd = true ∧
      let n : Nat := 29;
      29 ≤ n ∧ n ≤ 31) ∧
    (let s : State := st15 0;
    let g : SiteIx := 0;
    let edge : Bool := false;
    let data : List Byte := leBytes 1 0;
    s.guestLive g.val = true ∧
      s.fld (Reg.SK_GUEST_PORT g.val (b2n edge)) Fld.SK_PORT.STATE = 1 ∧ guestPktOk data = false) ∧
    (let s : State := st15 7;
    let g : SiteIx := 0;
    let edge : Bool := true;
    let data : List Byte := guestPkt 1 0 0 0 64 [];
    s.guestLive g.val = true ∧
      s.fld (Reg.SK_GUEST_PORT g.val (b2n edge)) Fld.SK_PORT.STATE = 1 ∧
        let x : LinkPkt := pktOf data;
        guestPktOk data = true ∧ x.request = true ∧ edge = true ∧ s.posDown (guestEngine g.val) = true) ∧
    (let s : State := st15 0;
    let g : SiteIx := 0;
    let edge : Bool := false;
    let data : List Byte := guestPkt 1 1280 0 0 64 [];
    s.guestLive g.val = true ∧
      s.fld (Reg.SK_GUEST_PORT g.val (b2n edge)) Fld.SK_PORT.STATE = 1 ∧
        let x : LinkPkt := pktOf data;
        guestPktOk data = true ∧
          x.request = true ∧
            edge = false ∧
              let p : Nat := 1;
              s.feidRoute x.dst = FeidDest.away p) ∧
    (let s : State := st15 0;
    let g : SiteIx := 0;
    let edge : Bool := false;
    let data : List Byte := guestPkt 1 0 70368744177664 0 4097 [];
    s.guestLive g.val = true ∧
      s.fld (Reg.SK_GUEST_PORT g.val (b2n edge)) Fld.SK_PORT.STATE = 1 ∧
        let x : LinkPkt := pktOf data;
        guestPktOk data = true ∧
          x.request = true ∧
            edge = false ∧
              let n : Nat := if x.kind = 1 then x.aux % 8192 else x.data.length;
              let pos : Nat := 0;
              s.feidRoute x.dst = FeidDest.here pos ∧ s.guestMay g.val x.addr n ≠ St.OK) ∧
    (let s : State := st15 0;
    let g : SiteIx := 0;
    let edge : Bool := false;
    let data : List Byte := guestPkt 1 0 0 0 64 [];
    s.guestLive g.val = true ∧
      s.fld (Reg.SK_GUEST_PORT g.val (b2n edge)) Fld.SK_PORT.STATE = 1 ∧
        let x : LinkPkt := pktOf data;
        guestPktOk data = true ∧
          x.request = true ∧
            edge = false ∧
              let n : Nat := if x.kind = 1 then x.aux % 8192 else x.data.length;
              let pos : Nat := 0;
              s.feidRoute x.dst = FeidDest.here pos ∧
                let t : Nat := 0;
                let j : Nat := 0;
                let o : Nat := 0;
                s.guestMay g.val x.addr n = St.OK ∧ s.target x.addr = Target.spread t j o ∧ x.kind = 1) ∧
    (let s : State := st15 0;
    let g : SiteIx := 0;
    let edge : Bool := false;
    let data : List Byte := guestPkt 2 0 0 0 0 (leBytes 8 1);
    s.guestLive g.val = true ∧
      s.fld (Reg.SK_GUEST_PORT g.val (b2n edge)) Fld.SK_PORT.STATE = 1 ∧
        let x : LinkPkt := pktOf data;
        guestPktOk data = true ∧
          x.request = true ∧
            edge = false ∧
              let n : Nat := if x.kind = 1 then x.aux % 8192 else x.data.length;
              let pos : Nat := 0;
              s.feidRoute x.dst = FeidDest.here pos ∧
                let t : Nat := 0;
                let j : Nat := 0;
                let o : Nat := 0;
                s.guestMay g.val x.addr n = St.OK ∧
                  s.target x.addr = Target.spread t j o ∧ x.kind ≠ 1 ∧ bit x.aux 0 = false) ∧
    (let s : State := st15 0;
    let g : SiteIx := 0;
    let edge : Bool := false;
    let data : List Byte := guestPkt 3 0 0 5 0 [];
    s.guestLive g.val = true ∧
      s.fld (Reg.SK_GUEST_PORT g.val (b2n edge)) Fld.SK_PORT.STATE = 1 ∧
        let x : LinkPkt := pktOf data;
        guestPktOk data = true ∧
          x.request = false ∧
            Option.any
                (fun (w : GuestWait) =>
                  decide
                    (let e : Nat := 0;
                    w.who = GuestAsker.engine e))
                (List.find? (fun (w : GuestWait) => w.site == g.val && w.tag == x.tag) s.guestWaits) =
              true) ∧
    (let s : State := st15 0;
    let g : SiteIx := 0;
    let e : EngIx := 0;
    let o : Fin 274877906944 := 1073741824;
    let n : Fin 4097 := 64;
    s.engineUp e.val = true ∧
      n.val ≠ 0 ∧ s.guestReach g.val o.val n.val (s.partId e.val) ≠ St.OK) ∧
    (let s : State := st15 0;
    let g : SiteIx := 0;
    let e : EngIx := 0;
    let o : Fin 274877906944 := 0;
    let n : Fin 4097 := 64;
    s.engineUp e.val = true ∧
      n.val ≠ 0 ∧ s.guestReach g.val o.val n.val (s.partId e.val) = St.OK) ∧
    (let s : State := st15 0;
    let g : SiteIx := 0;
    Option.any
        (fun (w : GuestWait) =>
          decide
            (w.since + 1000 * max 1 (s.fld (Reg.SK_GUEST_TIMEOUT g.val) Fld.SK_GUEST_TIMEOUT.US) ≤ s.now ∧
              let e : Nat := 0;
              w.who = GuestAsker.engine e))
        (List.find? (fun (w : GuestWait) => w.site == g.val) s.guestWaits) =
      true) ∧
    (let s : State := st15 1;
    let port : SkPort := SkPort.die 0 0;
    s.skMayTrain port = true) ∧
    (let s : State := st15 1;
    let port : SkPort := SkPort.die 0 0;
    s.skMayTrain port = true ∧
      let e : EngIx := 0;
      let n : Fin 14 := 0;
      port = SkPort.die e n) ∧
    (let s : State := st15 1;
    let g : SiteIx := 0;
    s.guestFlag g.val Fld.SK_GUEST_STAT.PRESENT = false ∧
      s.guestFlag g.val Fld.SK_GUEST_STAT.POWERED = false ∧ SMap.find? s.flash.quals g.val = none) ∧
    (let s : State := st15 1;
    let r : Req := Req.host 0 0;
    let g : SiteIx := 0;
    let v : Word := 0#32;
    let ctl : Nat := Reg.SK_GUEST_CTRL g.val;
    let at' : Nat → State := fun (x : Nat) => entered s r ctl x;
    let clear : Nat → List Nat → Prop := fun (x : Nat) (bs : List Nat) => ∀ (b : Nat), b ∈ bs → bit x b = false;
    let x : Nat := putBits (BitVec.toNat v) 0 0 1;
    (s.gate r ctl x).snd = true ∧
      clear x [1, 2, 3] ∧
        (at' x).guestFlag g.val Fld.SK_GUEST_STAT.ADMITTED = false ∧
          (at' x).guestFlag g.val Fld.SK_GUEST_STAT.QUALIFIED = false) ∧
    (let s : State := st15 2;
    let g : SiteIx := 0;
    s.guestFlag g.val Fld.SK_GUEST_STAT.PRESENT = false ∧
      s.guestFlag g.val Fld.SK_GUEST_STAT.POWERED = false ∧
        s.boot.link = true ∧ (SMap.find? s.flash.quals g.val).isSome = true) ∧
    (let s : State := st15 3;
    let r : Req := Req.host 0 0;
    let g : SiteIx := 0;
    let v : Word := 0#32;
    let ctl : Nat := Reg.SK_GUEST_CTRL g.val;
    let at' : Nat → State := fun (x : Nat) => entered s r ctl x;
    let clear : Nat → List Nat → Prop := fun (x : Nat) (bs : List Nat) => ∀ (b : Nat), b ∈ bs → bit x b = false;
    let x : Nat := putBits (BitVec.toNat v) 0 0 1;
    (s.gate r ctl x).snd = true ∧
      clear x [1, 2, 3] ∧
        (at' x).guestFlag g.val Fld.SK_GUEST_STAT.ADMITTED = false ∧
          (at' x).guestFlag g.val Fld.SK_GUEST_STAT.QUALIFIED = true) ∧
    (let s : State := st15 5;
    let r : Req := Req.host 0 0;
    let g : SiteIx := 0;
    let v : Word := 0#32;
    let ctl : Nat := Reg.SK_GUEST_CTRL g.val;
    let clear : Nat → List Nat → Prop := fun (x : Nat) (bs : List Nat) => ∀ (b : Nat), b ∈ bs → bit x b = false;
    let x : Nat := putBits (BitVec.toNat v) 2 2 1;
    (s.gate r ctl x).snd = true ∧
      clear x [0, 1, 3] ∧ g.val ∈ s.guestHeld ∧ s.guestFlag g.val Fld.SK_GUEST_STAT.POWERED = true) := by
  refine ⟨?_, ?_, ?_, ?_, ?_, ?_, ?_, ?_, ?_, ?_, ?_, ?_, ?_, ?_, ?_, ?_, ?_, ?_, ?_, ?_, ?_, ?_⟩ <;> decide +kernel

/-! ### Power (16_power) -/

/-- The panel in bus mode at 54 V, engine 0 in a supply state. -/
def powerPanel (pw mode phases draw : Nat) (x : Supply) (i : Input := { volts := [540], okSince := some 0 }) : State :=
  let s := { panel with now := 300000, input := i, rampQ := if pw = 1 then [0] else [], stages := [(2, 6)] }
  let s := s.onEng 0 fun g => { g with sup := x }
  put s [(Reg.PWR_ENG_STAT 0, Fld.PWR_ENG_STAT.STATE, pw), (Reg.PNL_ENG_STATE 0, Fld.PNL_ENG_STATE.STATE, if pw = 4 then 5 else 0), (Reg.PWR_MODE, Fld.PWR_MODE.MODE, mode),
    (Reg.PWR_ENG_PHASE 0, Fld.PWR_ENG_PHASE.PHASES, phases), (Reg.PWR_LIMIT, Fld.PWR_LIMIT.SUSTAIN, 46000), (Reg.PWR_LIMIT, Fld.PWR_LIMIT.INST, 52000),
    (Reg.PWR_BUDGET, Fld.PWR_BUDGET.DRAW, draw), (Reg.PWR_ENG_VSET 0, Fld.PWR_ENG_VSET.VSET, 1000)]

/-- The states for power. -/
def st16 : Nat → State
  | 0 => powerPanel 4 0 16 1000 { }
  | 1 => put (powerPanel 4 0 12 60000 { high := 7 } { volts := [540] }) [(Reg.PWR_ENG_BRK 0, Fld.PWR_ENG_BRK.TRIPS, 1)]
  | 2 => powerPanel 0 0 16 0 { }
  | 3 => powerPanel 0 0 16 0 { } { }
  | 4 => powerPanel 6 0 16 0 { }
  | 5 => put (powerPanel 0 0 16 0 { }) [(Reg.PNL_ENG_STATE 0, Fld.PNL_ENG_STATE.STATE, 8)]
  | 6 => powerPanel 1 0 16 0 { }
  | 7 => powerPanel 2 0 16 0 { }
  | 8 => powerPanel 3 0 16 0 { since := 290000 }
  | 9 => powerPanel 3 0 16 0 { since := 290000, busOk := some 290000 }
  | 10 => powerPanel 3 0 16 0 { since := 0, paused := 4900000 }
  | 11 => powerPanel 3 1 16 0 { since := 290000 }
  | _ => powerPanel 4 0 16 60000 { }

theorem witness_PowerStatesLimitsAndInput :
    (let s : State := st16 0;
    let e : EngIx := 0;
    let min' : Fin 2048 := 0;
    s.pwr e.val = 4 ∧
      let target : Nat := 680 + 5 * Nat.min 20 (s.fld (Reg.PWR_ENG_VLOGIC e.val) Fld.PWR_ENG_VLOGIC.STEP);
      (↑min' : Nat) + 10 < target) ∧
    (let s : State := st16 0;
    let e : EngIx := 0;
    let min' : Fin 2048 := 690;
    s.pwr e.val = 4 ∧
      let target : Nat := 680 + 5 * Nat.min 20 (s.fld (Reg.PWR_ENG_VLOGIC e.val) Fld.PWR_ENG_VLOGIC.STEP);
      target ≤ (↑min' : Nat) + 10 ∧ (↑min' : Nat) ≤ target + 20) ∧
    (let s : State := st16 0;
    let e : EngIx := 0;
    let min' : Fin 2048 := 2000;
    s.pwr e.val = 4 ∧
      let target : Nat := 680 + 5 * Nat.min 20 (s.fld (Reg.PWR_ENG_VLOGIC e.val) Fld.PWR_ENG_VLOGIC.STEP);
      target + 20 < (↑min' : Nat) ∧ (s.eng e.val).sup.high < 7) ∧
    (let s : State := st16 0;
    let e : EngIx := 0;
    let die : Fin 6 := 0;
    let stage : Fin 24 := 3;
    s.supplied e.val = true ∧
      (die.val = 5 ∨ (s.dieAt e.val die.val).isSome = true ∨ s.engState e.val < 5) ∧
        (die.val = 5 → stage.val < 16) ∧ s.listed 6 e.val die.val stage.val = false) ∧
    (let s : State := st16 0;
    let e : EngIx := 0;
    let phase : Fin 16 := 3;
    s.mode = 0 ∧ s.supplied e.val = true ∧ bit (s.eng e.val).sup.badPhases phase.val = false) ∧
    (let s : State := st16 0;
    let e : EngIx := 0;
    s.supplied e.val = true ∧
      let a : Nat := 0;
      e.val * 2 ^ 37 ≤ a ∧ a < (e.val + 1) * 2 ^ 37) ∧
    (let s : State := st16 0;
    let e : EngIx := 0;
    s.supplied e.val = true ∧
      let a : Nat := 206158430208;
      a < e.val * 2 ^ 37 ∨ (e.val + 1) * 2 ^ 37 ≤ a) ∧
    (let s : State := st16 0;
    let draws : List (Fin 65536 × Fin 65536) := [(1, 2)];
    s.boot.link = true ∧
      let i : Nat := 0;
      Option.any (fun (x : Fin 65536 × Fin 65536) => decide (i < 48)) draws[i]? = true) ∧
    (let s : State := st16 0;
    let dv : Fin 65536 := 10;
    let amps : Fin 65536 := 10;
    s.boot.link = true ∧
      let p : Nat := dv.val * amps.val / 10;
      s.mode = 0 ∧ p < 65536) ∧
    (let s : State := st16 0;
    let dv : Fin 65536 := 540;
    s.boot.link = true ∧ s.mode = 0 ∧ inputBand dv.val = s.input.band) ∧
    (let s : State := st16 0;
    let dv : Fin 65536 := 10;
    s.boot.link = true ∧ s.mode = 0 ∧ inputBand dv.val ≠ s.input.band ∧ inputBand dv.val = 1) ∧
    (let s : State := st16 0;
    let dv : Fin 65536 := 570;
    s.boot.link = true ∧ s.mode = 0 ∧ inputBand dv.val ≠ s.input.band ∧ inputBand dv.val = 2) ∧
    (let s : State := st16 1;
    let e : EngIx := 0;
    let min' : Fin 2048 := 2000;
    s.pwr e.val = 4 ∧
      let target : Nat := 680 + 5 * Nat.min 20 (s.fld (Reg.PWR_ENG_VLOGIC e.val) Fld.PWR_ENG_VLOGIC.STEP);
      target + 20 < (↑min' : Nat) ∧ 7 ≤ (s.eng e.val).sup.high) ∧
    (let s : State := st16 1;
    let e : EngIx := 0;
    let phase : Fin 16 := 3;
    s.mode = 0 ∧
      s.supplied e.val = true ∧
        bit (s.eng e.val).sup.badPhases phase.val = false ∧
          s.pwr e.val = 4 ∧
            s.phases e.val < 13 ∧
              let a : Nat := 0;
              e.val * 2 ^ 37 ≤ a ∧ a < (e.val + 1) * 2 ^ 37) ∧
    (let s : State := st16 1;
    let e : EngIx := 0;
    let phase : Fin 16 := 3;
    s.mode = 0 ∧
      s.supplied e.val = true ∧
        bit (s.eng e.val).sup.badPhases phase.val = false ∧
          s.pwr e.val = 4 ∧
            s.phases e.val < 13 ∧
              let a : Nat := 206158430208;
              a < e.val * 2 ^ 37 ∨ (e.val + 1) * 2 ^ 37 ≤ a) ∧
    (let s : State := st16 11;
    s.boot.link = true ∧ s.mode ≠ 0) ∧
    (let s : State := st16 1;
    let up : Prop := s.overLimit = true ∨ ((List.range 48).any fun (i : Nat) => s.overPhases i) = true;
    up ∧ s.input.throttleAt + 10000 ≤ s.now) ∧
    (let s : State := st16 0;
    let up : Prop := s.overLimit = true ∨ ((List.range 48).any fun (i : Nat) => s.overPhases i) = true;
    ¬up ∧
      Option.any
          (fun (ok : Nat) =>
            decide
              (ok + 100000 ≤ s.now ∧
                s.input.throttleAt + 100000 ≤ s.now ∧
                  let i : Nat := 0;
                  i < 48))
          s.input.okSince =
        true) ∧
    (let s : State := st16 0;
    let r : Req := Req.host 0 0;
    let e : EngIx := 0;
    let v : Word := 0#32;
    let x : Nat := putBits (BitVec.toNat v) 0 0 1;
    let a : State := entered s r (Reg.PWR_ENG_CTRL e.val) x;
    (s.gate r (Reg.PWR_ENG_CTRL e.val) x).snd = true ∧ bit (BitVec.toNat v) 1 = false ∧ a.onCode e.val ≠ 0) ∧
    (let s : State := st16 4;
    let e : EngIx := 0;
    s.pwr e.val = 6) ∧
    (let s : State := st16 5;
    let e : EngIx := 0;
    s.pwr e.val ≠ 6 ∧ s.engState e.val = 8) ∧
    (let s : State := st16 0;
    let e : EngIx := 0;
    s.engState e.val ≠ 8 ∧
      s.halted = false ∧
        s.boot.mrstAt = none ∧ (s.partOf e.val).isSome = true ∧ 1 ≤ s.pwr e.val ∧ s.pwr e.val ≤ 4) ∧
    (let s : State := st16 2;
    let e : EngIx := 0;
    s.engState e.val ≠ 8 ∧
      s.halted = false ∧
        s.boot.mrstAt = none ∧ (s.partOf e.val).isSome = true ∧ (s.pwr e.val = 0 ∨ s.pwr e.val = 5)) ∧
    (let s : State := st16 0;
    let r : Req := Req.host 0 0;
    let e : EngIx := 0;
    let v : Word := 0#32;
    let x : Nat := putBits (BitVec.toNat v) 1 1 1;
    (s.gate r (Reg.PWR_ENG_CTRL e.val) x).snd = true ∧
      bit (BitVec.toNat v) 0 = false ∧ 1 ≤ s.pwr e.val ∧ s.pwr e.val ≤ 4 ∧ s.engState e.val ≠ 8) ∧
    (let s : State := st16 2;
    let r : Req := Req.host 0 0;
    let e : EngIx := 0;
    let v : Word := 0#32;
    let x : Nat := putBits (BitVec.toNat v) 0 0 1;
    let a : State := entered s r (Reg.PWR_ENG_CTRL e.val) x;
    (s.gate r (Reg.PWR_ENG_CTRL e.val) x).snd = true ∧ bit (BitVec.toNat v) 1 = false ∧ a.onCode e.val = 0) ∧
    (let s : State := st16 6;
    let e : EngIx := 0;
    List.find? (fun (i : Nat) => !s.coolWait i) s.rampQ = some e.val ∧
      (List.filter (fun (i : Nat) => s.pwr i == 2 || s.pwr i == 3) (List.range 48)).length < 6) ∧
    (let s : State := st16 7;
    let e : EngIx := 0;
    let mv : Fin 65536 := 10;
    s.pwr e.val = 2 ∧ mv.val < if s.mode = 0 then 5700 else 1030) ∧
    (let s : State := st16 7;
    let e : EngIx := 0;
    let sup : Supply := (s.eng e.val).sup;
    s.pwr e.val = 2 ∧
      250000 ≤ sup.ramped + (s.now - sup.since) ∧ sup.late = [] ∧ (s.mode ≠ 0 ∨ 12 ≤ s.phases e.val)) ∧
    (let s : State := st16 8;
    let e : EngIx := 0;
    let sup : Supply := (s.eng e.val).sup;
    let mv : Fin 65536 := 10;
    s.pwr e.val = 3 ∧ sup.paused + (s.now - sup.since) < 5000000 ∧ s.mode = 0 ∧ mv.val < 5850) ∧
    (let s : State := st16 8;
    let e : EngIx := 0;
    let sup : Supply := (s.eng e.val).sup;
    let mv : Fin 65536 := 5900;
    s.pwr e.val = 3 ∧ sup.paused + (s.now - sup.since) < 5000000 ∧ s.mode = 0 ∧ 5850 ≤ mv.val ∧ sup.busOk = none) ∧
    (let s : State := st16 9;
    let e : EngIx := 0;
    let sup : Supply := (s.eng e.val).sup;
    let mv : Fin 65536 := 5900;
    s.pwr e.val = 3 ∧
      sup.paused + (s.now - sup.since) < 5000000 ∧
        s.mode = 0 ∧ 5850 ≤ mv.val ∧ Option.any (fun (since : Nat) => decide (since + 10000 ≤ s.now)) sup.busOk = true) ∧
    (let s : State := st16 10;
    let e : EngIx := 0;
    let sup : Supply := (s.eng e.val).sup;
    s.pwr e.val = 3 ∧ 5000000 ≤ sup.paused + (s.now - sup.since)) ∧
    (let s : State := st16 11;
    let e : EngIx := 0;
    let sup : Supply := (s.eng e.val).sup;
    let mv : Fin 65536 := 5900;
    s.pwr e.val = 3 ∧ sup.paused + (s.now - sup.since) < 5000000 ∧ s.mode ≠ 0 ∧ 1030 ≤ mv.val) := by
  refine ⟨?_, ?_, ?_, ?_, ?_, ?_, ?_, ?_, ?_, ?_, ?_, ?_, ?_, ?_, ?_, ?_, ?_, ?_, ?_, ?_, ?_, ?_, ?_, ?_, ?_, ?_, ?_, ?_, ?_, ?_, ?_, ?_, ?_⟩ <;> decide +kernel

/-! ### The panel's bring-up (17_bringup_reset) -/

/-- A ground image of one partition of all engines for the bus mode. -/
def gnd1 : Ground := { valid := true, parts := [⟨0, 0, 0, 2 ^ 48 - 1⟩] }

/-- The panel in a step of its bring-up: a supervised one or not, with the command that runs. -/
def bootPanel (step bstate sup cmd : Nat) (f : Flash) (b : Boot := { }) : State :=
  let s := { State.reset with now := 5000000, flash := f, ground := gnd1, boot := { b with step := step, noPwr := false, cmd := cmd } }
  put s [(Reg.PNL_BOOT, Fld.PNL_BOOT.STATE, bstate), (Reg.PNL_BOOT, Fld.PNL_BOOT.CLASS, sup), (Reg.PWR_MODE, Fld.PWR_MODE.TRAY, 1), (Reg.PWR_MODE, Fld.PWR_MODE.MODE, 0),
    (Reg.PNL_PHYS, Fld.PNL_PHYS.MATE, 1)]

/-- The flash with two firmware slots and a ground image. -/
def flash1 : Flash := { slots := [(0, ⟨1, 1, 0, []⟩), (1, ⟨2, 2, 0, []⟩)], ground := some gnd1 }

/-- The states of bring-up. -/
def st17a : Nat → State
  | 0 => State.reset
  | 1 => bootPanel 0 0 0 0 { }
  | 2 => bootPanel 1 1 0 0 flash1
  | 3 => bootPanel 2 2 0 0 { }
  | 4 => bootPanel 2 2 0 0 flash1
  | 5 => put (bootPanel 2 2 0 0 { flash1 with pendingGround := some gnd1 }) [(Reg.PWR_MODE, Fld.PWR_MODE.TRAY, 0)]
  | 6 => { bootPanel 3 3 0 0 flash1 with links := [(0, { present := true })] }
  | 7 => bootPanel 3 3 1 2 flash1
  | 8 => { bootPanel 4 4 0 0 flash1 { todo := [0, 8, 1], link := true } with input := { volts := [540] } }
  | 9 => bootPanel 4 4 0 0 flash1 { todo := [0, 8, 1], wave := 1, link := true }
  | _ => bootPanel 4 4 0 0 flash1 { link := true }

theorem witness_PanelComesUpInSteps :
    (let s : State := st17a 0;
    s.boot.noPwr = true) ∧
    (let s : State := st17a 0;
    s.edgeBarred = true) ∧
    (let s : State := st17a 9;
    let due : Prop := s.boot.wave = 0 ∨ ∃ (at' : Nat), s.boot.waveAt = some at' ∧ at' + 1000000 ≤ s.now;
    ¬due) ∧
    (let s : State := st17a 1;
    let st : Nat := s.boot.step;
    s.boot.noPwr = false ∧ st = 0) ∧
    (let s : State := st17a 2;
    let st : Nat := s.boot.step;
    let f : Flash := s.flash;
    let bad : Fin 4 := 0;
    st = 1 ∧ (f.pickSlot bad.val).isSome = true) ∧
    (let s : State := st17a 2;
    let st : Nat := s.boot.step;
    let f : Flash := s.flash;
    let bad : Fin 4 := 3;
    st = 1 ∧ f.pickSlot bad.val = none) ∧
    (let s : State := st17a 3;
    let st : Nat := s.boot.step;
    let f : Flash := s.flash;
    let bad : Fin 2048 := 0;
    st = 2 ∧
      s.bootState ≠ 6 ∧
        s.supervised = false ∧ s.boot.cmd = 0 ∧ f.ground = none ∧ (f.pendingGround = none ∨ bit bad.val 4 = true)) ∧
    (let s : State := st17a 3;
    let st : Nat := s.boot.step;
    let f : Flash := s.flash;
    let bad : Fin 2048 := 1;
    st = 2 ∧
      s.bootState ≠ 6 ∧
        s.supervised = false ∧
          s.boot.cmd = 0 ∧ bits bad.val 3 0 ≠ 0 ∧ (f.pendingGround = none ∨ bit bad.val 4 = true)) ∧
    (let s : State := st17a 4;
    let st : Nat := s.boot.step;
    let f : Flash := s.flash;
    let bad : Fin 2048 := 0;
    st = 2 ∧
      s.bootState ≠ 6 ∧
        s.supervised = false ∧
          s.boot.cmd = 0 ∧
            let g : Ground := gnd1;
            (f.pendingGround = some g ∧ bit bad.val 4 = false ∧ bits bad.val 3 0 ≤ 1 ∨
                f.pendingGround = none ∧ f.ground = some g ∧ bits bad.val 3 0 = 0) ∧
              let strap : Nat := s.fld Reg.PWR_MODE Fld.PWR_MODE.STRAP;
              modeAgrees strap (s.flag Reg.PWR_MODE Fld.PWR_MODE.TRAY) (byteAt g.power 0) = true ∧
                let i : Nat := 0;
                i < 256) ∧
    (let s : State := st17a 5;
    let st : Nat := s.boot.step;
    let f : Flash := s.flash;
    let bad : Fin 2048 := 0;
    st = 2 ∧
      s.bootState ≠ 6 ∧
        s.supervised = false ∧
          s.boot.cmd = 0 ∧
            let g : Ground := gnd1;
            (f.pendingGround = some g ∧ bit bad.val 4 = false ∧ bits bad.val 3 0 ≤ 1 ∨
                f.pendingGround = none ∧ f.ground = some g ∧ bits bad.val 3 0 = 0) ∧
              let strap : Nat := s.fld Reg.PWR_MODE Fld.PWR_MODE.STRAP;
              modeAgrees strap (s.flag Reg.PWR_MODE Fld.PWR_MODE.TRAY) (byteAt g.power 0) = false) ∧
    (let s : State := st17a 6;
    let st : Nat := s.boot.step;
    st = 3 ∧ s.mode ≠ 3 ∧ s.edgeBarred = false ∧ s.supervised = false) ∧
    (let s : State := st17a 7;
    let st : Nat := s.boot.step;
    st = 3 ∧ s.mode ≠ 3 ∧ s.edgeBarred = false ∧ s.supervised = true ∧ s.boot.cmd = 2) ∧
    (let s : State := st17a 8;
    let due : Prop := s.boot.wave = 0 ∨ ∃ (at' : Nat), s.boot.waveAt = some at' ∧ at' + 1000000 ≤ s.now;
    let w : List Nat := pickWave [] s.boot.todo;
    due ∧ s.boot.todo ≠ [] ∧ (∀ (e : Nat), e ∈ s.boot.todo → e < 48) ∧ s.boot.mrstAt = none ∧ w[0]?.isSome = true) ∧
    (let s : State := st17a 8;
    let due : Prop := s.boot.wave = 0 ∨ ∃ (at' : Nat), s.boot.waveAt = some at' ∧ at' + 1000000 ≤ s.now;
    let w : List Nat := pickWave [] s.boot.todo;
    due ∧
      s.boot.todo ≠ [] ∧
        (∀ (e : Nat), e ∈ s.boot.todo → e < 48) ∧
          s.boot.mrstAt = none ∧
            let e : Nat := 50;
            ¬e ∈ w) ∧
    (let s : State := st17a 10;
    s.bootState = 4 ∧ s.settled = true) := by
  refine ⟨?_, ?_, ?_, ?_, ?_, ?_, ?_, ?_, ?_, ?_, ?_, ?_, ?_, ?_, ?_⟩ <;> decide +kernel

/-! ### An engine's bring-up (17_bringup_reset) -/

/-- Engine 0 in a state of its bring-up. -/
def engPanel (st pw res : Nat) (x : Supply) (sup : Nat := 0) (cmd : Nat := 0) : State :=
  let s := { panel with now := 5000000, boot := { panel.boot with step := 4, cmd := cmd }, limit := 100 }
  let s := s.onEng 0 fun g => { g with up := false, sup := x }
  put s [(Reg.PNL_ENG_STATE 0, Fld.PNL_ENG_STATE.STATE, st), (Reg.PNL_ENG_STATE 0, Fld.PNL_ENG_STATE.RESULT, res), (Reg.PWR_ENG_STAT 0, Fld.PWR_ENG_STAT.STATE, pw),
    (Reg.PWR_ENG_PHASE 0, Fld.PWR_ENG_PHASE.PHASES, 16), (Reg.PWR_MODE, Fld.PWR_MODE.MODE, 0), (Reg.PNL_BOOT, Fld.PNL_BOOT.CLASS, sup),
    (Reg.PNL_BOOT, Fld.PNL_BOOT.STATE, if sup = 1 then 7 else 4), (Reg.EZ_STEP_ENG 0, ⟨31, 0⟩, 1)]

/-- A supervised panel before the edge is up. -/
def supPanel (step : Nat) : State :=
  put { engPanel 0 0 0 { } 1 with boot := { panel.boot with step := step } } [(Reg.PNL_BOOT, Fld.PNL_BOOT.STATE, 7)]

/-- The states of an engine's bring-up. -/
def st17b : Nat → State
  | 0 => engPanel 2 4 0 { railsAt := 5000000 }
  | 1 => engPanel 2 4 0 { railsAt := 0 }
  | 2 => engPanel 3 4 0 { stage := 2 }
  | 3 => engPanel 4 4 0 { stage := 4, stks := 3 }
  | 4 => engPanel 4 4 0 { stage := 4, stks := 3, findings := [⟨1, 0, 0, 5, 1⟩] }
  | 5 => engPanel 4 4 0 { stage := 5 }
  | 6 => engPanel 4 4 4 { stage := 5 }
  | 7 => engPanel 4 4 6 { stage := 5 }
  | 8 => put (engPanel 0 0 0 { } 1) [(Reg.EZ_STEP_STAT, Fld.EZ_STEP_STAT.BUSY, 1)]
  | 9 => supPanel 2
  | 10 => supPanel 3
  | 11 => engPanel 0 0 0 { } 1
  | 12 => engPanel 10 4 0 { stage := 1 } 1
  | 13 => engPanel 10 4 0 { stage := 2 } 1
  | 14 => engPanel 10 4 0 { stage := 3 } 1
  | 15 => engPanel 10 4 0 { stage := 4 } 1
  | 16 => engPanel 10 4 0 { stage := 5 } 1
  | _ => engPanel 0 0 0 { }

theorem witness_EnginesComeUpInSteps :
    (let s : State := st17b 0;
    let e : EngIx := 0;
    let x : Supply := (s.eng e.val).sup;
    s.engState e.val = 2 ∧ s.pwr e.val = 4 ∧ s.supervisedNow e.val = false ∧ s.now ≤ x.railsAt + 1000000) ∧
    (let s : State := st17b 8;
    let r : Req := Req.host 0 0;
    (s.gate r Reg.EZ_STEP 1).snd = true ∧
      let a : State := entered s r Reg.EZ_STEP 1;
      a.flag Reg.EZ_STEP_STAT Fld.EZ_STEP_STAT.BUSY = true) ∧
    (let s : State := st17b 0;
    let r : Req := Req.host 0 0;
    (s.gate r Reg.EZ_STEP 1).snd = true ∧
      let a : State := entered s r Reg.EZ_STEP 1;
      let early : Prop := (∃ (p : HostIx), ∃ (f : FnIx), r = Req.host p f) ∧ a.boot.step < 4;
      a.flag Reg.EZ_STEP_STAT Fld.EZ_STEP_STAT.BUSY = false ∧ ¬early ∧ (a.supervised = false ∨ a.stepOrder 1 = false)) ∧
    (let s : State := st17b 1;
    let e : EngIx := 0;
    let x : Supply := (s.eng e.val).sup;
    s.engState e.val = 2 ∧ s.pwr e.val = 4 ∧ s.supervisedNow e.val = false ∧ x.railsAt + 1000000 ≤ s.now) ∧
    (let s : State := st17b 2;
    let e : EngIx := 0;
    let findings : List Finding := [{ kind := 1, unit := 2, location := 5 : Finding }];
    s.engState e.val = 3 ∧
      s.boot.cmd = 0 ∧ Option.any (fun (f : Finding) => decide (findingOk f = true)) findings[0]? = true) ∧
    (let s : State := st17b 2;
    let e : EngIx := 0;
    let x : Supply := (s.eng e.val).sup;
    s.engState e.val = 3 ∧
      s.boot.cmd = 0 ∧
        x.hubOnly = false ∧
          let n : Fin 14 := 0;
          n.val < 10 ∧ s.fld (Reg.SK_PORT e.val n.val) Fld.SK_PORT.STATE ≠ 1) ∧
    (let s : State := st17b 2;
    let e : EngIx := 0;
    let links : Fin 256 := 255;
    s.engState e.val = 3 ∧
      s.boot.cmd = 0 ∧
        let n : Fin 8 := 0;
        netLinkExists e.val n.val = true ∧
          (bit links.val n.val = false ∨ s.routerUp (neighbour e.val (n.val % 4)) = false)) ∧
    (let s : State := st17b 4;
    let e : EngIx := 0;
    let x : Supply := (s.eng e.val).sup;
    s.engState e.val = 4 ∧
      x.stage < 5 ∧
        s.supervisedNow e.val = false ∧
          s.flash.defects.length + x.findings.length < 262080 ∧ x.findings[0]?.isSome = true) ∧
    (let s : State := st17b 3;
    let e : EngIx := 0;
    let x : Supply := (s.eng e.val).sup;
    s.engState e.val = 4 ∧
      x.stage < 5 ∧
        s.supervisedNow e.val = false ∧
          x.findings = [] ∧
            s.defectsOf e.val = [] ∧
              x.stks = 3 ∧
                (∀ (m : Nat), m < 6 → s.stagesLost e.val m = 0) ∧
                  12 ≤ s.phases e.val ∧
                    x.hubOnly = false ∧
                      let m : Nat := 0;
                      m < 5) ∧
    (let s : State := st17b 5;
    let e : EngIx := 0;
    let x : Supply := (s.eng e.val).sup;
    let es : Nat := Reg.PNL_ENG_STATE e.val;
    s.engState e.val = 4 ∧
      x.stage = 5 ∧
        let res : Nat := s.fld es Fld.PNL_ENG_STATE.RESULT;
        res = 0 ∧ s.holder e.val = e.val ∧ s.limit ≤ 2044) ∧
    (let s : State := st17b 6;
    let e : EngIx := 0;
    let x : Supply := (s.eng e.val).sup;
    let es : Nat := Reg.PNL_ENG_STATE e.val;
    s.engState e.val = 4 ∧
      x.stage = 5 ∧
        let res : Nat := s.fld es Fld.PNL_ENG_STATE.RESULT;
        res = 4) ∧
    (let s : State := st17b 7;
    let e : EngIx := 0;
    let x : Supply := (s.eng e.val).sup;
    let es : Nat := Reg.PNL_ENG_STATE e.val;
    s.engState e.val = 4 ∧
      x.stage = 5 ∧
        let res : Nat := s.fld es Fld.PNL_ENG_STATE.RESULT;
        res ≠ 0 ∧ res ≠ 4 ∧ 1 ≤ s.pwr e.val ∧ s.pwr e.val ≤ 4) ∧
    (let s : State := st17b 9;
    let r : Req := Req.host 0 0;
    (s.gate r Reg.EZ_STEP 1).snd = true ∧
      let a : State := entered s r Reg.EZ_STEP 1;
      let early : Prop := (∃ (p : HostIx), ∃ (f : FnIx), r = Req.host p f) ∧ a.boot.step < 4;
      a.flag Reg.EZ_STEP_STAT Fld.EZ_STEP_STAT.BUSY = false ∧ early) ∧
    (let s : State := st17b 9;
    let r : Req := Req.service;
    (s.gate r Reg.EZ_STEP 1).snd = true ∧
      let a : State := entered s r Reg.EZ_STEP 1;
      let early : Prop := (∃ (p : HostIx), ∃ (f : FnIx), r = Req.host p f) ∧ a.boot.step < 4;
      a.flag Reg.EZ_STEP_STAT Fld.EZ_STEP_STAT.BUSY = false ∧ ¬early ∧ a.supervised = true ∧ a.stepOrder 1 = true ∧ 1 = 1) ∧
    (let s : State := st17b 12;
    let r : Req := Req.host 0 0;
    (s.gate r Reg.EZ_STEP 17).snd = true ∧
      let a : State := entered s r Reg.EZ_STEP 17;
      let early : Prop := (∃ (p : HostIx), ∃ (f : FnIx), r = Req.host p f) ∧ a.boot.step < 4;
      a.flag Reg.EZ_STEP_STAT Fld.EZ_STEP_STAT.BUSY = false ∧
        ¬early ∧ a.supervised = true ∧ a.stepOrder 17 = true ∧ 17 = 17 ∧ a.stepEngines[0]?.isSome = true) ∧
    (let s : State := st17b 13;
    let r : Req := Req.host 0 0;
    (s.gate r Reg.EZ_STEP 18).snd = true ∧
      let a : State := entered s r Reg.EZ_STEP 18;
      let early : Prop := (∃ (p : HostIx), ∃ (f : FnIx), r = Req.host p f) ∧ a.boot.step < 4;
      a.flag Reg.EZ_STEP_STAT Fld.EZ_STEP_STAT.BUSY = false ∧
        ¬early ∧ a.supervised = true ∧ a.stepOrder 18 = true ∧ (18 = 18 ∨ 18 = 19) ∧ a.stepEngines[0]?.isSome = true) ∧
    (let s : State := st17b 15;
    let r : Req := Req.host 0 0;
    (s.gate r Reg.EZ_STEP 20).snd = true ∧
      let a : State := entered s r Reg.EZ_STEP 20;
      let early : Prop := (∃ (p : HostIx), ∃ (f : FnIx), r = Req.host p f) ∧ a.boot.step < 4;
      a.flag Reg.EZ_STEP_STAT Fld.EZ_STEP_STAT.BUSY = false ∧
        ¬early ∧ a.supervised = true ∧ a.stepOrder 20 = true ∧ (20 = 20 ∨ 20 = 21) ∧ a.stepEngines[0]?.isSome = true) ∧
    (let s : State := st17b 12;
    let r : Req := Req.host 0 0;
    (s.gate r Reg.EZ_STEP 31).snd = true ∧
      let a : State := entered s r Reg.EZ_STEP 31;
      let early : Prop := (∃ (p : HostIx), ∃ (f : FnIx), r = Req.host p f) ∧ a.boot.step < 4;
      a.flag Reg.EZ_STEP_STAT Fld.EZ_STEP_STAT.BUSY = false ∧
        ¬early ∧
          a.supervised = true ∧
            a.stepOrder 31 = true ∧
              31 = 31 ∧ Option.any (fun (e : Nat) => decide (1 ≤ a.pwr e ∧ a.pwr e ≤ 4)) a.stepEngines[0]? = true) ∧
    (let s : State := st17b 10;
    let r : Req := Req.service;
    (s.gate r Reg.EZ_STEP 2).snd = true ∧
      let a : State := entered s r Reg.EZ_STEP 2;
      let early : Prop := (∃ (p : HostIx), ∃ (f : FnIx), r = Req.host p f) ∧ a.boot.step < 4;
      a.flag Reg.EZ_STEP_STAT Fld.EZ_STEP_STAT.BUSY = false ∧ ¬early ∧ a.supervised = true ∧ a.stepOrder 2 = true ∧ 2 = 2) ∧
    (let s : State := st17b 11;
    let r : Req := Req.host 0 0;
    (s.gate r Reg.EZ_STEP 16).snd = true ∧
      let a : State := entered s r Reg.EZ_STEP 16;
      let early : Prop := (∃ (p : HostIx), ∃ (f : FnIx), r = Req.host p f) ∧ a.boot.step < 4;
      a.flag Reg.EZ_STEP_STAT Fld.EZ_STEP_STAT.BUSY = false ∧ ¬early ∧ a.supervised = true ∧ a.stepOrder 16 = true ∧ 16 = 16) ∧
    (let s : State := st17b 11;
    let r : Req := Req.host 0 0;
    (s.gate r Reg.EZ_STEP 31).snd = true ∧
      let a : State := entered s r Reg.EZ_STEP 31;
      let early : Prop := (∃ (p : HostIx), ∃ (f : FnIx), r = Req.host p f) ∧ a.boot.step < 4;
      a.flag Reg.EZ_STEP_STAT Fld.EZ_STEP_STAT.BUSY = false ∧
        ¬early ∧ a.supervised = true ∧ a.stepOrder 31 = true ∧ (31 = 31 ∨ 31 = 32)) ∧
    (let s : State := st17b 11;
    let r : Req := Req.host 0 0;
    (s.gate r Reg.EZ_STEP 32).snd = true ∧
      let a : State := entered s r Reg.EZ_STEP 32;
      let early : Prop := (∃ (p : HostIx), ∃ (f : FnIx), r = Req.host p f) ∧ a.boot.step < 4;
      a.flag Reg.EZ_STEP_STAT Fld.EZ_STEP_STAT.BUSY = false ∧ ¬early ∧ a.supervised = true ∧ a.stepOrder 32 = true ∧ 32 = 32) := by
  refine ⟨?_, ?_, ?_, ?_, ?_, ?_, ?_, ?_, ?_, ?_, ?_, ?_, ?_, ?_, ?_, ?_, ?_, ?_, ?_, ?_, ?_, ?_⟩ <;> decide +kernel

/-! ### Resets (17_bringup_reset) -/

/-- Engine 0 with its canvas in a state and a reset of it under way. -/
def resetPanel (cv : Nat) (x : Supply) (b : Boot := panel.boot) : State :=
  let s := { panel with now := 20000000000, boot := b }
  let s := s.onEng 0 fun g => { g with sup := x }
  put s [(Reg.ENG_CANVAS_STATUS 0, Fld.ENG_CANVAS_STATUS.STATE, cv), (Reg.PNL_INPUT, Fld.PNL_INPUT.PWRGD, 1), (Reg.PNL_PHYS, Fld.PNL_PHYS.MATE, 1), (Reg.PWR_MODE, Fld.PWR_MODE.MODE, 0),
    (Reg.LNK_PORT_STAT 0, Fld.LNK_PORT_STAT.STATE, 2)]

/-- The states for resets. -/
def st17c : Nat → State
  | 0 => resetPanel 3 { }
  | 1 => resetPanel 1 { }
  | 2 => resetPanel 0 { }
  | 3 => resetPanel 0 { resetAt := some 0 }
  | 4 => resetPanel 0 { resetAt := some 0, mcDone := true }
  | 5 => resetPanel 0 { } { step := 1, noPwr := false, fullAt := some 0 }
  | 6 => resetPanel 3 { } { panel.boot with fullAt := some 0 }
  | 7 => { resetPanel 3 { } { panel.boot with mrstAt := some 0 } with input := { badSince := some 0 } }
  | 8 => { resetPanel 3 { } with links := [(0, { present := true })] }
  | _ => put (resetPanel 3 { }) [(Reg.HP_PORT_STAT 0, Fld.HP_PORT_STAT.STATE, 0)]

theorem witness_ResetsActInTheirScope :
    (let s : State := st17c 0;
    let r : Req := Req.host 0 0;
    let v : Word := 0#32;
    let w : Nat := putBits (putBits (BitVec.toNat v) 31 31 1) 2 0 1;
    let b : State := (entered s r Reg.PNL_RESET w).plainWrite Reg.PNL_RESET w;
    let x : Nat := bits w 13 8;
    let part : Nat := bits w 19 16;
    let code : Nat := b.resetCode r 1 x part;
    (s.gate r Reg.PNL_RESET w).snd = true ∧ code = 0 ∧ 1 = 1) ∧
    (let s : State := st17c 0;
    let r : Req := Req.host 0 0;
    let v : Word := 0#32;
    let w : Nat := putBits (putBits (BitVec.toNat v) 31 31 1) 2 0 3;
    let b : State := (entered s r Reg.PNL_RESET w).plainWrite Reg.PNL_RESET w;
    let x : Nat := bits w 13 8;
    let part : Nat := bits w 19 16;
    let code : Nat := b.resetCode r 3 x part;
    (s.gate r Reg.PNL_RESET w).snd = true ∧
      code = 0 ∧
        3 = 3 ∧
          let y : EngIx := 47;
          ¬y.val ∈ b.resetSet 3 part) ∧
    (let s : State := st17c 0;
    let r : Req := Req.host 0 0;
    let v : Word := 0#32;
    let w : Nat := putBits (putBits (BitVec.toNat v) 31 31 1) 2 0 2;
    let b : State := (entered s r Reg.PNL_RESET w).plainWrite Reg.PNL_RESET w;
    let x : Nat := bits w 13 8;
    let part : Nat := bits w 19 16;
    let code : Nat := b.resetCode r 2 x part;
    (s.gate r Reg.PNL_RESET w).snd = true ∧ code = 0 ∧ (2 = 2 ∨ 2 = 3) ∧ (b.resetSet 2 part)[0]?.isSome = true) ∧
    (let s : State := st17c 0;
    let r : Req := Req.host 0 0;
    let v : Word := 0#32;
    let w : Nat := putBits (putBits (BitVec.toNat v) 31 31 1) 2 0 4;
    let b : State := (entered s r Reg.PNL_RESET w).plainWrite Reg.PNL_RESET w;
    let x : Nat := bits w 13 8;
    let part : Nat := bits w 19 16;
    let code : Nat := b.resetCode r 4 x part;
    (s.gate r Reg.PNL_RESET w).snd = true ∧ code = 0 ∧ 4 = 4 ∧ b.resetScope ≤ 4) ∧
    (let s : State := st17c 0;
    let r : Req := Req.host 0 0;
    let e : EngIx := 0;
    let v : Word := 0#32;
    let er : Nat := Reg.ENG_RESET e.val;
    let w : Nat := putBits (BitVec.toNat v) 16 16 1;
    let a : State := entered s r er w;
    let d : Nat := bits w 11 10;
    let c : Nat := w % 1024;
    (s.gate r er w).snd = true ∧
      a.engResetCode e.val w = 0 ∧
        let e' : Nat := 0;
        let d' : Nat := 0;
        let c' : Nat := 1;
        cellKey e' d' c' ≠ cellKey e.val d c) ∧
    (let s : State := st17c 0;
    let r : Req := Req.host 0 0;
    let e : EngIx := 0;
    let v : Word := 0#32;
    let er : Nat := Reg.ENG_RESET e.val;
    let w : Nat := putBits (BitVec.toNat v) 17 17 1;
    let a : State := entered s r er w;
    (s.gate r er w).snd = true ∧ bit (BitVec.toNat v) 16 = false ∧ a.engResetCode e.val w ≠ 0) ∧
    (let s : State := st17c 0;
    let r : Req := Req.host 0 0;
    let v : Word := 16128#32;
    let w : Nat := putBits (putBits (BitVec.toNat v) 31 31 1) 2 0 1;
    let b : State := (entered s r Reg.PNL_RESET w).plainWrite Reg.PNL_RESET w;
    let x : Nat := bits w 13 8;
    let part : Nat := bits w 19 16;
    let code : Nat := b.resetCode r 1 x part;
    (s.gate r Reg.PNL_RESET w).snd = true ∧ code ≠ 0) ∧
    (let s : State := st17c 1;
    let r : Req := Req.host 0 0;
    let e : EngIx := 0;
    let v : Word := 0#32;
    let er : Nat := Reg.ENG_RESET e.val;
    let w : Nat := putBits (BitVec.toNat v) 16 16 1;
    let a : State := entered s r er w;
    (s.gate r er w).snd = true ∧ a.engResetCode e.val w ≠ 0) ∧
    (let s : State := st17c 2;
    let r : Req := Req.host 0 0;
    let e : EngIx := 0;
    let v : Word := 0#32;
    let er : Nat := Reg.ENG_RESET e.val;
    let w : Nat := putBits (BitVec.toNat v) 17 17 1;
    let a : State := entered s r er w;
    let d : Nat := bits w 11 10;
    (s.gate r er w).snd = true ∧
      bit (BitVec.toNat v) 16 = false ∧
        a.engResetCode e.val w = 0 ∧
          let d' : Nat := 1;
          let c : Nat := 0;
          d' ≠ d ∧ d' < 4 ∧ c < 1024) ∧
    (let s : State := st17c 3;
    let e : EngIx := 0;
    Option.any
        (fun (at' : Nat) => decide (s.boot.fullAt = none ∧ (s.eng e.val).sup.mcDone = false ∧ at' + 2000 ≤ s.now))
        (s.eng e.val).sup.resetAt =
      true) ∧
    (let s : State := st17c 4;
    let e : EngIx := 0;
    Option.any
        (fun (at' : Nat) =>
          decide
            (s.boot.fullAt = none ∧
              (s.eng e.val).sup.mcDone = true ∧
                at' + 5000 ≤ s.now ∧
                  (s.eng e.val).containNext = false ∧
                    s.holder e.val = e.val ∧
                      let e' : Nat := 1;
                      let d : Nat := 0;
                      let c : Nat := 0;
                      e' ≠ e.val ∧ d < 4 ∧ c < 1024))
        (s.eng e.val).sup.resetAt =
      true) ∧
    (let s : State := st17c 5;
    Option.any (fun (at' : Nat) => decide (at' + 2000 ≤ s.now ∧ s.boot.step < 2)) s.boot.fullAt = true) ∧
    (let s : State := st17c 6;
    Option.any
        (fun (at' : Nat) =>
          decide
            (at' + 2000 ≤ s.now ∧
              3 ≤ s.boot.step ∧
                let a : Nat := 0;
                a < 48 * 2 ^ 37))
        s.boot.fullAt =
      true) ∧
    (let s : State := st17c 6;
    Option.any (fun (at' : Nat) => decide (at' + 2000 ≤ s.now ∧ 3 ≤ s.boot.step ∧ s.boot.keepLink = false)) s.boot.fullAt =
      true) := by
  refine ⟨?_, ?_, ?_, ?_, ?_, ?_, ?_, ?_, ?_, ?_, ?_, ?_, ?_, ?_⟩ <;> decide +kernel

theorem witness_InputsActThroughTheirFilters :
    (let s : State := st17c 0;
    let ns : Fin 4294967296 := 10;
    s.boot.noPwr = false ∧ ns.val < 100000) ∧
    (let s : State := st17c 0;
    let ns : Fin 4294967296 := 10;
    let on : Bool := s.flag Reg.PNL_INPUT Fld.PNL_INPUT.MRST;
    on = false ∧ ns.val < 1000) ∧
    (let s : State := st17c 7;
    Option.any (fun (at' : Nat) => decide (at' + 10000000000 ≤ s.now)) s.boot.mrstAt = true) ∧
    (let s : State := st17c 0;
    let ns : Fin 4294967296 := 10;
    s.flag Reg.PNL_PHYS Fld.PNL_PHYS.MATE = true ∧ ns.val < 1000) ∧
    (let s : State := st17c 9;
    let p : HostIx := 0;
    s.portDie p.val = true ∧ s.portState p.val = 0) ∧
    (let s : State := st17c 0;
    let ns : Fin 4294967296 := 10;
    let p : HostIx := 0;
    let present : State → Bool := fun (t : State) => bit (t.fld Reg.PNL_PHYS Fld.PNL_PHYS.CPRSNT) p.val;
    present s = true ∧ ns.val < 1000) ∧
    (let s : State := st17c 0;
    let ns : Fin 4294967296 := 200000;
    let p : HostIx := 0;
    let present : State → Bool := fun (t : State) => bit (t.fld Reg.PNL_PHYS Fld.PNL_PHYS.CPRSNT) p.val;
    present s = true ∧ 1000 ≤ ns.val) ∧
    (let s : State := st17c 0;
    let ns : Fin 4294967296 := 200000;
    s.boot.noPwr = false ∧ 100000 ≤ ns.val) ∧
    (let s : State := st17c 0;
    let ns : Fin 4294967296 := 200000;
    let on : Bool := s.flag Reg.PNL_INPUT Fld.PNL_INPUT.MRST;
    on = false ∧ 1000 ≤ ns.val) ∧
    (let s : State := st17c 0;
    let ns : Fin 4294967296 := 200000;
    s.flag Reg.PNL_PHYS Fld.PNL_PHYS.MATE = true ∧ 1000 ≤ ns.val) ∧
    (let s : State := st17c 7;
    Option.any (fun (at' : Nat) => decide (s.mode = 0 ∧ s.boot.link = true ∧ at' + 50000 ≤ s.now)) s.input.badSince = true) ∧
    (let s : State := st17c 8;
    let p : LinkIx := 0;
    (s.link p.val).present = true) := by
  refine ⟨?_, ?_, ?_, ?_, ?_, ?_, ?_, ?_, ?_, ?_, ?_, ?_⟩ <;> decide +kernel

/-! ### Faults (18_faults) -/

/-- The panel with a canvas state of engine 0 and FAULT_N as given. -/
def faultPanel (st minSev pulse hold : Nat) : State :=
  put { panel with now := 20000 } [(Reg.PNL_ENG_STATE 0, Fld.PNL_ENG_STATE.STATE, st), (Reg.FLT_PIN, Fld.FLT_PIN.MIN_SEV, minSev), (Reg.FLT_PIN, Fld.FLT_PIN.PULSE, pulse),
    (Reg.FLT_PIN, Fld.FLT_PIN.HOLD, hold), (Reg.FLT_PIN, Fld.FLT_PIN.ASSERTED, pulse), (Reg.FLT_SRC 2, Fld.FLT_SRC.ESC_EN, 1), (Reg.FLT_PEND 0, ⟨31, 0⟩, 8)]

/-- The states for faults. -/
def st18 : Nat → State
  | 0 => faultPanel 5 0 0 0
  | 1 => faultPanel 9 0 0 0
  | 2 => faultPanel 6 4 0 0
  | 3 => faultPanel 5 0 1 1
  | _ => faultPanel 5 0 1 0

theorem witness_FaultsAreRecordedAndActedOn :
    (let s : State := st18 0;
    let src : Fin 128 := 2;
    Option.any
        (fun (row : Source) =>
          decide
            (let scope : Fin 256 := 0;
            scopeOk src.val scope.val = true ∧
              src.val ≠ 32 ∧
                src.val ≠ 91 ∧
                  let dead : Prop := scope.val ≠ panelScope ∧ s.engDead scope.val = true;
                  ¬dead ∧
                    src.val ≠ 3 ∧
                      src.val ≠ 4 ∧
                        let pend : Nat := s.rdN (pendReg scope.val);
                        let set : Nat := s.fld (Reg.FLT_SRC src.val) Fld.FLT_SRC.SEVERITY;
                        let base : Nat := max row.floor (if set = 0 ∨ set = 6 ∨ set = 7 then row.dflt else set);
                        let esc : Bool := s.flag (Reg.FLT_SRC src.val) Fld.FLT_SRC.ESC_EN && bit pend row.cls;
                        let sev : Nat := if esc = true then min (base + 1) 5 else base;
                        max 1 (s.fld Reg.FLT_PIN Fld.FLT_PIN.MIN_SEV) ≤ sev))
        (sourceRow src.val) =
      true) ∧
    (let s : State := st18 0;
    let src : Fin 128 := 2;
    Option.any
        (fun (row : Source) =>
          decide
            (let scope : Fin 256 := 0;
            scopeOk src.val scope.val = true ∧
              src.val ≠ 32 ∧
                src.val ≠ 91 ∧
                  let dead : Prop := scope.val ≠ panelScope ∧ s.engDead scope.val = true;
                  ¬dead ∧
                    src.val ≠ 3 ∧
                      src.val ≠ 4 ∧
                        let pend : Nat := s.rdN (pendReg scope.val);
                        let set : Nat := s.fld (Reg.FLT_SRC src.val) Fld.FLT_SRC.SEVERITY;
                        let base : Nat := max row.floor (if set = 0 ∨ set = 6 ∨ set = 7 then row.dflt else set);
                        let esc : Bool := s.flag (Reg.FLT_SRC src.val) Fld.FLT_SRC.ESC_EN && bit pend row.cls;
                        let sev : Nat := if esc = true then min (base + 1) 5 else base;
                        sev = 3 ∧ scope.val ≠ panelScope ∧ s.engState scope.val ≠ 6))
        (sourceRow src.val) =
      true) ∧
    (let s : State := st18 0;
    let src : Fin 128 := 68;
    Option.any
        (fun (row : Source) =>
          decide
            (let scope : Fin 256 := 255;
            scopeOk src.val scope.val = true ∧
              src.val ≠ 32 ∧
                src.val ≠ 91 ∧
                  let dead : Prop := scope.val ≠ panelScope ∧ s.engDead scope.val = true;
                  ¬dead ∧
                    src.val ≠ 3 ∧
                      src.val ≠ 4 ∧
                        let pend : Nat := s.rdN (pendReg scope.val);
                        let set : Nat := s.fld (Reg.FLT_SRC src.val) Fld.FLT_SRC.SEVERITY;
                        let base : Nat := max row.floor (if set = 0 ∨ set = 6 ∨ set = 7 then row.dflt else set);
                        let esc : Bool := s.flag (Reg.FLT_SRC src.val) Fld.FLT_SRC.ESC_EN && bit pend row.cls;
                        let sev : Nat := if esc = true then min (base + 1) 5 else base;
                        sev = 5 ∧
                          let y : EngIx := 0;
                          s.engDead y.val = false ∧ s.engState y.val ≠ 6))
        (sourceRow src.val) =
      true) ∧
    (let s : State := st18 0;
    let r : Req := Req.host 0 0;
    let v : Word := 16711744#32;
    let w : Nat := putBits (BitVec.toNat v) 31 31 1;
    let src : Nat := bits w 7 0;
    let scope : Nat := bits w 23 16;
    (s.gate r Reg.FLT_INJECT w).snd = true ∧ scopeOk src scope = true) ∧
    (let s : State := st18 0;
    let r : Req := Req.host 0 0;
    let v : Word := 0#32;
    let w : Nat := putBits (BitVec.toNat v) 31 31 1;
    let src : Nat := bits w 7 0;
    let scope : Nat := bits w 23 16;
    (s.gate r Reg.FLT_INJECT w).snd = true ∧ scopeOk src scope = false) ∧
    (let s : State := st18 1;
    let src : Fin 128 := 2;
    Option.any
        (fun (row : Source) =>
          decide
            (let scope : Fin 256 := 0;
            scopeOk src.val scope.val = true ∧
              src.val ≠ 32 ∧
                src.val ≠ 91 ∧
                  let dead : Prop := scope.val ≠ panelScope ∧ s.engDead scope.val = true;
                  dead))
        (sourceRow src.val) =
      true) ∧
    (let s : State := st18 2;
    let src : Fin 128 := 2;
    Option.any
        (fun (row : Source) =>
          decide
            (let scope : Fin 256 := 0;
            scopeOk src.val scope.val = true ∧
              src.val ≠ 32 ∧
                src.val ≠ 91 ∧
                  let dead : Prop := scope.val ≠ panelScope ∧ s.engDead scope.val = true;
                  ¬dead ∧
                    src.val ≠ 3 ∧
                      src.val ≠ 4 ∧
                        let pend : Nat := s.rdN (pendReg scope.val);
                        let set : Nat := s.fld (Reg.FLT_SRC src.val) Fld.FLT_SRC.SEVERITY;
                        let base : Nat := max row.floor (if set = 0 ∨ set = 6 ∨ set = 7 then row.dflt else set);
                        let esc : Bool := s.flag (Reg.FLT_SRC src.val) Fld.FLT_SRC.ESC_EN && bit pend row.cls;
                        let sev : Nat := if esc = true then min (base + 1) 5 else base;
                        sev < max 1 (s.fld Reg.FLT_PIN Fld.FLT_PIN.MIN_SEV)))
        (sourceRow src.val) =
      true) ∧
    (let s : State := st18 2;
    let src : Fin 128 := 2;
    Option.any
        (fun (row : Source) =>
          decide
            (let scope : Fin 256 := 0;
            scopeOk src.val scope.val = true ∧
              src.val ≠ 32 ∧
                src.val ≠ 91 ∧
                  let dead : Prop := scope.val ≠ panelScope ∧ s.engDead scope.val = true;
                  ¬dead ∧
                    src.val ≠ 3 ∧
                      src.val ≠ 4 ∧
                        let pend : Nat := s.rdN (pendReg scope.val);
                        let set : Nat := s.fld (Reg.FLT_SRC src.val) Fld.FLT_SRC.SEVERITY;
                        let base : Nat := max row.floor (if set = 0 ∨ set = 6 ∨ set = 7 then row.dflt else set);
                        let esc : Bool := s.flag (Reg.FLT_SRC src.val) Fld.FLT_SRC.ESC_EN && bit pend row.cls;
                        let sev : Nat := if esc = true then min (base + 1) 5 else base;
                        sev = 3 ∧ scope.val ≠ panelScope ∧ s.engState scope.val = 6))
        (sourceRow src.val) =
      true) ∧
    (let s : State := st18 3;
    s.flag Reg.FLT_PIN Fld.FLT_PIN.PULSE = true ∧ s.pulseStart + 10000 ≤ s.now ∧ s.flag Reg.FLT_PIN Fld.FLT_PIN.HOLD = true) ∧
    (let s : State := st18 4;
    s.flag Reg.FLT_PIN Fld.FLT_PIN.PULSE = true ∧
      s.pulseStart + 10000 ≤ s.now ∧
        s.flag Reg.FLT_PIN Fld.FLT_PIN.HOLD = false ∧ s.flag Reg.FLT_PIN Fld.FLT_PIN.ASSERTED = true) := by
  refine ⟨?_, ?_, ?_, ?_, ?_, ?_, ?_, ?_, ?_, ?_⟩ <;> decide +kernel

/-! ### Cooling (19_cooling) -/

/-- Engine 0 with the temperatures and levels given. -/
def warmPanel (x : Therm) : State :=
  { panel with now := 20000000000 }.onEng 0 fun g => { g with therm := x }

/-- The coolant with the record given, FLOW_TACH stuck or not. -/
def flowPanel (x : Flow) (stuck : Nat := 0) (ppl : Nat := 30) : State :=
  put { panel with now := 20000000000, flow := x } [(Reg.THM_STAT, Fld.THM_STAT.STUCK, stuck), (Reg.THM_FLOW_CFG, Fld.THM_FLOW_CFG.PPL, ppl)]

/-- So many pulses in the last second. -/
def pulses (n : Nat) : Flow := { pulses := List.replicate n 19990000000, last := some 19990000000 }

/-- The states for temperatures and coolant. -/
def st19 : Nat → State
  | 0 => warmPanel { }
  | 1 => warmPanel { j := some 160, level := 8 }
  | 2 => warmPanel { j := some 170 }
  | 3 => warmPanel { j := some 100, level := 3, extreme := none }
  | 4 => warmPanel { j := some 151, extreme := some 90, rising := none, level := 2 }
  | 5 => warmPanel { j := some 148, extreme := some 160, rising := some true }
  | 6 => warmPanel { j := some 100, extreme := some 90, rising := some true }
  | 7 => warmPanel { j := some 90, extreme := some 100, rising := some false }
  | 8 => flowPanel (pulses 35)
  | 9 => flowPanel (pulses 35) 0 80
  | 10 => flowPanel (pulses 2) 0 80
  | 11 => flowPanel { }
  | 12 => flowPanel { critAt := some 0, last := some 19999999999 }
  | _ => flowPanel { } 1

theorem witness_TemperaturesAndCoolantAct :
    (let s : State := st19 0;
    let e : EngIx := 0;
    let x : Therm := (s.eng e.val).therm;
    let live : Nat → Prop := fun (i : Nat) => s.dieOn e.val (i / 8) = true;
    s.supplied e.val = true ∧
      x.failed = [] ∧
        let temps : Vector (Fin 256) 48 := Vector.replicate 48 90;
        ∀ (i : Nat) (h : i < 48), live i → sampleBad 1 (SMap.find? x.last i) (↑temps[i] : Nat) = false) ∧
    (let s : State := st19 0;
    let e : EngIx := 0;
    let x : Therm := (s.eng e.val).therm;
    s.supplied e.val = true ∧
      x.failed = [] ∧
        let temps : Vector (Fin 256) 48 := Vector.replicate 48 10;
        let i : Nat := 0;
        i < 48 ∧
          (i / 8 = 5 ∨ (s.dieAt e.val (i / 8)).isSome = true) ∧
            sampleBad 1 (SMap.find? x.last i) (↑temps[i] : Nat) = true) ∧
    (let s : State := st19 1;
    let e : EngIx := 0;
    let x : Therm := (s.eng e.val).therm;
    x.reaches 112 100 = false ∧ x.reaches 105 95 = true ∧ x.disarmed = false) ∧
    (let s : State := st19 0;
    let e : EngIx := 0;
    let x : Therm := (s.eng e.val).therm;
    x.reaches 112 100 = false ∧ x.reaches 100 90 = false) ∧
    (let s : State := st19 0;
    let e : EngIx := 0;
    let x : Therm := (s.eng e.val).therm;
    let k : Fin 2 := 0;
    let temp : Fin 256 := 40;
    s.pwr e.val ≠ 0 ∧
      SMap.getD x.failed (48 + k.val) false = false ∧
        let t0 : Nat := temp.val + 50;
        sampleBad 1 (SMap.find? x.last (48 + k.val)) t0 = false) ∧
    (let s : State := st19 0;
    let e : EngIx := 0;
    let x : Therm := (s.eng e.val).therm;
    let k : Fin 2 := 0;
    let temp : Fin 256 := 200;
    s.pwr e.val ≠ 0 ∧
      SMap.getD x.failed (48 + k.val) false = false ∧
        let t0 : Nat := temp.val + 50;
        sampleBad 1 (SMap.find? x.last (48 + k.val)) t0 = true) ∧
    (let s : State := st19 5;
    let e : EngIx := 0;
    let x : Therm := (s.eng e.val).therm;
    s.noSensor e.val = false ∧ x.reaches 97 87 = true ∧ x.reaches 100 90 = false) ∧
    (let s : State := st19 1;
    let r : Req := Req.host 0 0;
    let e : EngIx := 0;
    let v : Word := 0#32;
    let x : Therm := (s.eng e.val).therm;
    let st : Nat := Reg.THM_ENG_STAT e.val;
    (s.gate r st (BitVec.toNat v)).snd = true ∧ Option.any (fun (j : Nat) => decide (50 ≤ j ∧ j < 256)) x.j = true) ∧
    (let s : State := st19 0;
    let r : Req := Req.host 0 0;
    let e : EngIx := 0;
    let v : Word := 0#32;
    let st : Nat := Reg.THM_ENG_STAT e.val;
    (s.gate r st (BitVec.toNat v)).snd = true ∧
      let n : Nat := 30;
      30 ≤ n ∧ n ≤ 31) ∧
    (let s : State := st19 1;
    let e : EngIx := 0;
    let x : Therm := (s.eng e.val).therm;
    Option.any (fun (j : Nat) => decide (x.cycleAt + 100000000 ≤ s.now ∧ x.extreme = none)) x.j = true) ∧
    (let s : State := st19 2;
    let e : EngIx := 0;
    let x : Therm := (s.eng e.val).therm;
    x.reaches 112 100 = true ∧ s.supplied e.val = true) ∧
    (let s : State := st19 2;
    let e : EngIx := 0;
    let x : Therm := (s.eng e.val).therm;
    s.noSensor e.val = false ∧ x.reaches 100 90 = true ∧ x.levelAt + 1000000 ≤ s.now ∧ x.level < 8 ∧ x.level + 1 < 16) ∧
    (let s : State := st19 3;
    let e : EngIx := 0;
    let x : Therm := (s.eng e.val).therm;
    s.noSensor e.val = false ∧ x.reaches 97 87 = false ∧ x.levelAt + 10000000 ≤ s.now ∧ x.level ≠ 0 ∧ x.level - 1 < 16) ∧
    (let s : State := st19 4;
    let e : EngIx := 0;
    let x : Therm := (s.eng e.val).therm;
    Option.any
        (fun (j : Nat) =>
          decide
            (x.cycleAt + 100000000 ≤ s.now ∧
              Option.any (fun (m : Nat) => decide (m + 2 ≤ j ∧ x.rising ≠ some true)) x.extreme = true))
        x.j =
      true) ∧
    (let s : State := st19 5;
    let e : EngIx := 0;
    let x : Therm := (s.eng e.val).therm;
    Option.any
        (fun (j : Nat) =>
          decide
            (x.cycleAt + 100000000 ≤ s.now ∧
              Option.any (fun (m : Nat) => decide (j + 2 ≤ m ∧ x.rising ≠ some false)) x.extreme = true))
        x.j =
      true) ∧
    (let s : State := st19 6;
    let e : EngIx := 0;
    let x : Therm := (s.eng e.val).therm;
    Option.any
        (fun (j : Nat) =>
          decide
            (x.cycleAt + 100000000 ≤ s.now ∧
              Option.any (fun (m : Nat) => decide (m < j ∧ x.rising = some true)) x.extreme = true))
        x.j =
      true) ∧
    (let s : State := st19 7;
    let e : EngIx := 0;
    let x : Therm := (s.eng e.val).therm;
    Option.any
        (fun (j : Nat) =>
          decide
            (x.cycleAt + 100000000 ≤ s.now ∧
              Option.any (fun (m : Nat) => decide (j < m ∧ x.rising = some false)) x.extreme = true))
        x.j =
      true) ∧
    (let s : State := st19 0;
    let ns : Fin 4294967296 := 10;
    s.flowStuck = false ∧ ns.val < 100000) ∧
    (let s : State := st19 0;
    let x : Flow := s.flow;
    let ns : Fin 4294967296 := 200000;
    s.flowStuck = false ∧
      let fast : Prop := ∃ (at' : Nat), x.last = some at' ∧ (s.now - at') * s.ppl < 400000000;
      100000 ≤ ns.val ∧ ¬fast) ∧
    (let s : State := st19 0;
    let x : Flow := s.flow;
    let f : Nat := s.flowNow;
    x.updAt + 100000000 ≤ s.now ∧
      s.flowStuck = false ∧ f < 65536 ∧ f < 120 ∧ s.flag Reg.THM_STAT Fld.THM_STAT.FLOW_CRIT = false) ∧
    (let s : State := st19 0;
    s.flowStopped = true ∧ s.flowStuck = false ∧ 0 < 65536 ∧ 0 < 120 ∧ s.flag Reg.THM_STAT Fld.THM_STAT.FLOW_CRIT = false) ∧
    (let s : State := st19 0;
    let r : Req := Req.host 0 0;
    let v : Word := 0#32;
    (s.gate r Reg.THM_FLOW_CNT (BitVec.toNat v)).snd = true) ∧
    (let s : State := st19 0;
    let x : Flow := s.flow;
    let i : Fin 4096 := 700;
    let i2 : Fin 4096 := 700;
    let o : Fin 4096 := 700;
    let o2 : Fin 4096 := 700;
    x.failed = [] ∧
      (∀ (p : Nat × Nat),
          p ∈ [(0, i.val), (1, i2.val), (2, o.val), (3, o2.val)] →
            sampleBad 10 (SMap.find? x.coolant p.fst) p.snd = false) ∧
        500 ≤ i.val) ∧
    (let s : State := st19 0;
    let x : Flow := s.flow;
    let i : Fin 4096 := 700;
    let i2 : Fin 4096 := 700;
    let o : Fin 4096 := 700;
    let o2 : Fin 4096 := 700;
    x.failed = [] ∧
      (∀ (p : Nat × Nat),
          p ∈ [(0, i.val), (1, i2.val), (2, o.val), (3, o2.val)] →
            sampleBad 10 (SMap.find? x.coolant p.fst) p.snd = false) ∧
        500 ≤ o.val) ∧
    (let s : State := st19 0;
    let x : Flow := s.flow;
    let i : Fin 4096 := 600;
    let i2 : Fin 4096 := 700;
    let o : Fin 4096 := 700;
    let o2 : Fin 4096 := 700;
    x.failed = [] ∧
      (∀ (p : Nat × Nat),
          p ∈ [(0, i.val), (1, i2.val), (2, o.val), (3, o2.val)] →
            sampleBad 10 (SMap.find? x.coolant p.fst) p.snd = false) ∧
        (i.val < 680 ∨ 900 < i.val)) ∧
    (let s : State := st19 0;
    let x : Flow := s.flow;
    let i : Fin 4096 := 700;
    let i2 : Fin 4096 := 700;
    let o : Fin 4096 := 700;
    let o2 : Fin 4096 := 700;
    x.failed = [] ∧
      (∀ (p : Nat × Nat),
          p ∈ [(0, i.val), (1, i2.val), (2, o.val), (3, o2.val)] →
            sampleBad 10 (SMap.find? x.coolant p.fst) p.snd = false) ∧
        685 ≤ i.val ∧ i.val ≤ 895 ∧ s.flowStuck = false) ∧
    (let s : State := st19 13;
    let x : Flow := s.flow;
    let i : Fin 4096 := 700;
    let i2 : Fin 4096 := 700;
    let o : Fin 4096 := 1000;
    let o2 : Fin 4096 := 700;
    x.failed = [] ∧
      (∀ (p : Nat × Nat),
          p ∈ [(0, i.val), (1, i2.val), (2, o.val), (3, o2.val)] →
            sampleBad 10 (SMap.find? x.coolant p.fst) p.snd = false) ∧
        s.flowStuck = true ∧ i.val + 250 < o.val) ∧
    (let s : State := st19 13;
    let x : Flow := s.flow;
    let i : Fin 4096 := 700;
    let i2 : Fin 4096 := 700;
    let o : Fin 4096 := 700;
    let o2 : Fin 4096 := 700;
    x.failed = [] ∧
      (∀ (p : Nat × Nat),
          p ∈ [(0, i.val), (1, i2.val), (2, o.val), (3, o2.val)] →
            sampleBad 10 (SMap.find? x.coolant p.fst) p.snd = false) ∧
        s.flowStuck = true ∧ o.val ≤ i.val + 250) ∧
    (let s : State := st19 0;
    let x : Flow := s.flow;
    let k : Nat := 0;
    k < 4 ∧
      SMap.getD x.failed k false = false ∧
        let i : Fin 4096 := 100;
        let i2 : Fin 4096 := 700;
        let o : Fin 4096 := 700;
        let o2 : Fin 4096 := 700;
        sampleBad 10 (SMap.find? x.coolant k) ([i.val, i2.val, o.val, o2.val].getD k 0) = true) ∧
    (let s : State := st19 8;
    let x : Flow := s.flow;
    let ns : Fin 4294967296 := 200000;
    s.flowStuck = false ∧
      let fast : Prop := ∃ (at' : Nat), x.last = some at' ∧ (s.now - at') * s.ppl < 400000000;
      100000 ≤ ns.val ∧ fast) ∧
    (let s : State := st19 8;
    let x : Flow := s.flow;
    let f : Nat := s.flowNow;
    x.updAt + 100000000 ≤ s.now ∧ s.flowStuck = false ∧ f < 65536 ∧ 300 ≤ f) ∧
    (let s : State := st19 9;
    let x : Flow := s.flow;
    let f : Nat := s.flowNow;
    x.updAt + 100000000 ≤ s.now ∧ s.flowStuck = false ∧ f < 65536 ∧ 120 ≤ f ∧ f < 300) ∧
    (let s : State := st19 12;
    let x : Flow := s.flow;
    Option.any (fun (at' : Nat) => decide (at' + 50000 ≤ s.now)) x.critAt = true) ∧
    (let s : State := st19 13;
    let r : Req := Req.host 0 0;
    let v : Word := 0#32;
    let w : Nat := putBits (BitVec.toNat v) 31 31 1;
    (s.gate r Reg.THM_FLOW_CFG w).snd = true ∧ s.flowStuck = true) := by
  refine ⟨?_, ?_, ?_, ?_, ?_, ?_, ?_, ?_, ?_, ?_, ?_, ?_, ?_, ?_, ?_, ?_, ?_, ?_, ?_, ?_, ?_, ?_, ?_, ?_, ?_, ?_, ?_, ?_, ?_, ?_, ?_, ?_, ?_, ?_⟩ <;> decide +kernel

/-! ### Mailbox requests (20_easel) -/

/-- The panel with its mailbox 0 busy or not, and the session given. -/
def mailPanel (busy : Nat) (x : Session) : State :=
  put { panel with now := 30000000000, session := x, flash := { token := some (leBytes 32 7) } } [(Reg.EZ_MB_STAT 0, Fld.EZ_MB_STAT.BUSY, busy)]

/-- A session that is open. -/
def session1 : Session := { nonce := some (leBytes 32 5), isOpen := true, rx := 3, tx := 4 }

/-- The states for the mailboxes. -/
def st20a : Nat → State
  | 0 => mailPanel 0 { }
  | 1 => mailPanel 1 { }
  | _ => mailPanel 0 session1

theorem witness_MailboxRequestsAreAnswered :
    (let s : State := st20a 0;
    let src : MbSrc := MbSrc.port 0;
    let stat : Nat → Nat := fun (p : Nat) => Reg.EZ_MB_STAT p;
    let p : HostIx := 0;
    src = MbSrc.port p ∧ s.portUp p.val = true ∧ s.flag (stat p.val) Fld.EZ_MB_STAT.BUSY = false ∧ s.duties = true) ∧
    (let s : State := st20a 0;
    let src : MbSrc := MbSrc.mgmt;
    s.session.isOpen = false ∧ src = MbSrc.mgmt ∧ s.mbServed MbSrc.mgmt = true) ∧
    (let s : State := st20a 0;
    let src : MbSrc := MbSrc.i3c;
    s.session.isOpen = false ∧ src = MbSrc.i3c ∧ s.duties = true) ∧
    (let s : State := st20a 2;
    let src : MbSrc := MbSrc.mgmt;
    let how : MbHow := MbHow.run;
    s.session.isOpen = true ∧
      src = MbSrc.mgmt ∧
        s.mbServed MbSrc.mgmt = true ∧
          let r : State × MbResp :=
            (s.onSession fun (y : Session) =>
                  { nonce := y.nonce, isOpen := y.isOpen, rx := y.rx + 1, tx := y.tx, at' := s.now, blocked := y.blocked,
                    nonces := y.nonces : Session }).mbRequest
              src 1 [] true how 0;
          let m : State := r.fst;
          m.session.isOpen = true) ∧
    (let s : State := st20a 0;
    let op : Nat := 1;
    let n : Nat := 1;
    let pl : List Byte := [];
    op < 65536 ∧ n < 2 ^ 32 ∧ pl.length ≤ 4080 ∧ s.mbServed MbSrc.mgmt = true ∧ s.session.isOpen = false) ∧
    (let s : State := st20a 1;
    let src : MbSrc := MbSrc.port 0;
    let stat : Nat → Nat := fun (p : Nat) => Reg.EZ_MB_STAT p;
    let p : HostIx := 0;
    src = MbSrc.port p ∧ s.portUp p.val = true ∧ s.flag (stat p.val) Fld.EZ_MB_STAT.BUSY = true) ∧
    (let s : State := st20a 2;
    let how : MbHow := MbHow.run;
    let op : Nat := 1;
    let n : Nat := 1;
    let pl : List Byte := [];
    op < 65536 ∧
      n < 2 ^ 32 ∧
        pl.length ≤ 4080 ∧
          s.mbServed MbSrc.mgmt = true ∧
            Option.any
                (fun (nonce : List Byte) =>
                  decide
                    (Option.any
                        (fun (token : List Byte) =>
                          decide
                            (s.session.isOpen = true ∧
                              let r : State × MbResp :=
                                (s.onSession fun (y : Session) =>
                                      { nonce := y.nonce, isOpen := y.isOpen, rx := y.rx + 1, tx := y.tx, at' := s.now,
                                        blocked := y.blocked, nonces := y.nonces : Session }).mbRequest
                                  MbSrc.mgmt op pl true how 0;
                              let m : State := r.fst;
                              m.session.isOpen = true))
                        s.flash.token =
                      true))
                s.session.nonce =
              true) := by
  refine ⟨?_, ?_, ?_, ?_, ?_, ?_, ?_⟩ <;> decide +kernel

/-! ### Mailbox operations (20_easel) -/

/-- The panel with the Easel dies, flash, session and delivery given. -/
def opPanel (z : Easel) (f : Flash) (x : Session := { }) (d : Option Delivery := none) : State :=
  put { panel with now := 30000000000, easel := { z with running := true }, flash := f, session := x, delivery := d } [(Reg.EZ_INFO, Fld.EZ_INFO.STANDBY_OK, 1)]

/-- The flash with an image in the slot that does not run. -/
def flash2 : Flash := { slots := [(1, ⟨1, 2, 0, []⟩)], checkpoints := [⟨5, [], []⟩], chainKey := some (leBytes 32 1), token := some (leBytes 32 7) }

/-- A delivery of four bytes from port 0 or 1, whole or not. -/
def delivery1 (src : Nat) (whole : Bool) : Delivery := { src := src, kind := 1, total := 4, chunks := if whole then [(0, leBytes 4 9)] else [], at' := 0 }

/-- The states for the operations. -/
def st20b : Nat → State
  | 0 => opPanel { } { flash2 with chainKey := none }
  | 1 => opPanel { sigNext := 2 ^ 40 } { flash2 with minSvn := 3 } { } (some (delivery1 0 true))
  | 2 => opPanel { handover := some (0, 30000000000), telemetry := [1#8] } flash2 { } (some (delivery1 0 false))
  | 3 => opPanel { handover := some (0, 0) } flash2 { } (some (delivery1 1 true))
  | 4 => opPanel { } flash2 { nonce := some (leBytes 32 5), isOpen := true }
  | 5 => opPanel { sigNext := 2 ^ 40 } flash2 { nonce := some (leBytes 32 5), isOpen := true }
  | _ => opPanel { } flash2 { nonce := some (leBytes 32 5) }

theorem witness_MailboxOperationsActByRight :
    (let op : Nat := 0;
    let how : MbHow := MbHow.run;
    (how = MbHow.run ∨ how = MbHow.flashFails) ∧ mbKnown op = false) ∧
    (let op : Nat := 1;
    let pl : List Byte := [];
    let fits : Bool := false;
    let how : MbHow := MbHow.run;
    (how = MbHow.run ∨ how = MbHow.flashFails) ∧ mbKnown op = true ∧ (fits = false ∨ mbArgsOk op pl = false)) ∧
    (let s : State := st20b 0;
    let src : MbSrc := MbSrc.mgmt;
    let op : Nat := 18;
    let pl : List Byte := [];
    let fits : Bool := true;
    let how : MbHow := MbHow.run;
    (how = MbHow.run ∨ how = MbHow.flashFails) ∧
      mbKnown op = true ∧ fits = true ∧ mbArgsOk op pl = true ∧ s.mbMay src op = false) ∧
    (let s : State := st20b 0;
    let src : MbSrc := MbSrc.port 0;
    s.mbMay src 1 = true) ∧
    (let s : State := st20b 0;
    let src : MbSrc := MbSrc.port 0;
    s.mbMay src 2 = true) ∧
    (let s : State := st20b 0;
    let src : MbSrc := MbSrc.port 0;
    s.mbMay src 3 = true ∧ s.easel.sigNext < 2 ^ 40) ∧
    (let s : State := st20b 0;
    let src : MbSrc := MbSrc.port 0;
    let kind : Nat := 1;
    let total : Word := 0#32;
    s.mbMay src 16 = true ∧
      (kind = 1 ∧ BitVec.toNat total ≤ 1048576 ∨
          kind = 2 ∧ BitVec.toNat total ≤ 67108864 ∨ kind = 3 ∧ BitVec.toNat total = 2884) ∧
        s.delivery = none ∧ (s.romWaits = false ∨ kind = 2)) ∧
    (let s : State := st20b 1;
    let src : MbSrc := MbSrc.port 0;
    let kind : Nat := 1;
    let total : Word := 0#32;
    s.mbMay src 16 = true ∧
      (kind = 1 ∧ BitVec.toNat total ≤ 1048576 ∨
          kind = 2 ∧ BitVec.toNat total ≤ 67108864 ∨ kind = 3 ∧ BitVec.toNat total = 2884) ∧
        s.delivery.isSome = true) ∧
    (let s : State := st20b 0;
    let b : List Byte := [];
    let gc : Nat := groundCode b (s.groundKey b);
    gc ≠ 0) ∧
    (let s : State := st20b 0;
    let f : Flash := s.flash;
    let b : List Byte := [];
    let fc : Nat := fwCode b f.minSvn;
    fc ≠ 0) ∧
    (let b : List Byte := [];
    qualCode b ≠ 0) ∧
    (let s : State := st20b 0;
    let src : MbSrc := MbSrc.port 0;
    let f : Flash := s.flash;
    Option.any
        (fun (w : FwSlot) =>
          decide
            (let found : Nat := 1;
            s.mbMay src 20 = true ∧ s.flag Reg.EZ_INFO Fld.EZ_INFO.STANDBY_OK = true ∧ found ≠ 0))
        (SMap.find? f.slots (1 - s.easel.slot)) =
      true) ∧
    (let s : State := st20b 1;
    let src : MbSrc := MbSrc.port 0;
    let f : Flash := s.flash;
    Option.any
        (fun (w : FwSlot) =>
          decide (s.mbMay src 20 = true ∧ s.flag Reg.EZ_INFO Fld.EZ_INFO.STANDBY_OK = true ∧ w.svn < f.minSvn))
        (SMap.find? f.slots (1 - s.easel.slot)) =
      true) ∧
    (let s : State := st20b 0;
    let src : MbSrc := MbSrc.port 0;
    let f : Flash := s.flash;
    Option.any
        (fun (w : FwSlot) =>
          decide (s.mbMay src 20 = true ∧ s.flag Reg.EZ_INFO Fld.EZ_INFO.STANDBY_OK = true ∧ f.minSvn ≤ w.svn))
        (SMap.find? f.slots (1 - s.easel.slot)) =
      true) ∧
    (let s : State := st20b 0;
    let src : MbSrc := MbSrc.port 0;
    let f : Flash := s.flash;
    let q : Nat := 0;
    q ≤ 1 ∧ s.mbMay src 32 = true ∧ q = f.owner) ∧
    (let s : State := st20b 0;
    let src : MbSrc := MbSrc.port 0;
    let f : Flash := s.flash;
    let q : Nat := 1;
    q ≤ 1 ∧ s.mbMay src 32 = true ∧ q ≠ f.owner) ∧
    (let s : State := st20b 0;
    let src : MbSrc := MbSrc.port 0;
    s.mbMay src 35 = true ∧ s.easel.sigNext < 2 ^ 40) ∧
    (let s : State := st20b 1;
    let src : MbSrc := MbSrc.port 0;
    s.mbMay src 35 = true ∧ 2 ^ 40 ≤ s.easel.sigNext) ∧
    (let s : State := st20b 0;
    let src : MbSrc := MbSrc.port 0;
    s.mbMay src 37 = true ∧ s.easel.sigNext < 2 ^ 40) ∧
    (let s : State := st20b 1;
    let src : MbSrc := MbSrc.port 0;
    s.mbMay src 37 = true ∧ 2 ^ 40 ≤ s.easel.sigNext) ∧
    (let s : State := st20b 0;
    let src : MbSrc := MbSrc.port 0;
    let n : Nat := 1;
    1 ≤ n ∧ n ≤ 3 ∧ s.mbMay src 36 = true ∧ s.easel.sigNext < 2 ^ 40) ∧
    (let s : State := st20b 1;
    let src : MbSrc := MbSrc.port 0;
    let n : Nat := 1;
    1 ≤ n ∧ n ≤ 3 ∧ s.mbMay src 36 = true ∧ 2 ^ 40 ≤ s.easel.sigNext) ∧
    (let s : State := st20b 0;
    let src : MbSrc := MbSrc.port 0;
    s.mbMay src 38 = true ∧ s.easel.sigNext < 2 ^ 40) ∧
    (let s : State := st20b 1;
    let src : MbSrc := MbSrc.port 0;
    s.mbMay src 38 = true ∧ 2 ^ 40 ≤ s.easel.sigNext) ∧
    (let s : State := st20b 0;
    let src : MbSrc := MbSrc.port 0;
    let n : Nat := 1;
    1 ≤ n ∧ n ≤ 255 ∧ s.mbMay src 48 = true) ∧
    (let s : State := st20b 0;
    let src : MbSrc := MbSrc.port 0;
    let f : Flash := s.flash;
    let q : Word64 := 5#64;
    s.mbMay src 49 = true ∧ (List.find? (fun (c : Checkpoint) => c.seq == BitVec.toNat q) f.checkpoints).isSome = true) ∧
    (let s : State := st20b 0;
    let src : MbSrc := MbSrc.port 0;
    let f : Flash := s.flash;
    let q : Word64 := 6#64;
    s.mbMay src 49 = true ∧ List.find? (fun (c : Checkpoint) => c.seq == BitVec.toNat q) f.checkpoints = none) ∧
    (let s : State := st20b 0;
    let src : MbSrc := MbSrc.port 0;
    let n : Nat := 1;
    1 ≤ n ∧ n ≤ 2043 ∧ s.mbMay src 50 = true) ∧
    (let s : State := st20b 2;
    let src : MbSrc := MbSrc.port 0;
    s.mbMay src 51 = true ∧ s.easel.telemetry ≠ []) ∧
    (let s : State := st20b 0;
    let src : MbSrc := MbSrc.port 0;
    let f : Flash := s.flash;
    s.mbMay src 64 = true ∧ f.chainKey = none) ∧
    (let s : State := st20b 0;
    let src : MbSrc := MbSrc.mgmt;
    s.mbMay src 96 = true ∧ s.session.isOpen = false ∧ s.session.blocked ≤ s.now) ∧
    (let s : State := st20b 1;
    let src : MbSrc := MbSrc.port 0;
    Option.any
        (fun (d : Delivery) =>
          decide
            (let off : Word := 0#32;
            let data : List Byte := [];
            s.mbMay src 17 = true ∧ d.src = mbNo src ∧ BitVec.toNat off + data.length ≤ d.total))
        s.delivery =
      true) ∧
    (let s : State := st20b 3;
    let src : MbSrc := MbSrc.port 0;
    Option.any (fun (d : Delivery) => decide (s.mbMay src 17 = true ∧ d.src ≠ mbNo src)) s.delivery = true) ∧
    (let s : State := st20b 2;
    let src : MbSrc := MbSrc.port 0;
    Option.any (fun (d : Delivery) => decide (s.mbMay src 18 = true ∧ d.src = mbNo src ∧ d.whole = false)) s.delivery = true) ∧
    (let s : State := st20b 1;
    let src : MbSrc := MbSrc.port 0;
    Option.any (fun (d : Delivery) => decide (s.mbMay src 18 = true ∧ d.src = mbNo src ∧ d.whole = true)) s.delivery = true) ∧
    (let s : State := st20b 1;
    let src : MbSrc := MbSrc.port 0;
    Option.any (fun (d : Delivery) => decide (s.mbMay src 19 = true ∧ d.src = mbNo src)) s.delivery = true) ∧
    (let s : State := st20b 1;
    let src : MbSrc := MbSrc.port 0;
    let f : Flash := s.flash;
    s.mbMay src 64 = true ∧ f.chainKey.isSome = true) ∧
    (let s : State := st20b 2;
    let src : MbSrc := MbSrc.port 0;
    Option.any
        (fun (y : Nat × Nat) =>
          decide
            (let at' : Nat := y.snd;
            s.mbMay src 33 = true ∧ s.easel.sigNext < 2 ^ 40 ∧ s.now ≤ at' + 10000000000))
        s.easel.handover =
      true) ∧
    (let s : State := st20b 3;
    let src : MbSrc := MbSrc.port 0;
    Option.any
        (fun (y : Nat × Nat) =>
          decide
            (let at' : Nat := y.snd;
            s.mbMay src 33 = true ∧ s.easel.sigNext < 2 ^ 40 ∧ at' + 10000000000 < s.now))
        s.easel.handover =
      true) ∧
    (let s : State := st20b 4;
    let src : MbSrc := MbSrc.mgmt;
    let q : Nat := 0;
    q ≤ 1 ∧ s.mbMay src 34 = true ∧ s.easel.sigNext < 2 ^ 40) ∧
    (let s : State := st20b 5;
    let src : MbSrc := MbSrc.mgmt;
    let q : Nat := 0;
    q ≤ 1 ∧ s.mbMay src 34 = true ∧ 2 ^ 40 ≤ s.easel.sigNext) ∧
    (let s : State := st20b 4;
    let src : MbSrc := MbSrc.mgmt;
    let a : Word := 16777216#32;
    BitVec.toNat a % 4 = 0 ∧
      BitVec.toNat a < 268435456 ∧ s.mbMay src 80 = true ∧ s.mayRead Req.service (BitVec.toNat a) = false) ∧
    (let s : State := st20b 4;
    let src : MbSrc := MbSrc.mgmt;
    let a : Word := 0#32;
    BitVec.toNat a % 4 = 0 ∧
      BitVec.toNat a < 268435456 ∧
        s.mbMay src 80 = true ∧ s.mayRead Req.service (BitVec.toNat a) = true ∧ mailboxOf (BitVec.toNat a) = none) ∧
    (let s : State := st20b 4;
    let src : MbSrc := MbSrc.mgmt;
    let a : Word := 16777216#32;
    BitVec.toNat a % 4 = 0 ∧
      BitVec.toNat a < 268435456 ∧ s.mbMay src 81 = true ∧ s.mayWrite Req.service (BitVec.toNat a) = false) ∧
    (let s : State := st20b 4;
    let src : MbSrc := MbSrc.mgmt;
    let a : Word := 0#32;
    BitVec.toNat a % 4 = 0 ∧
      BitVec.toNat a < 268435456 ∧
        s.mbMay src 81 = true ∧ s.mayWrite Req.service (BitVec.toNat a) = true ∧ s.capture.length < 4032) ∧
    (let s : State := st20b 4;
    let src : MbSrc := MbSrc.mgmt;
    s.mbMay src 98 = true ∧ s.session.isOpen = true) := by
  refine ⟨?_, ?_, ?_, ?_, ?_, ?_, ?_, ?_, ?_, ?_, ?_, ?_, ?_, ?_, ?_, ?_, ?_, ?_, ?_, ?_, ?_, ?_, ?_, ?_, ?_, ?_, ?_, ?_, ?_, ?_, ?_, ?_, ?_, ?_, ?_, ?_, ?_, ?_, ?_, ?_, ?_, ?_, ?_, ?_, ?_, ?_⟩ <;> decide +kernel

/-! ### The change record and duties (20_easel) -/

/-- The panel with the Easel dies, flash and session given, a standby or none, and a shed level. -/
def dutyPanel (z : Easel) (ok shed : Nat) (f : Flash := { }) (x : Session := { }) : State :=
  put { panel with now := 700000000000, easel := { z with running := true }, flash := f, session := x } [(Reg.EZ_INFO, Fld.EZ_INFO.STANDBY_OK, ok), (Reg.EZ_INFO, Fld.EZ_INFO.SHED, shed),
    (Reg.EZ_MB_STAT 0, Fld.EZ_MB_STAT.BUSY, 1)]

/-- An entry that waits in the capture FIFO. -/
def cap1 : CapEntry := ⟨1, 1, 0, 0, 0, 5, 6, []⟩

/-- The states for Easel's duties. -/
def st20c : Nat → State
  | 0 => dutyPanel { } 1 1
  | 1 => dutyPanel { coolSince := some 0 } 0 0
  | 2 => dutyPanel { coolSince := some 699999999999 } 0 3
  | 3 => dutyPanel { takeoverAt := some 0 } 1 0
  | 4 => { dutyPanel { handover := some (1, 0) } 1 0 with delivery := some { src := 0, kind := 1, total := 4, chunks := [], at' := 0 } }
  | 5 => dutyPanel { } 1 0 { } { nonce := some [], isOpen := true, at' := 0 }
  | 6 => { dutyPanel { } 1 0 with capture := [cap1] }
  | 7 => { dutyPanel { } 1 0 with gapWrites := 2 }
  | 8 => { dutyPanel { } 1 0 with defectQ := [⟨1, 0, 2, 3, 2⟩] }
  | 9 => { dutyPanel { } 1 0 with verdictIn := [leBytes 64 0] }
  | 10 => { dutyPanel { } 1 0 { seq := 600000 } with capture := [cap1] }
  | 11 => { dutyPanel { } 1 0 { chainKey := some [] } with verdictIn := [leBytes 64 0] }
  | _ => put { dutyPanel { verdicts := [(0, 1, 1)], epochs := [] } 1 0 { chainKey := some [] } with verdictIn := [leBytes 4 0 ++ leBytes 1 1 ++ leBytes 59 0] } [(Reg.LNK_QUORUM_MGR 0, ⟨31, 0⟩, 0x10000)]

theorem witness_EaselKeepsItsRecordAndDuties :
    (let s : State := st20c 0;
    let load : Fin 101 := 95;
    s.duties = true ∧ 90 ≤ load.val) ∧
    (let s : State := st20c 0;
    let load : Fin 101 := 80;
    s.duties = true ∧ 70 ≤ load.val ∧ load.val < 90) ∧
    (let s : State := st20c 0;
    let z : Easel := s.easel;
    let load : Fin 101 := 10;
    s.duties = true ∧
      let since : Nat := z.coolSince.getD (s.now - 10000000);
      load.val < 70 ∧ s.now < since + 100000000) ∧
    (let s : State := st20c 1;
    let info : Nat := Reg.EZ_INFO;
    s.duties = true ∧ s.flag info Fld.EZ_INFO.STANDBY_OK = false) ∧
    (let s : State := st20c 0;
    let info : Nat := Reg.EZ_INFO;
    s.duties = true ∧ s.flag info Fld.EZ_INFO.STANDBY_OK = true) ∧
    (let s : State := st20c 4;
    Option.any (fun (d : Delivery) => decide (d.at' + 60000000000 ≤ s.now)) s.delivery = true) ∧
    (let s : State := st20c 0;
    let r : Req := Req.host 0 0;
    let v : Word := 0#32;
    (s.gate r (Reg.LOG_UTC 1) (BitVec.toNat v)).snd = true) ∧
    (let s : State := st20c 0;
    let z : Easel := s.easel;
    s.duties = true ∧ (z.telemetryAt + if s.shed = 3 then 100000000 else 1000000) ≤ s.now) ∧
    (let s : State := st20c 1;
    let z : Easel := s.easel;
    let load : Fin 101 := 10;
    s.duties = true ∧
      let since : Nat := z.coolSince.getD (s.now - 10000000);
      load.val < 70 ∧ since + 100000000 ≤ s.now) ∧
    (let s : State := st20c 3;
    let z : Easel := s.easel;
    z.takeoverAt.isSome = true ∧
      let p : HostIx := 0;
      s.flag (Reg.EZ_MB_STAT p.val) Fld.EZ_MB_STAT.BUSY = true) ∧
    (let s : State := st20c 4;
    let z : Easel := s.easel;
    Option.any
        (fun (y : Nat × Nat) =>
          decide
            (let at' : Nat := y.snd;
            at' + 10000000000 ≤ s.now))
        z.handover =
      true) ∧
    (let s : State := st20c 5;
    s.session.isOpen = true ∧ s.session.at' + 600000000000 ≤ s.now) ∧
    (let s : State := st20c 10;
    s.duties = true ∧
      Option.any
          (fun (x : CapEntry) =>
            decide
              (s.flash.seq % 4096 ≠ 4095 ∧
                let q : Nat := s.flash.seq;
                524288 ≤ q ∧ q % 4096 ≠ 4095))
          s.capture.head? =
        true) ∧
    (let s : State := st20c 6;
    s.duties = true ∧
      Option.any (fun (x : CapEntry) => decide (s.flash.seq % 4096 ≠ 4095 ∧ s.gapWrites = 0 ∧ s.gapEvents = 0))
          s.capture.head? =
        true) ∧
    (let s : State := st20c 7;
    s.duties = true ∧ s.capture = [] ∧ (s.gapWrites ≠ 0 ∨ s.gapEvents ≠ 0)) ∧
    (let s : State := st20c 8;
    Option.any (fun (d : Defect) => decide (s.duties = true ∧ s.flash.defects.length < 262080 ∧ d.engine < 48))
        s.defectQ.head? =
      true) ∧
    (let s : State := st20c 9;
    Option.any (fun (x : List Byte) => decide (s.duties = true ∧ s.verdictOk x = false)) s.verdictIn.head? = true) := by
  refine ⟨?_, ?_, ?_, ?_, ?_, ?_, ?_, ?_, ?_, ?_, ?_, ?_, ?_, ?_, ?_, ?_, ?_⟩ <;> decide +kernel

/-! ### Pins and registers (00_scope, 21_physical) -/

/-- The panel with engine 1 in service and contained. -/
def ownPanel : State :=
  let s := put panel (serveRegs 1)
  s.onEng 1 fun g => { g with up := true, contained := true }

/-- The states for the control space. -/
def st21 : Nat → State
  | 0 => panel
  | _ => ownPanel

theorem witness_RegisterWritesSetFields :
    (let s : State := st21 0;
    let r : Req := Req.host 0 0;
    let e : EngIx := 0;
    let p : HostIx := 0;
    let g : Fin 4 := 0;
    let w : Fin 8 := 0;
    let v : Word64 := 1234605616436508552#64;
    let at32 : Nat := BitVec.toNat v % 2 ^ 32;
    let whole : Prop := ∀ (q : HostIx) (f : FnIx), r = Req.host q f → f.val = 0;
    whole ∧
      let off : Fin 268435456 := 16785412;
      off.val ∈
          [Reg.NET_WDOG e.val, Reg.NET_INJ e.val, Reg.NET_FAULT e.val, Reg.NET_ABORT_STAT e.val,
            Reg.PT_CTX_SEL e.val, Reg.HP_WIN p.val w.val, Reg.SK_GUEST_ACCESS g.val,
            Reg.SK_GUEST_TIMEOUT g.val, Reg.PWR_LIMIT, Reg.FLT_LOG_SEL, Reg.LOG_UTC 0] ∧
        (s.gate r off.val at32).snd = true ∧
          let i : Fin 32 := 31;
          ∀ (f : RField), f ∈ regFields off.val → i.val < f.lo ∨ f.hi < i.val) ∧
    (let s : State := st21 0;
    let r : Req := Req.host 0 0;
    let p : HostIx := 0;
    let w : Fin 8 := 0;
    let whole : Prop := ∀ (q : HostIx) (f : FnIx), r = Req.host q f → f.val = 0;
    whole ∧
      s.reqLive r = true ∧
        s.mayWrite r (Reg.HP_WIN p.val (2 * w.val)) = true ∧
          s.mayWrite r (Reg.HP_WIN p.val (2 * w.val + 1)) = true ∧
            s.capture.length < 4032 ∧
              let off : Fin 268435456 := 5243136;
              off.val = Reg.HP_WIN p.val (2 * w.val)) ∧
    (let off : Fin 268435456 := 16785412;
    let n : Fin 17 := 8;
    n.val ≠ 4 ∧ n.val ≠ 8 ∨ off.val % n.val ≠ 0) := by
  refine ⟨?_, ?_, ?_⟩ <;> decide +kernel

theorem witness_ReservedDownAndForeignBlocks :
    (let s : State := st21 0;
    let r : Req := Req.host 0 0;
    let off : Fin 268435456 := 20971520;
    let o : Nat := off.val;
    (∀ (q : HostIx) (f : FnIx), r = Req.host q f → f.val = 0) ∧
      o % 4 = 0 ∧
        s.reqLive r = true ∧
          inEngine o = true ∧ s.mayRead r o = true ∧ SMap.find? s.latches o = none ∧ s.engineUp (engineOf o) = false) ∧
    (let s : State := st21 0;
    let r : Req := Req.host 0 0;
    let off : Fin 268435456 := 16785412;
    let o : Nat := off.val;
    (∀ (q : HostIx) (f : FnIx), r = Req.host q f → f.val = 0) ∧
      o % 4 = 0 ∧
        s.reqLive r = true ∧
          inEngine o = true ∧ s.mayRead r o = true ∧ SMap.find? s.latches o = none ∧ s.engineUp (engineOf o) = true) ∧
    (let s : State := st21 0;
    let r : Req := Req.host 0 0;
    let off : Fin 268435456 := 10485760;
    let o : Nat := off.val;
    (∀ (q : HostIx) (f : FnIx), r = Req.host q f → f.val = 0) ∧
      o % 4 = 0 ∧
        s.reqLive r = true ∧
          (10485760 ≤ o ∧ o < 16777216 ∨ 218103808 ≤ o) ∧
            r ≠ Req.service ∧ SMap.find? s.latches o = none ∧ SMap.find? s.regs o = none) ∧
    (let s : State := st21 0;
    let r : Req := Req.host 0 0;
    let off : Fin 268435456 := 20971520;
    let o : Nat := off.val;
    (∀ (q : HostIx) (f : FnIx), r = Req.host q f → f.val = 0) ∧
      o % 4 = 0 ∧
        s.reqLive r = true ∧
          inEngine o = true ∧
            s.mayWrite r o = true ∧
              (s.engineUp (engineOf o) = false ∨ (s.eng (engineOf o)).contained = true) ∧
                s.capture.length < 4032 ∧
                  let a : Nat := 16777216;
                  inEngine a = true) := by
  refine ⟨?_, ?_, ?_, ?_⟩ <;> decide +kernel

/-! ### The machine as a whole -/

/-- The panel with a command at the front of its queue. -/
def waitingPanel : State := { panel with pending := [.positionUp 0, .flitReplay 0 0] }

theorem witness_StepTakesFrontCommand : waitingPanel.pending = .positionUp 0 :: [.flitReplay 0 0] := rfl

theorem witness_IdleStepIsOneTick : panel.pending = [] := rfl

theorem witness_StepKeepsStoresCanonical : (Memory.wf panel.hbm = true ∧ Memory.wf panel.mbox = true) ∧ step panel = .next panel.tick := by
  exact ⟨by decide +kernel, rfl⟩

theorem witness_ChangeRecordOnlyGrows : step panel = .next panel.tick := rfl

theorem witness_GroundImageChangesOnlyAtBringUp :
    (∀ x, Instr.adoptionBroadcast ≠ .groundVerify x) ∧ (∀ m a b d x, Instr.adoptionBroadcast ≠ .fullResetApply m a b d x) ∧
      Instr.adoptionBroadcast ≠ .aux3v3Loss ∧ ∃ t, exec .adoptionBroadcast panel = .next t :=
  ⟨nofun, nofun, nofun, _, rfl⟩

/-! ### Worked examples of the spec -/

/-- The ASCII bytes of "123456789". -/
def digits : List Byte := [0x31, 0x32, 0x33, 0x34, 0x35, 0x36, 0x37, 0x38, 0x39]

/-- 08_engine_hub R214: the check value of the block code. -/
theorem test_block_code : crc64 digits = 0x62EC59E3F1A4F00A := by decide +kernel

/-- 14_links_pairs_chains R367: the check value of the packet code. -/
theorem test_packet_code : crc32c digits = 0xE3069283 := by decide +kernel

/-- 08_engine_hub, the worked example of R210: spread block 1,193,046 under LIMIT 1,020. -/
theorem test_spread_example : spreadPlace 1020 1193046 = (2 * 8 + 1, 8368267) ∧ spreadW 1020 = 8388608 := by decide +kernel

/-- 02_number_formats, the worked conversion of 0x3E99_999A. -/
theorem test_conversions :
    [(Fmt.fp16, 0x34CD), (.bf16, 0x3E9A), (.e4m3, 0x2A), (.e5m2, 0x35), (.e3m2, 0x05), (.e2m1, 0x1), (.int8, 0)].all fun x =>
      (convert .fp32 x.1 0 0#64 0x3E99999A).bits == x.2 &&
        (convert .fp32 x.1 0 0#64 0x3E99999A).flags == (if x.1 = .e2m1 then Flags.inexact ||| Flags.underflow else Flags.inexact) := by
  decide +kernel

/-- 02_number_formats R41, the worked MXFP4 block: 7.9, -2.6, 0.7 and 0.2 as FP32 values. -/
theorem test_mx_block :
    let q := mxQuantise .e2m1 0 ((([0x40FCCCCD, 0xC0266666, 0x3F333333, 0x3E4CCCCD] ++ List.replicate 28 0).map (decodeVal .fp32))) (List.replicate 32 0#64)
    q.scale = 0x7F ∧ q.codes.take 4 = [0x7, 0xD, 0x1, 0x0] ∧ q.flags = Flags.overflowClamp ||| Flags.inexact ||| Flags.underflow ∧
      (packCodes .e2m1 q.codes).take 1 = [0xD7] := by
  decide +kernel

/-- 02_number_formats R43: 1 + 2^-4 + 2^-30 rounds directly to 0x39. -/
theorem test_single_rounding : (roundFin .e4m3 0 0#64 false (2 ^ 30 + 2 ^ 26 + 1) (-30)).bits = 0x39 := by decide +kernel

/-- 03_exact_accumulation, the long sum: 2^24, and 4,096 times 0.5 as 256 carry-form images of 16 of them (R70), its own image and its FP32 output. -/
theorem test_long_sum :
    let part := (List.replicate 16 (Prod1.fin false 1 (-1))).foldl (fun a p => (Acc.addGroup .plain 0 a [p]).1) Acc.clear
    let a := (List.replicate 256 part.image).foldl (fun a x => (Acc.merge .plain a x).1) (Acc.addGroup .plain 0 Acc.clear [.fin false 1 24]).1
    a.image = 0x3CE00000000004002000000000000000 ∧ (roundVal .fp32 0 0#64 a.outVal).bits = 0x4B800400 ∧ (roundVal .fp32 0 0#64 a.outVal).flags = Flags.none := by
  decide +kernel

/-- 03_exact_accumulation, the cancellation: 448², 2^-18 and -448². -/
theorem test_cancellation :
    let p := fun a b => product ⟨decodeVal .e4m3 a, false⟩ ⟨decodeVal .e4m3 b, false⟩
    let a := [p 0x7E 0x7E, p 0x01 0x01, p 0xFE 0x7E].foldl (fun a p => (Acc.addGroup .plain 0 a [p]).1) Acc.clear
    a.v = 2 ^ 32 ∧ (roundVal .fp16 0 0#64 a.outVal).bits = 0x0040 ∧ (roundVal .fp16 0 0#64 a.outVal).flags = Flags.none := by
  decide +kernel

/-- 03_exact_accumulation, the span of block scales beyond 48. -/
theorem test_block_scale_span :
    let a := (Acc.addGroup .mx 8 Acc.clear [.fin false 36 10]).1
    let b := (Acc.addGroup .mx (-122) a [.fin false 1 (-122)]).1
    (a.v = 144 ∧ a.l = 8 ∧ a.windowed = false) ∧ (b.windowed = true ∧ b.l = -99 ∧ b.sticky = true) ∧
      (roundVal .fp32 0 0#64 b.outVal).bits = 0x47100000 ∧ (roundVal .fp32 2 0#64 b.outVal).bits = 0x47100001 ∧
      (roundVal .fp32 0 0#64 b.outVal).flags = Flags.inexact := by
  decide +kernel

/-- 03_exact_accumulation R74, two partials combined by a hub, and the final output to BF16 upwards. -/
theorem test_split_step :
    let r := splitCombine [splitWord 0x3F800000 0x30800000, splitWord 0x33000000 0x24000000]
    r.word = splitWord 0x3F800000 0x33040001 ∧ (splitConvert .bf16 2 0#64 r.word).bits = 0x3F81 := by
  decide +kernel

/-- 04_cell R81, the worked mapping: bad cells (5, 3), (5, 20) and (12, 0). -/
theorem test_cell_mapping :
    let bad := [(5, 3), (5, 20), (12, 0)]
    (List.range 27).all (fun r => physOf bad 5 r == if r < 3 then (5, r) else if r < 19 then (5, r + 1) else if r < 26 then (5, r + 2) else (4, 27)) = true ∧
      (List.range 27).all (fun r => physOf bad 12 r == (12, r + 1)) = true ∧ (borrowed bad).length = 1 := by
  decide +kernel

/-- 19_cooling R498, the worked count: reversals at 40, 95, 55, 90 and 35 degrees. -/
theorem test_thermal_cycles :
    let push := fun (a : List Nat × List (Nat × Nat)) t => rainflow 5 (t :: a.1) a.2
    [40, 95, 55, 90, 35].foldl push ([], []) = ([35, 95], [(35, 2), (55, 1)]) ∧ cycleBin 35 = some 1 ∧ cycleBin 55 = some 2 := by
  decide +kernel

/-! ### Ill-formed commands -/

theorem test_illformed_remoteWrite : (Instr.remoteWrite 0 .hub 0 0 []).wf = false := by decide
theorem test_illformed_partialWriteHold : (Instr.partialWriteHold 0 0 0 4095 [1, 2]).wf = false := by decide
theorem test_illformed_dmaCopy : (Instr.dmaCopy 0 0 0 0 (List.replicate 4097 0)).wf = false := by decide +kernel
theorem test_illformed_streamReadEntry : (Instr.streamReadEntry 0 0 0 (List.replicate 65 0)).wf = false := by decide
theorem test_illformed_pagedScatter : (Instr.pagedScatter 0 0 0 0 (List.replicate 4097 0)).wf = false := by decide +kernel
theorem test_illformed_apertureAccess : (Instr.apertureAccess 0 0 0 4 (some [])).wf = false := by decide
theorem test_illformed_hostMemRequest : (Instr.hostMemRequest 0 0 0 0 (List.replicate 4097 0)).wf = false := by decide +kernel
theorem test_illformed_cmdFetch : (Instr.cmdFetch 0 0 true [1]).wf = false := by decide
theorem test_illformed_feedData : (Instr.feedData 0 0 0 2047 [1, 2] true).wf = false := by decide
theorem test_illformed_linkPacketRx : (Instr.linkPacketRx 0 0 false [1]).wf = false := by decide
theorem test_illformed_skLinkUp : (Instr.skLinkUp (.guest 0 true) [(0, 0), (0, 0)] (Vector.replicate 32 0)).wf = false := by decide
theorem test_illformed_guestPacket : (Instr.guestPacket 0 true [1]).wf = false := by decide
theorem test_illformed_guestWindowRequest : (Instr.guestWindowRequest 0 0 0 4 (some [])).wf = false := by decide
theorem test_illformed_inputSample : (Instr.inputSample 0 0 [] (Vector.replicate 9 0) 0).wf = false := by decide
theorem test_illformed_imgChunk : (Instr.imgChunk (.port 0) 0 .run 0 (List.replicate 4073 0)).wf = false := by decide +kernel
theorem test_illformed_mgmtFrame : (Instr.mgmtFrame [1] .run).wf = false := by decide

theorem test_wellformed_remoteWrite : (Instr.remoteWrite 0 .hub 0 0 [1, 2, 3, 4, 5, 6, 7, 8]).wf = true := by decide

end Sys2Proof.Tests
end

section
/-! Frames by part: they compose, and an update of one part keeps every frame that names it. -/
namespace Sys2Proof.Safety
open Sys2Proof.Machine

theorem Same.trans {s t u : State} {p : Part} (h : Same s t p) (g : Same t u p) : Same s u p := by
  cases p <;> exact Eq.trans g h

theorem Only.refl (ps : List Part) (s : State) : Only ps s s := by
  intro p _
  cases p <;> rfl

theorem Only.trans {ps : List Part} {s t u : State} (h : Only ps s t) (g : Only ps t u) : Only ps s u :=
  fun p hp => (h p hp).trans (g p hp)

end Sys2Proof.Safety

namespace Sys2Proof.Machine
open Sys2Proof.Safety

theorem State.wr_only {ps : List Part} (s : State) (a v : Nat) (h : .regs ∈ ps) : Only ps s (s.wr a v) := by
  intro p hp
  cases p with
  | regs => exact absurd h hp
  | _ => rfl

theorem State.capture_only {ps : List Part} (s : State) (l : List CapEntry) (h : .capture ∈ ps) : Only ps s { s with capture := l } := by
  intro p hp
  cases p with
  | capture => exact absurd h hp
  | _ => rfl

theorem State.capPush_only (s : State) (x : CapEntry) : Only [.capture, .regs] s (s.capPush x) :=
  (s.capture_only _ (by simp)).trans (State.wr_only _ _ _ (by simp))

end Sys2Proof.Machine
end

section
/-! How a register access reaches the control space: its place, the gate of a write, and the read with its latch (00_scope R12, R13; 13_host_ports
R333, R334). -/
namespace Sys2Proof.Machine
open Sys2Proof.Safety

/-! ### Addresses -/

/-- An address in one of the two ranges in which no block stands (R10, R12); `execRegisterWrite` reaches those below the doorbell pages. -/
def Reserved (a : Nat) : Prop := (0xA00000 ≤ a ∧ a < 0x1000000) ∨ 0xD000000 ≤ a

theorem Reserved.ge {a : Nat} (h : Reserved a) : 0xA00000 ≤ a := by
  unfold Reserved at h; omega

theorem inEngine_eq_true_iff {a : Nat} : inEngine a = true ↔ 0x1000000 ≤ a ∧ a < 0xD000000 := by simp [inEngine]

theorem Reserved.not_inEngine {a : Nat} (h : Reserved a) : inEngine a = false := by
  rw [← Bool.not_eq_true, inEngine_eq_true_iff]
  unfold Reserved at h; omega

/-- A reserved address lies beyond the ten 1-MiB blocks of R11. -/
theorem Reserved.block {a : Nat} (h : Reserved a) : ∃ k, a / 0x100000 = k + 10 :=
  ⟨a / 0x100000 - 10, by have := h.ge; omega⟩

theorem Reserved.not_protected {a : Nat} (h : Reserved a) : protectedReg a = false := by
  obtain ⟨k, hk⟩ := h.block
  simp [protectedReg, h.not_inEngine, hk]

theorem Reserved.regFields_eq_nil {a : Nat} (h : Reserved a) (hb : a < 0x10000000) : regFields a = [] := by
  have hrows : blockRows a = ([], 0) := by
    obtain ⟨k, hk⟩ := h.block
    unfold blockRows
    rw [if_neg (by omega)]
    obtain h | h := h
    · rw [if_neg (by omega), if_neg (by omega), hk]
      rfl
    · rw [if_pos h]
  simp [regFields, hrows, findRow]

/-- R6, R12: nothing having been put at a reserved address, it reads 0. -/
theorem Reserved.rdN_eq_zero {s : State} {a : Nat} (h : Reserved a) (hb : a < 0x10000000) (hr : SMap.find? s.regs a = none) : s.rdN a = 0 := by
  simp [State.rdN, State.rd, SMap.getD, hr, regReset, h.regFields_eq_nil hb, resetOf]

theorem mailboxOf_eq_none_of_ge {a : Nat} (h : 0x130000 ≤ a) : mailboxOf a = none := by
  unfold mailboxOf
  rw [if_neg (by omega), if_neg (by omega)]

/-- The address of PT_CMD is the one at its offset in the engine's block (R10). -/
theorem ptCmd_engineOf {a : Nat} (hi : inEngine a = true) (ho : engOff a = 0x80028) : Reg.PT_CMD (engineOf a) = a := by
  rw [inEngine_eq_true_iff] at hi
  unfold Reg.PT_CMD engineOf
  unfold engOff at ho
  omega

/-! ### The gate of a write -/

/-- The state in which a write of value `v` to register `a` has left its entry in the capture FIFO, where the register is protected (20 R526). -/
def State.noted (s : State) (r : Req) (a v : Nat) : State :=
  if protectedReg a then s.capPush ⟨s.ticks, 1, (reqOrigin r).1, (reqOrigin r).2, 0, a, v, []⟩ else s

theorem State.noted_of_not_protected (s : State) (r : Req) {a : Nat} (v : Nat) (h : protectedReg a = false) : s.noted r a v = s := by
  simp [State.noted, h]

theorem State.noted_only (s : State) (r : Req) (a v : Nat) : Only [.capture, .regs] s (s.noted r a v) := by
  unfold State.noted
  split
  · exact s.capPush_only _
  · exact Only.refl _ s

/-- An entry of the capture FIFO shows in LOG_STAT and in no other register. -/
theorem State.rd_noted_ne (s : State) (r : Req) {a b : Nat} (v : Nat) (h : b ≠ Reg.LOG_STAT) : (s.noted r a v).rd b = s.rd b := by
  unfold State.noted
  split
  · exact State.rd_setFld_ne _ _ _ h
  · rfl

@[simp] theorem State.eng_noted (s : State) (r : Req) (a v e : Nat) : (s.noted r a v).eng e = s.eng e := by
  have h : (s.noted r a v).engines = s.engines := s.noted_only r a v .engines (by simp)
  simp [State.eng, h]

/-- R334: the gate discards a write that its requester may not make. -/
theorem State.gate_of_not_mayWrite {s : State} {r : Req} {a : Nat} (v : Nat) (hl : s.reqLive r = true) (hm : s.mayWrite r a = false) :
    s.gate r a v = (s.refuseWrite r a, false) := by
  simp [State.gate, State.gateAs, hl, hm]

/-- A write that its requester may make and that the capture FIFO has room for is noted; it is carried out but where its engine's block takes no
write (R13). -/
theorem State.gate_of_mayWrite {s : State} {r : Req} {a : Nat} (v : Nat) (hl : s.reqLive r = true) (hm : s.mayWrite r a = true)
    (hc : protectedReg a = true → s.capture.length < 4032) :
    s.gate r a v = (s.noted r a v, !(inEngine a && (!s.engineUp (engineOf a) || (s.eng (engineOf a)).contained))) := by
  have hroom : (protectedReg a && decide (4032 ≤ s.capture.length)) = false := by
    cases hp : protectedReg a
    · rfl
    · simpa using hc hp
  unfold State.gate State.gateAs
  rw [hroom]
  simp only [hl, hm, Bool.not_true, Bool.false_eq_true, if_false]
  change (if inEngine a && (!(s.noted r a v).engineUp (engineOf a) || ((s.noted r a v).eng (engineOf a)).contained)
    then (s.noted r a v, false) else (s.noted r a v, true)) = _
  simp only [State.engineUp, State.eng_noted]
  cases inEngine a && (!(s.eng (engineOf a)).up || (s.eng (engineOf a)).contained) <;> rfl

theorem State.gated_of_shut {s t : State} {r : Req} {a v : Nat} (f : State → State) (h : s.gate r a v = (t, false)) : s.gated r a v f = t := by
  simp [State.gated, h]

theorem State.gated_of_open {s t : State} {r : Req} {a v : Nat} (f : State → State) (h : s.gate r a v = (t, true)) : s.gated r a v f = f t := by
  simp [State.gated, h]

/-- R13: a write in the block of an engine that is down or contained is noted and not carried out. -/
theorem State.gate_of_deaf {s : State} {r : Req} {a : Nat} (v : Nat) (hl : s.reqLive r = true) (hm : s.mayWrite r a = true)
    (hc : s.capture.length < 4032) (hi : inEngine a = true) (hd : s.engineUp (engineOf a) = false ∨ (s.eng (engineOf a)).contained = true) :
    s.gate r a v = (s.noted r a v, false) := by
  rw [State.gate_of_mayWrite v hl hm fun _ => hc, hi]
  obtain h | h := hd <;> simp [h]

/-! ### Writes -/

/-- R12: what has passed the gate to a reserved address has no effect. -/
theorem State.coreWrite_reserved (s : State) (r : Req) {a : Nat} (v : Nat) (h : Reserved a) : s.coreWrite r a v = s := by
  obtain ⟨k, hk⟩ := h.block
  simp [State.coreWrite, h.not_inEngine, hk]

theorem State.regWrite_of_not_ptCmd (s : State) (r : Req) {a : Nat} (v : Nat) (h : ¬ (inEngine a = true ∧ engOff a = 0x80028)) :
    s.regWrite r a v = s.gated r a v fun s => s.coreWrite r a v := by
  rw [State.regWrite, if_neg h]

/-- R12: a write of a reserved address leaves the state, if its requester may make it or is refused without a record. -/
theorem State.regWrite_reserved {s : State} {r : Req} {a : Nat} (v : Nat) (h : Reserved a) (hl : s.reqLive r = true)
    (hr : s.mayWrite r a = true ∨ s.refuseWrite r a = s) : s.regWrite r a v = s := by
  rw [State.regWrite_of_not_ptCmd s r v (by simp [h.not_inEngine])]
  cases hm : s.mayWrite r a with
  | false => rw [State.gated_of_shut _ (State.gate_of_not_mayWrite v hl hm)]; simpa [hm] using hr
  | true =>
    have hg := State.gate_of_mayWrite v hl hm fun hp => absurd hp (by simp [h.not_protected])
    rw [h.not_inEngine, State.noted_of_not_protected s r v h.not_protected] at hg
    rw [State.gated_of_open _ hg, State.coreWrite_reserved s r v h]

/-- R13: a write in the block of an engine that is down or contained, PT_CMD among them, leaves its entry in the capture FIFO and nothing else. -/
theorem State.regWrite_of_deaf {s : State} {r : Req} {a : Nat} (v : Nat) (hl : s.reqLive r = true) (hm : s.mayWrite r a = true)
    (hc : s.capture.length < 4032) (hi : inEngine a = true) (hd : s.engineUp (engineOf a) = false ∨ (s.eng (engineOf a)).contained = true) :
    s.regWrite r a v = s.noted r a v := by
  have hg := State.gate_of_deaf v hl hm hc hi hd
  by_cases ho : engOff a = 0x80028
  · rw [State.regWrite, if_pos ⟨hi, ho⟩, State.ptCmdWrite, ptCmd_engineOf hi ho, if_pos (.inl hm), State.gated_of_shut _ hg]
  · rw [State.regWrite_of_not_ptCmd s r v fun h => ho h.2, State.gated_of_shut _ hg]

theorem State.ctlWrite_of_not_mailbox (s : State) (r : Req) {a : Nat} (v : Nat) (h : mailboxOf a = none) : s.ctlWrite r a v = s.regWrite r a v := by
  simp [State.ctlWrite, h]

/-- R329: every requester but a virtual function names the control space by its own offsets. -/
theorem State.place_bar0 (s : State) {r : Req} (o : Nat) (hpf : ∀ q f, r = .host q f → f.val = 0) : s.place r false o = .ctl o := by
  cases r with
  | host q f => simp [State.place, hpf q f rfl]
  | easel => rfl
  | service => rfl

/-- R8: an aligned 4-byte register write, by any requester but a virtual function, of a register outside the mailboxes. -/
theorem exec_registerWrite_word {s : State} {r : Req} {off : Fin 0x10000000} (v : Word64) (hpf : ∀ q f, r = .host q f → f.val = 0)
    (ha : off.val % 4 = 0) (hl : s.reqLive r = true) (hb : mailboxOf off.val = none) :
    exec (.registerWrite r false off 4 v) s = .next (s.regWrite r off.val (v.toNat % 2 ^ 32)) := by
  change execRegisterWrite r false off 4 v s = _
  simp [execRegisterWrite, hl, ha, State.place_bar0 s off.val hpf, State.placeWrite, State.ctlWrite_of_not_mailbox s r _ hb]

/-! ### Reads -/

theorem latchReg_eq_false_of_ge {a : Nat} (h : 0xA00000 ≤ a) : latchReg a = false := by
  have harr : arrIx a (Reg.CAD_ENG_COUNT 0 0) 0x40 48 = none := if_neg (by unfold Reg.CAD_ENG_COUNT; omega)
  have hne : ∀ b, b < 0xA00000 → (a == b) = false := fun b hb => beq_false_of_ne (by omega)
  simp [latchReg, harr, hne, Reg.CAD_MASTER, Reg.CAD_BEAT_LAST, Reg.SEC_SIG_INDEX, Reg.LOG_SEQ, Reg.LOG_UTC_AT]

/-- A read above the 1-MiB blocks that no earlier read has latched changes nothing and gives the value that the register shows. -/
theorem State.ctlRead_of_mayRead {s : State} {r : Req} {a : Nat} (ha : 0xA00000 ≤ a) (hm : s.mayRead r a = true)
    (hn : SMap.find? s.latches a = none) : s.ctlRead r a = (s, some (s.viewRead a)) := by
  simp [State.ctlRead, mailboxOf_eq_none_of_ge (show 0x130000 ≤ a by omega), hm, State.latchRead, hn, latchReg_eq_false_of_ge ha]

/-- R13: a read in an engine's block. -/
theorem State.viewRead_engine (s : State) {a : Nat} (h : inEngine a = true) :
    s.viewRead a = if s.engineUp (engineOf a) then s.engRead' (engineOf a) a else 0xFFFFFFFF := by
  rw [State.viewRead, if_pos h]

theorem State.viewRead_reserved (s : State) {a : Nat} (h : Reserved a) (hb : a < 0x10000000) : s.viewRead a = s.rdN a := by
  have hge := h.ge
  have hne : ∀ b, b < 0xA00000 → a ≠ b := fun b hb => by omega
  unfold State.viewRead
  rw [h.not_inEngine, if_neg Bool.false_ne_true, if_neg (hne _ (by decide)), if_neg (hne _ (by decide)), if_neg (hne _ (by decide)),
    if_neg (hne _ (by decide)), if_neg (by omega), if_neg (by omega), if_pos hb]

/-- R333: a physical function and Easel read every block. -/
theorem State.mayRead_of_pf (s : State) {r : Req} (a : Nat) (hpf : ∀ q f, r = .host q f → f.val = 0) (hr : r ≠ .service) : s.mayRead r a = true := by
  cases r with
  | host q f => simp [State.mayRead, hpf q f rfl]
  | easel => rfl
  | service => exact absurd rfl hr

/-- R333: no block of the panel owner's or of a partition's stands at a reserved address, so that a physical function's write there is none that
it may not make; the service role's is discarded without a record (R334). -/
theorem State.mayWrite_reserved (s : State) {r : Req} {a : Nat} (h : Reserved a) (hpf : ∀ q f, r = .host q f → f.val = 0) :
    s.mayWrite r a = true ∨ s.refuseWrite r a = s := by
  cases r with
  | host q f =>
    obtain ⟨k, hk⟩ := h.block
    exact .inl (by simp [State.mayWrite, h.not_inEngine, hk, hpf q f rfl])
  | easel => exact .inl rfl
  | service => exact .inr rfl

theorem State.refuseWrite_host (s : State) (q : HostIx) (f : FnIx) {a : Nat} (h : mailboxOf a = none) :
    s.refuseWrite (.host q f) a = s.werr q.val f.val 1 0xC (barOffset (.host q f) a) := by
  simp [State.refuseWrite, h]

/-- Settles O51: the gate of a write and the view of a read, each by the case of R12, R13 or R334 that the address and the requester fall under. -/
theorem reservedDownAndForeignBlocks : Obligations.ReservedDownAndForeignBlocks := by
  intro s r off v o hpf ha hl
  have hengine : inEngine o = true → 0xA00000 ≤ o := fun hi => by rw [inEngine_eq_true_iff] at hi; omega
  have hmb : 0xA00000 ≤ o → mailboxOf o = none := fun h => mailboxOf_eq_none_of_ge (by omega)
  refine ⟨fun (hres : Reserved o) => ?_, fun hi hm hd hc => ?_, fun hi hm hn => ?_, fun (hres : Reserved o) hr hn hregs => ?_,
    fun q f hq hm hb hpt => ?_⟩
  · rw [exec_registerWrite_word v hpf ha hl (hmb hres.ge), State.regWrite_reserved _ hres hl (s.mayWrite_reserved hres hpf)]
  · refine ⟨s.noted r o (v.toNat % 2 ^ 32), ?_, s.noted_only r o _, fun a hi' => s.rd_noted_ne r _ ?_⟩
    · rw [exec_registerWrite_word v hpf ha hl (hmb (hengine hi)), State.regWrite_of_deaf _ hl hm hc hi hd]
    · rw [inEngine_eq_true_iff] at hi'
      unfold Reg.LOG_STAT
      omega
  · rw [State.ctlRead_of_mayRead (hengine hi) hm hn, s.viewRead_engine hi]
    exact ⟨fun hdown => by simp [hdown], fun hup => by simp [hup]⟩
  · rw [State.ctlRead_of_mayRead hres.ge (s.mayRead_of_pf o hpf hr) hn, s.viewRead_reserved hres off.isLt, hres.rdN_eq_zero off.isLt hregs]
  · subst hq
    rw [exec_registerWrite_word v hpf ha hl hb, State.regWrite_of_not_ptCmd _ _ _ hpt,
      State.gated_of_shut _ (State.gate_of_not_mayWrite _ hl hm), State.refuseWrite_host _ _ _ hb]

end Sys2Proof.Machine
end

section
/-! Fields, sparse maps and frames: what a write of one field leaves of the others, what a command that has passed its gate starts from, and what
one change of the state leaves (00_scope R5; 13_host_ports R333; 20_easel R526). -/
namespace Sys2Proof.Machine
open Sys2Proof.Safety

/-! ### Fields of a register that has been written -/

/-- A field apart from the one that has been put stands as before. -/
theorem bits_putBits_of_disjoint {w hi lo v hi' lo' : Nat} (hl : lo ≤ hi) (h : hi' < lo ∨ hi < lo') :
    bits (putBits w hi lo v) hi' lo' = bits w hi' lo' := by
  refine Nat.eq_of_testBit_eq fun i => ?_
  unfold bits
  rw [Nat.testBit_mod_two_pow, Nat.testBit_mod_two_pow, Nat.testBit_shiftRight, Nat.testBit_shiftRight]
  by_cases hi : i < hi' + 1 - lo'
  · rw [testBit_putBits_ne hl (by omega)]
  · simp [hi]

theorem State.fld_setFld_of_disjoint (s : State) (a : Nat) {f g : Fld} (v : Nat) (hh : f.hi < 32) (hl : f.lo ≤ f.hi)
    (h : g.hi < f.lo ∨ f.hi < g.lo) : (s.setFld a f v).fld a g = s.fld a g := by
  unfold State.fld
  rw [State.rdN_setFld_same s a f v hh hl, bits_putBits_of_disjoint hl h]

theorem State.fld_congr {s t : State} {a : Nat} (h : t.rd a = s.rd a) (f : Fld) : t.fld a f = s.fld a f := by
  simp [State.fld, State.rdN, h]

/-- A one-bit field that has been put reads back. -/
theorem State.flag_setFlag_same (s : State) (a : Nat) (f : Fld) (b : Bool) (hh : f.hi < 32) (hl : f.lo = f.hi) :
    (s.setFlag a f b).flag a f = b := by
  unfold State.flag State.setFlag
  rw [State.fld_setFld_same s a f _ hh hl.le, hl, Nat.add_sub_cancel_left]
  cases b <;> rfl

theorem State.rd_setFlag_ne (s : State) {a b : Nat} (f : Fld) (x : Bool) (h : b ≠ a) : (s.setFlag a f x).rd b = s.rd b :=
  s.rd_setFld_ne f _ h

/-! ### Entries of a sparse map -/

theorem SMap.mem_of_find?_eq_some {α : Type} {m : SMap α} {k : Nat} {v : α} (h : SMap.find? m k = some v) : (k, v) ∈ m := by
  induction m with
  | nil => simp [SMap.find?] at h
  | cons p t ih =>
    obtain ⟨k', v'⟩ := p
    rw [SMap.find?] at h
    split at h
    · subst k'; simp_all
    · exact List.mem_cons_of_mem _ (ih h)

/-- A fold that puts `g k` at every listed key `k` that `hit` chooses. -/
theorem SMap.getD_foldl_set {α : Type} [DecidableEq α] (dflt : α) (hit : Nat → Bool) (g : Nat → α) {k : Nat} (hk : hit k = true)
    (l m : SMap α) :
    SMap.getD (l.foldl (fun m p => if hit p.1 then SMap.set dflt m p.1 (g p.1) else m) m) k dflt =
      if (SMap.find? l k).isSome then g k else SMap.getD m k dflt := by
  induction l generalizing m with
  | nil => rfl
  | cons p t ih =>
    obtain ⟨k', v⟩ := p
    rw [List.foldl_cons, ih, SMap.find?]
    by_cases h : k' = k
    · subst h; simp [hk]
    · rw [if_neg h]
      congr 1
      split
      · exact SMap.getD_set_ne _ _ _ _ (Ne.symm h)
      · rfl

/-! ### The cells of an engine -/

/-- What a change of every listed cell of an engine makes of a cell, where the change keeps the cell that stands for one not listed. -/
theorem State.cell_onCells (s : State) {e d c : Nat} {f : Cell → Cell} (hf : f { } = { }) (hd : d < 4) (hc : c < 1024) :
    (s.onCells e none f).cell e d c = f (s.cell e d c) := by
  have hhit : (decide (cellKey e d c / 4096 = e) && true) = true := by
    simp only [Bool.and_true, decide_eq_true_eq]
    unfold cellKey; omega
  have h := SMap.getD_foldl_set { } (fun k => decide (k / 4096 = e) && true) (fun k => f (SMap.getD s.cells k { })) hhit s.cells s.cells
  refine h.trans ?_
  split
  · rfl
  · rename_i hnone
    rw [Option.not_isSome_iff_eq_none] at hnone
    simp [State.cell, SMap.getD, hnone, hf]

/-! ### STATE of a canvas -/

theorem State.cvState_congr {s t : State} {e : Nat} (h : t.rd (Reg.ENG_CANVAS_STATUS e) = s.rd (Reg.ENG_CANVAS_STATUS e)) :
    t.cvState e = s.cvState e := State.fld_congr h _

@[simp] theorem State.cvState_setCvState_same (s : State) (e v : Nat) : (s.setCvState e v).cvState e = v % 16 :=
  s.fld_setFld_same _ Fld.ENG_CANVAS_STATUS.STATE v (by decide) (by decide)

end Sys2Proof.Machine

namespace Sys2Proof.Safety
open Sys2Proof.Machine

/-- A fold of steps that each change only some parts changes only those. -/
theorem Only.foldl {α : Type} {ps : List Part} (f : State → α → State) (hf : ∀ s a, Only ps s (f s a)) (l : List α) (s : State) :
    Only ps s (l.foldl f s) := by
  induction l generalizing s with
  | nil => exact Only.refl ps s
  | cons a t ih => exact (hf s a).trans (ih (f s a))

theorem Only.mono {ps qs : List Part} {s t : State} (h : Only ps s t) (hs : ps ⊆ qs) : Only qs s t :=
  fun p hp => h p fun hp' => hp (hs hp')

/-! ### What a write that passes its gate has met, and the state it acts in -/

section
variable {s : State} {r : Req} {a v : Nat}

theorem Passes.gate_eq (h : Passes s r a v) : s.gate r a v = (entered s r a v, true) := Prod.ext rfl h

/-- R333, R526: the requester's port is up, it may make the write, and the capture FIFO has room for the entry. -/
theorem Passes.admitted (h : Passes s r a v) :
    s.reqLive r = true ∧ s.mayWrite r a = true ∧ (protectedReg a = true → s.capture.length < 4032) := by
  unfold Passes State.gate State.gateAs at h
  cases hl : s.reqLive r
  · simp [hl] at h
  cases hm : s.mayWrite r a
  · simp [hl, hm] at h
  refine ⟨rfl, rfl, fun hp => ?_⟩
  by_contra hc
  simp [hl, hm, hp, not_lt.mp hc] at h

theorem Passes.entered_eq_noted (h : Passes s r a v) : entered s r a v = s.noted r a v := by
  obtain ⟨hl, hm, hc⟩ := h.admitted
  rw [entered, State.gate_of_mayWrite v hl hm hc]

theorem Passes.entered_only (h : Passes s r a v) : Only [.capture, .regs] s (entered s r a v) := by
  rw [h.entered_eq_noted]
  exact s.noted_only r a v

theorem Passes.entered_eng (h : Passes s r a v) (e : Nat) : (entered s r a v).eng e = s.eng e := by
  rw [h.entered_eq_noted, State.eng_noted]

/-- The cells and the stacks stand as before the write, where the command that it gives writes neither. -/
theorem Only.cells_hbm_of_entered {ps : List Part} {t : State} (h : Passes s r a v) (ht : Only ps (entered s r a v) t)
    (hc : .cells ∉ ps) (hm : .hbm ∉ ps) : t.cells = s.cells ∧ t.hbm = s.hbm :=
  ⟨Eq.trans (ht .cells hc) (h.entered_only .cells (by simp)), Eq.trans (ht .hbm hm) (h.entered_only .hbm (by simp))⟩

theorem Passes.entered_plan (h : Passes s r a v) (e : Nat) : (entered s r a v).plan e = s.plan e := by
  rw [State.plan, h.entered_eng, State.plan]

theorem Passes.entered_cell (h : Passes s r a v) (e d c : Nat) : (entered s r a v).cell e d c = s.cell e d c := by
  rw [State.cell, show (entered s r a v).cells = s.cells from h.entered_only .cells (by simp), State.cell]

end

/-! ### Registers that stand -/

theorem RegsBut.refl (as : List Nat) (s : State) : RegsBut as s s := fun _ _ => rfl

theorem RegsBut.trans {as : List Nat} {s t u : State} (h : RegsBut as s t) (g : RegsBut as t u) : RegsBut as s u :=
  fun a ha => (g a ha).trans (h a ha)

theorem RegsBut.mono {as bs : List Nat} {s t : State} (h : RegsBut as s t) (hs : as ⊆ bs) : RegsBut bs s t :=
  fun a ha => h a fun ha' => ha (hs ha')

/-- STATE stands where the register that shows it does. -/
theorem RegsBut.cvState {as : List Nat} {s t : State} {e : Nat} (h : RegsBut as s t) (ha : Reg.ENG_CANVAS_STATUS e ∉ as) :
    t.cvState e = s.cvState e := State.cvState_congr (h _ ha)

end Sys2Proof.Safety

namespace Sys2Proof.Machine
open Sys2Proof.Safety

/-! ### What one write, and one change of an engine, a die's fabric or the cells, leaves -/

theorem State.wr_regsBut {as : List Nat} (s : State) {a : Nat} (v : Nat) (h : a ∈ as) : RegsBut as s (s.wr a v) :=
  fun _ hb => s.rd_wr_ne v fun hab => hb (hab ▸ h)

theorem State.onEng_regsBut (as : List Nat) (s : State) (e : Nat) (f : Engine → Engine) : RegsBut as s (s.onEng e f) := fun _ _ => rfl

theorem State.onEng_only {ps : List Part} (s : State) (e : Nat) (f : Engine → Engine) (h : .engines ∈ ps) : Only ps s (s.onEng e f) := by
  intro p hp
  cases p with
  | engines => exact absurd h hp
  | _ => rfl

theorem State.setFab_only {ps : List Part} (s : State) (e d : Nat) (x : Fab) (h : .fabs ∈ ps) : Only ps s (s.setFab e d x) := by
  intro p hp
  cases p with
  | fabs => exact absurd h hp
  | _ => rfl

theorem State.onCells_only {ps : List Part} (s : State) (e : Nat) (d : Option Nat) (f : Cell → Cell) (h : .cells ∈ ps) :
    Only ps s (s.onCells e d f) := by
  intro p hp
  cases p with
  | cells => exact absurd h hp
  | _ => rfl

@[simp] theorem State.eng_setFlag (s : State) (a : Nat) (f : Fld) (b : Bool) (e : Nat) : (s.setFlag a f b).eng e = s.eng e := rfl
@[simp] theorem State.eng_setCvState (s : State) (e v x : Nat) : (s.setCvState e v).eng x = s.eng x := rfl
@[simp] theorem State.eng_setPos (s : State) (e step glaze left x : Nat) : (s.setPos e step glaze left).eng x = s.eng x := rfl
@[simp] theorem State.eng_planOff (s : State) (e x : Nat) : (s.planOff e).eng x = s.eng x := rfl

end Sys2Proof.Machine
end

section
/-! What the operations on a canvas do to STATE, to the engine and to the cells, and what they leave (06_canvases_glazes R156 to R165). -/
namespace Sys2Proof.Machine
open Sys2Proof.Safety

/-! ### The end of a plan, and the canvas forgotten (R164) -/

theorem State.planOff_regsBut (s : State) (e : Nat) : RegsBut [Reg.CAD_ENG_PHASE e, Reg.CAD_ENG_BUDGET e] s (s.planOff e) :=
  (s.wr_regsBut (a := Reg.CAD_ENG_PHASE e) _ (by simp)).trans (State.wr_regsBut _ _ (by simp))

theorem State.planOff_only {ps : List Part} (s : State) (e : Nat) (h : .regs ∈ ps) : Only ps s (s.planOff e) :=
  (s.wr_only (Reg.CAD_ENG_PHASE e) _ h).trans (State.wr_only _ _ _ h)

/-- The registers that show a canvas, its place in its sequence and its plan. -/
def canvasRegs (e : Nat) : List Nat :=
  [Reg.ENG_CANVAS_ID e 0, Reg.ENG_CANVAS_ID e 1, Reg.ENG_CANVAS_POS e, Reg.CAD_ENG_PHASE e, Reg.CAD_ENG_BUDGET e]

theorem status_not_mem_canvasRegs (e : Nat) : Reg.ENG_CANVAS_STATUS e ∉ canvasRegs e := by
  simp only [canvasRegs, List.mem_cons, List.not_mem_nil, or_false, Reg.ENG_CANVAS_STATUS, Reg.ENG_CANVAS_ID, Reg.ENG_CANVAS_POS,
    Reg.CAD_ENG_PHASE, Reg.CAD_ENG_BUDGET]
  omega

theorem State.dropCanvas_regsBut (s : State) (e : Nat) : RegsBut (canvasRegs e) s (s.dropCanvas e) :=
  ((((s.onEng_regsBut _ e _).trans (State.wr_regsBut _ _ (by simp [canvasRegs]))).trans (State.wr_regsBut _ _ (by simp [canvasRegs]))).trans
    (State.wr_regsBut _ _ (by simp [canvasRegs]))).trans ((State.planOff_regsBut _ e).mono (by simp [canvasRegs]))

theorem State.dropCanvas_only (s : State) (e : Nat) : Only [.regs, .engines] s (s.dropCanvas e) :=
  ((((s.onEng_only e _ (by simp)).trans (State.wr_only _ _ _ (by simp))).trans (State.wr_only _ _ _ (by simp))).trans
    (State.wr_only _ _ _ (by simp))).trans (State.planOff_only _ e (by simp))

@[simp] theorem State.eng_dropCanvas_same (s : State) (e : Nat) :
    (s.dropCanvas e).eng e = { s.eng e with canvas := { }, sched := { }, streams := [] } := by
  simp [State.dropCanvas]

/-! ### LOAD (R161, R164) -/

theorem State.vsSnap_only (s : State) (e : Nat) (load : Bool) : Only [.regs, .engines] s (s.vsSnap e load) := by
  unfold State.vsSnap
  split
  · exact State.wr_only _ _ _ (by simp)
  · exact (s.onEng_only e _ (by simp)).trans (State.wr_only _ _ _ (by simp))

/-- A die of the engine keeps nothing of its fabric but whether a reset holds it. -/
def State.fabEmptied (s : State) (e d : Nat) : State := s.setFab e d { held := (s.fab e d).held }

/-- Every die of the engine's fabric is emptied. -/
def State.fabsEmptied (s : State) (e : Nat) : State := (List.range 4).foldl (fun s d => s.fabEmptied e d) s

theorem State.fabsEmptied_eq (s : State) (e : Nat) :
    s.fabsEmptied e = (((s.fabEmptied e 0).fabEmptied e 1).fabEmptied e 2).fabEmptied e 3 := rfl

theorem State.fab_fabEmptied (s : State) (e d d' : Nat) :
    (s.fabEmptied e d).fab e d' = if d' = d then { held := (s.fab e d).held } else s.fab e d' := by
  unfold State.fabEmptied
  split
  · subst d'; exact s.fab_setFab_same e d _
  · exact s.fab_setFab_ne _ (by omega)

theorem State.fab_fabsEmptied (s : State) (e : Nat) {d : Nat} (hd : d < 4) : (s.fabsEmptied e).fab e d = { held := (s.fab e d).held } := by
  rw [State.fabsEmptied_eq]
  interval_cases d <;> simp [State.fab_fabEmptied]

theorem State.fabsEmptied_only {ps : List Part} (s : State) (e : Nat) (h : .fabs ∈ ps) : Only ps s (s.fabsEmptied e) := by
  rw [State.fabsEmptied_eq]
  exact (((State.setFab_only s e 0 _ h).trans (State.setFab_only _ e 1 _ h)).trans (State.setFab_only _ e 2 _ h)).trans
    (State.setFab_only _ e 3 _ h)

@[simp] theorem State.eng_fabEmptied (s : State) (e d x : Nat) : (s.fabEmptied e d).eng x = s.eng x := rfl
@[simp] theorem State.rd_fabEmptied (s : State) (e d a : Nat) : (s.fabEmptied e d).rd a = s.rd a := rfl
@[simp] theorem State.eng_fabsEmptied (s : State) (e x : Nat) : (s.fabsEmptied e).eng x = s.eng x := by simp [State.fabsEmptied_eq]
@[simp] theorem State.rd_fabsEmptied (s : State) (e a : Nat) : (s.fabsEmptied e).rd a = s.rd a := by simp [State.fabsEmptied_eq]

/-- The parity counts of an engine's cells start again. -/
def State.parityCleared (s : State) (e : Nat) : State := { s with cellParity := SMap.eraseRange s.cellParity (cellKey e 0 0) 4096 }

@[simp] theorem State.eng_parityCleared (s : State) (e x : Nat) : (s.parityCleared e).eng x = s.eng x := rfl
@[simp] theorem State.rd_parityCleared (s : State) (e a : Nat) : (s.parityCleared e).rd a = s.rd a := rfl
@[simp] theorem State.fab_parityCleared (s : State) (e x d : Nat) : (s.parityCleared e).fab x d = s.fab x d := rfl

theorem State.parityCleared_only {ps : List Part} (s : State) (e : Nat) (h : .cellParity ∈ ps) : Only ps s (s.parityCleared e) := by
  intro p hp
  cases p with
  | cellParity => exact absurd h hp
  | _ => rfl

/-- What the t0 of a load leaves in ENG_CANVAS_STATUS. -/
def State.loadShown (s : State) (e : Nat) : State :=
  (((s.vsSnap e true).dropCanvas e).setCvState e Cv.LOADING).setFld (Reg.ENG_CANVAS_STATUS e) Fld.ENG_CANVAS_STATUS.CODE 0

/-- What the t0 of a load makes of its engine: a fresh canvas, no entry left in the hub, no stream studied. -/
def State.loadHeld (s : State) (e : Nat) (standby : Bool) (g : Engine) : Engine :=
  { g with
    canvas := { standby := standby, loadAddr := s.canvasAddr e, loadStart := s.now }
    hubIn := [], study := { g.study with streams := [] } }

theorem State.loadStart_eq (s : State) (e : Nat) (standby : Bool) :
    s.loadStart e standby = (((s.loadShown e).onEng e (s.loadHeld e standby)).fabsEmptied e).parityCleared e := rfl

theorem State.loadShown_only (s : State) (e : Nat) : Only [.regs, .engines] s (s.loadShown e) :=
  (((s.vsSnap_only e true).trans (State.dropCanvas_only _ e)).trans (State.wr_only _ _ _ (by simp))).trans (State.wr_only _ _ _ (by simp))

theorem State.loadStart_only (s : State) (e : Nat) (standby : Bool) :
    Only [.regs, .engines, .fabs, .cellParity] s (s.loadStart e standby) := by
  rw [State.loadStart_eq]
  exact ((((s.loadShown_only e).mono (by simp)).trans (State.onEng_only _ e _ (by simp))).trans (State.fabsEmptied_only _ e (by simp))).trans
    (State.parityCleared_only _ e (by simp))

theorem State.eng_loadStart_same (s : State) (e : Nat) (standby : Bool) :
    (s.loadStart e standby).eng e = s.loadHeld e standby ((s.loadShown e).eng e) := by
  simp [State.loadStart_eq]

theorem State.fab_loadStart (s : State) (e : Nat) (standby : Bool) {d : Nat} (hd : d < 4) :
    (s.loadStart e standby).fab e d = { held := (((s.loadShown e).onEng e (s.loadHeld e standby)).fab e d).held } := by
  rw [State.loadStart_eq, State.fab_parityCleared, State.fab_fabsEmptied _ e hd]

theorem State.fld_loadStart (s : State) (e : Nat) (standby : Bool) (a : Nat) (f : Fld) :
    (s.loadStart e standby).fld a f = (s.loadShown e).fld a f :=
  State.fld_congr (by simp [State.loadStart_eq]) f

theorem State.cvState_loadStart (s : State) (e : Nat) (standby : Bool) : (s.loadStart e standby).cvState e = Cv.LOADING := by
  rw [State.cvState, State.fld_loadStart, State.loadShown, State.fld_setFld_of_disjoint _ _ _ (by decide) (by decide) (by decide)]
  exact State.cvState_setCvState_same _ e Cv.LOADING

theorem State.code_loadStart (s : State) (e : Nat) (standby : Bool) :
    (s.loadStart e standby).fld (Reg.ENG_CANVAS_STATUS e) Fld.ENG_CANVAS_STATUS.CODE = 0 := by
  rw [State.fld_loadStart, State.loadShown, State.fld_setFld_same _ _ _ _ (by decide) (by decide), Nat.zero_mod]

/-! ### START (R158, R165) -/

/-- The sequence of a canvas without a period plan begins at step 0. -/
theorem State.beginSeq_eq (s : State) (e : Nat) :
    s.beginSeq e = ((s.setPos e 0 ((s.eng e).canvas.step 0).1 (((s.eng e).canvas.step 0).2 - 1)).cellsToStart e).onEng e fun x =>
      { x with canvas := { x.canvas with running := true, waitPeriod := false, switchStuck := false } } := rfl

/-- STATE shows RUNNING, and no stream of the canvas has moved. -/
def State.runEntered (s : State) (e : Nat) : State := (s.setCvState e Cv.RUNNING).onEng e fun g => { g with streams := [] }

theorem State.plan_runEntered (s : State) (e : Nat) : (s.runEntered e).plan e = s.plan e := by
  simp [State.plan, State.runEntered]

theorem State.startSeq_of_plan {s : State} {e : Nat} (h : (s.plan e).isSome) : ∃ n, s.startSeq e = (s.runEntered e).awaitPeriod e n := by
  obtain ⟨x, hx⟩ := Option.isSome_iff_exists.mp h
  rw [← State.plan_runEntered, State.runEntered] at hx
  simp only [State.startSeq, hx]
  exact ⟨_, rfl⟩

theorem State.startSeq_of_no_plan {s : State} {e : Nat} (h : (s.plan e).isNone) : s.startSeq e = (s.runEntered e).beginSeq e := by
  rw [Option.isNone_iff_eq_none, ← State.plan_runEntered, State.runEntered] at h
  simp only [State.startSeq, h, State.runEntered]

theorem State.runEntered_only {ps : List Part} (s : State) (e : Nat) (hr : .regs ∈ ps) (he : .engines ∈ ps) : Only ps s (s.runEntered e) :=
  (s.wr_only _ _ hr).trans (State.onEng_only _ e _ he)

theorem State.awaitPeriod_only {ps : List Part} (s : State) (e n : Nat) (hr : .regs ∈ ps) (he : .engines ∈ ps) :
    Only ps s (s.awaitPeriod e n) :=
  ((s.onEng_only e _ he).trans (State.wr_only _ _ _ hr)).trans (State.wr_only _ _ _ hr)

theorem State.awaitPeriod_regsBut (s : State) (e n : Nat) : RegsBut (canvasRegs e) s (s.awaitPeriod e n) :=
  ((s.onEng_regsBut _ e _).trans (State.wr_regsBut _ _ (by simp [canvasRegs]))).trans (State.wr_regsBut _ _ (by simp [canvasRegs]))

theorem State.canvas_awaitPeriod (s : State) (e n : Nat) :
    ((s.awaitPeriod e n).eng e).canvas = { (s.eng e).canvas with running := false, waitPeriod := true } := by
  simp [State.awaitPeriod]

theorem State.beginSeq_only {ps : List Part} (s : State) (e : Nat) (hr : .regs ∈ ps) (hc : .cells ∈ ps) (he : .engines ∈ ps) :
    Only ps s (s.beginSeq e) := by
  rw [State.beginSeq_eq]
  exact ((s.wr_only _ _ hr).trans (State.onCells_only _ e none _ hc)).trans (State.onEng_only _ e _ he)

theorem State.rd_beginSeq (s : State) (e a : Nat) :
    (s.beginSeq e).rd a = (s.setPos e 0 ((s.eng e).canvas.step 0).1 (((s.eng e).canvas.step 0).2 - 1)).rd a := by
  rw [State.beginSeq_eq, State.rd_onEng]
  rfl

theorem State.beginSeq_regsBut (s : State) (e : Nat) : RegsBut (canvasRegs e) s (s.beginSeq e) := fun a ha => by
  rw [State.rd_beginSeq]
  exact s.rd_wr_ne _ fun h => ha (by simp [h, canvasRegs])

/-- R158: POS shows step 0, its glaze and the runs left after the first. -/
theorem State.pos_beginSeq (s : State) (e : Nat) :
    (s.beginSeq e).rdN (Reg.ENG_CANVAS_POS e) =
      ((((s.eng e).canvas.step 0).2 - 1) * 2 ^ 16 + ((s.eng e).canvas.step 0).1 * 2 ^ 8) % 2 ^ 32 := by
  rw [State.rdN, State.rd_beginSeq, State.setPos, State.rd_wr_same, BitVec.toNat_ofNat, Nat.add_zero]

theorem State.running_beginSeq (s : State) (e : Nat) : ((s.beginSeq e).eng e).canvas.running = true := by
  simp [State.beginSeq_eq]

/-- R156: every cell stands at slot 0. -/
theorem State.cell_beginSeq (s : State) {e d c : Nat} (hd : d < 4) (hc : c < 1024) :
    (s.beginSeq e).cell e d c = { s.cell e d c with slot := 0, iter := 0, ended := false, issue := none } := by
  rw [State.beginSeq_eq]
  exact State.cell_onCells (s.setPos e 0 _ _) (f := fun k => { k with slot := 0, iter := 0, ended := false, issue := none }) rfl hd hc

theorem State.cvState_runEntered (s : State) (e : Nat) : (s.runEntered e).cvState e = Cv.RUNNING :=
  s.cvState_setCvState_same e Cv.RUNNING

theorem State.startSeq_cases (s : State) (e : Nat) :
    (∃ n, s.startSeq e = (s.runEntered e).awaitPeriod e n) ∨ s.startSeq e = (s.runEntered e).beginSeq e := by
  cases hp : (s.plan e).isSome with
  | true => exact .inl (State.startSeq_of_plan hp)
  | false => exact .inr (State.startSeq_of_no_plan (by simpa using hp))

theorem State.cvState_startSeq (s : State) (e : Nat) : (s.startSeq e).cvState e = Cv.RUNNING := by
  have h : RegsBut (canvasRegs e) (s.runEntered e) (s.startSeq e) := by
    obtain ⟨n, hn⟩ | hn := s.startSeq_cases e
    · exact hn ▸ State.awaitPeriod_regsBut _ e n
    · exact hn ▸ State.beginSeq_regsBut _ e
  rw [h.cvState (status_not_mem_canvasRegs e), State.cvState_runEntered]

theorem State.startSeq_only (s : State) (e : Nat) : Only [.regs, .engines, .cells] s (s.startSeq e) := by
  refine (s.runEntered_only e (by simp) (by simp)).trans ?_
  obtain ⟨n, hn⟩ | hn := s.startSeq_cases e
  · exact hn ▸ State.awaitPeriod_only _ e n (by simp) (by simp)
  · exact hn ▸ State.beginSeq_only _ e (by simp) (by simp) (by simp)

/-! ### STOP and the end of the sequence (R157, R164) -/

theorem State.cvState_seqStop (s : State) (e : Nat) : (s.seqStop e).cvState e = Cv.DONE := by
  rw [State.seqStop, ((State.planOff_regsBut _ e).mono (by simp [canvasRegs])).cvState (status_not_mem_canvasRegs e)]
  exact s.cvState_setCvState_same e Cv.DONE

theorem State.seqStop_only {ps : List Part} (s : State) (e : Nat) (hr : .regs ∈ ps) (he : .engines ∈ ps) : Only ps s (s.seqStop e) :=
  ((s.wr_only _ _ hr).trans (State.onEng_only _ e _ he)).trans (State.planOff_only _ e hr)

theorem State.barArrive_regsBut (s : State) (e : Nat) : RegsBut [Reg.NET_BAR_STATUS e, Reg.NET_FAULT e] s (s.barArrive e) := by
  unfold State.barArrive
  dsimp only
  split
  · exact RegsBut.refl _ s
  · split
    · exact s.wr_regsBut _ (by simp)
    · split
      · exact s.wr_regsBut _ (by simp)
      · exact (s.wr_regsBut (a := Reg.NET_BAR_STATUS e) _ (by simp)).trans (State.wr_regsBut _ _ (by simp))

/-- R158, R295: that a sequence completes may be an arrival at the barrier, and STATE stands. -/
theorem State.cvState_seqComplete (s : State) (e : Nat) : (s.seqComplete e).cvState e = s.cvState e := by
  unfold State.seqComplete
  split
  · refine (s.barArrive_regsBut e).cvState ?_
    simp only [List.mem_cons, List.not_mem_nil, or_false, Reg.ENG_CANVAS_STATUS, Reg.NET_BAR_STATUS, Reg.NET_FAULT]
    omega
  · rfl

theorem State.cvState_raiseEvent (s : State) (e x kind aux info : Nat) : (s.raiseEvent x kind aux info).cvState e = s.cvState e := rfl

/-- R157: STOPPING ends at a glaze switch, whichever step it stands at. -/
theorem State.cvState_glazeSwitch_of_stopping {s : State} {e : Nat} (h : s.cvState e = Cv.STOPPING) : (s.glazeSwitch e).cvState e = Cv.DONE := by
  unfold State.glazeSwitch
  dsimp only
  rw [if_pos h]
  split
  · split
    · rw [State.cvState_raiseEvent, State.cvState_seqComplete, State.cvState_seqStop]
    · rw [State.cvState_seqComplete, State.cvState_seqStop]
  · exact State.cvState_seqStop _ e

/-! ### UNLOAD, and the standby's engines disarmed (R164, R167) -/

/-- Engine `x` stands disarmed: no standby holds a copy for it, and its register shows code 7. -/
def State.Disarmed (s : State) (x : Nat) : Prop :=
  SMap.find? s.armCopies x = none ∧ s.flag (Reg.ENG_STBY_ARM x) Fld.ENG_STBY_ARM.ARMED = false ∧
    s.fld (Reg.ENG_STBY_ARM x) Fld.ENG_STBY_ARM.ARM_CODE = 7

theorem State.Disarmed.congr {s t : State} {x : Nat} (h : s.Disarmed x) (hc : SMap.find? s.armCopies x = none → SMap.find? t.armCopies x = none)
    (hr : t.rd (Reg.ENG_STBY_ARM x) = s.rd (Reg.ENG_STBY_ARM x)) : t.Disarmed x := by
  obtain ⟨hcopy, harmed, hcode⟩ := h
  exact ⟨hc hcopy, by rwa [State.flag, State.fld_congr hr], by rwa [State.fld_congr hr]⟩

/-- What a disarmed engine's register shows. -/
def State.disarmShown (s : State) (e code : Nat) : State :=
  ((s.setFlag (Reg.ENG_STBY_ARM e) Fld.ENG_STBY_ARM.ARMED false).setFld (Reg.ENG_STBY_ARM e) Fld.ENG_STBY_ARM.ARM_CODE code).onEng e fun g =>
    { g with armAsk := false }

/-- The copy that a standby holds for the engine goes. -/
def State.copyDropped (s : State) (e : Nat) : State := { s with armCopies := SMap.erase s.armCopies e }

@[simp] theorem State.rd_copyDropped (s : State) (e a : Nat) : (s.copyDropped e).rd a = s.rd a := rfl
@[simp] theorem State.armCopies_copyDropped (s : State) (e : Nat) : (s.copyDropped e).armCopies = SMap.erase s.armCopies e := rfl
@[simp] theorem State.armCopies_disarmShown (s : State) (e code : Nat) : (s.disarmShown e code).armCopies = s.armCopies := by
  simp [State.disarmShown]

/-- A standby that holds a copy for the engine drops it, and with it what it has seen of the engine's commits. -/
theorem State.disarm_cases (s : State) (e code : Nat) :
    (∃ b f, s.disarm e code = ((s.disarmShown e code).copyDropped e).onEng b f) ∨
    (SMap.find? s.armCopies e = none ∧ s.disarm e code = s.disarmShown e code) := by
  unfold State.disarm
  dsimp only
  split
  · exact .inl ⟨_, _, rfl⟩
  · rename_i h
    exact .inr ⟨by simpa using h, rfl⟩

theorem State.rd_disarm (s : State) (e code a : Nat) : (s.disarm e code).rd a = (s.disarmShown e code).rd a := by
  obtain ⟨b, f, h⟩ | ⟨_, h⟩ := s.disarm_cases e code <;> simp [h]

theorem State.find?_armCopies_disarm (s : State) (e code x : Nat) :
    SMap.find? (s.disarm e code).armCopies x = if x = e then none else SMap.find? s.armCopies x := by
  obtain ⟨b, f, h⟩ | ⟨hnone, h⟩ := s.disarm_cases e code
  · rw [h]
    split
    · subst x; simp
    · rename_i hx; simp [SMap.find?_erase_ne _ hx]
  · rw [h, State.armCopies_disarmShown]
    split
    · subst x; exact hnone
    · rfl

theorem State.copyDropped_only {ps : List Part} (s : State) (e : Nat) (h : .armCopies ∈ ps) : Only ps s (s.copyDropped e) := by
  intro p hp
  cases p with
  | armCopies => exact absurd h hp
  | _ => rfl

theorem State.disarm_only (s : State) (e code : Nat) : Only [.regs, .engines, .armCopies] s (s.disarm e code) := by
  have hshown : Only [.regs, .engines, .armCopies] s (s.disarmShown e code) :=
    ((s.wr_only _ _ (by simp)).trans (State.wr_only _ _ _ (by simp))).trans (State.onEng_only _ e _ (by simp))
  obtain ⟨b, f, h⟩ | ⟨_, h⟩ := s.disarm_cases e code
  · rw [h]
    exact (hshown.trans (State.copyDropped_only _ e (by simp))).trans (State.onEng_only _ b f (by simp))
  · rwa [h]

theorem State.disarmed_disarm_same (s : State) (e : Nat) : (s.disarm e 7).Disarmed e := by
  have hfld : ∀ f, (s.disarm e 7).fld (Reg.ENG_STBY_ARM e) f =
      ((s.setFlag (Reg.ENG_STBY_ARM e) Fld.ENG_STBY_ARM.ARMED false).setFld (Reg.ENG_STBY_ARM e) Fld.ENG_STBY_ARM.ARM_CODE 7).fld
        (Reg.ENG_STBY_ARM e) f :=
    State.fld_congr (by rw [State.rd_disarm, State.disarmShown, State.rd_onEng])
  refine ⟨by simp [State.find?_armCopies_disarm], ?_, ?_⟩
  · rw [State.flag, hfld, State.fld_setFld_of_disjoint _ _ _ (by decide) (by decide) (by decide)]
    exact s.flag_setFlag_same _ Fld.ENG_STBY_ARM.ARMED false (by decide) rfl
  · rw [hfld, State.fld_setFld_same _ _ _ _ (by decide) (by decide)]
    rfl

theorem State.Disarmed.disarm {s : State} {x : Nat} (h : s.Disarmed x) (y : Nat) : (s.disarm y 7).Disarmed x := by
  by_cases hxy : x = y
  · subst hxy; exact s.disarmed_disarm_same x
  · have hreg : Reg.ENG_STBY_ARM x ≠ Reg.ENG_STBY_ARM y := by unfold Reg.ENG_STBY_ARM; omega
    refine h.congr (fun hc => by rw [State.find?_armCopies_disarm, if_neg hxy, hc]) ?_
    rw [State.rd_disarm, State.disarmShown, State.rd_onEng, State.rd_setFld_ne _ _ _ hreg, State.rd_setFlag_ne _ _ _ hreg]

/-- An engine that a list of arming copies names is disarmed once all that the list names have been. -/
theorem State.disarmed_foldl (l : SMap Nat) (s : State) {x : Nat} (h : s.Disarmed x ∨ ∃ p ∈ l, p.1 = x) :
    (l.foldl (fun s p => s.disarm p.1 7) s).Disarmed x := by
  induction l generalizing s with
  | nil => simpa using h
  | cons p t ih =>
    refine ih _ ?_
    obtain h | ⟨q, hq, rfl⟩ := h
    · exact .inl (h.disarm p.1)
    · obtain rfl | hq := List.mem_cons.mp hq
      · exact .inl (s.disarmed_disarm_same q.1)
      · exact .inr ⟨q, hq, rfl⟩

/-- R164: every engine that the standby covers is disarmed. -/
theorem State.disarmed_disarmAll {s : State} {b x : Nat} (h : SMap.find? s.armCopies x = some b) : (s.disarmAll b none).Disarmed x :=
  State.disarmed_foldl _ s (.inr ⟨(x, b), by simp [SMap.mem_of_find?_eq_some h], rfl⟩)

theorem State.disarmAll_only (s : State) (b : Nat) (but : Option Nat) : Only [.regs, .engines, .armCopies] s (s.disarmAll b but) := by
  have hstep : ∀ (s : State) (p : Nat × Nat), Only [.regs, .engines, .armCopies] s (s.disarm p.1 7) := fun s p => s.disarm_only p.1 7
  unfold State.disarmAll
  exact Only.foldl _ hstep _ s

/-- The canvas is forgotten and STATE shows EMPTY. -/
def State.emptied (s : State) (e : Nat) : State := (s.dropCanvas e).setCvState e Cv.EMPTY

theorem State.emptied_only (s : State) (e : Nat) : Only [.regs, .engines] s (s.emptied e) :=
  (s.dropCanvas_only e).trans (State.wr_only _ _ _ (by simp))

theorem State.cvState_emptied (s : State) (e : Nat) : (s.emptied e).cvState e = Cv.EMPTY := State.cvState_setCvState_same _ e Cv.EMPTY

theorem State.canvas_emptied (s : State) (e : Nat) : ((s.emptied e).eng e).canvas = { } := by simp [State.emptied]

theorem State.Disarmed.emptied {s : State} {x : Nat} (h : s.Disarmed x) (e : Nat) : (s.emptied e).Disarmed x := by
  refine h.congr (fun hc => ?_) ?_
  · rwa [show (s.emptied e).armCopies = s.armCopies from s.emptied_only e .armCopies (by simp)]
  · have hreg : Reg.ENG_STBY_ARM x ≠ Reg.ENG_CANVAS_STATUS e := by unfold Reg.ENG_STBY_ARM Reg.ENG_CANVAS_STATUS; omega
    have hdrop : Reg.ENG_STBY_ARM x ∉ canvasRegs e := by
      simp only [canvasRegs, List.mem_cons, List.not_mem_nil, or_false, Reg.ENG_STBY_ARM, Reg.ENG_CANVAS_ID, Reg.ENG_CANVAS_POS,
        Reg.CAD_ENG_PHASE, Reg.CAD_ENG_BUDGET]
      omega
    rw [State.emptied, State.setCvState, State.rd_setFld_ne _ _ _ hreg, s.dropCanvas_regsBut e _ hdrop]

end Sys2Proof.Machine
end

section
/-! The commands of ENG_CANVAS_CTRL: how a write reaches its command, and what the command does in each state (06_canvases_glazes R164). -/
namespace Sys2Proof.Machine
open Sys2Proof.Safety

/-! ### The commands of ENG_CANVAS_CTRL by the state they meet (R164) -/

theorem State.cmdStart_eq (s : State) (e : Nat) :
    s.cmdStart e = if s.cvState e ∈ [Cv.READY, Cv.DONE] then s.startSeq e else s.cmdRej e := by
  simp [State.cmdStart]

section
variable {s : State} {e : Nat}

theorem State.cmdStop_of_running (h : s.cvState e ∈ [Cv.RUNNING]) :
    s.cmdStop e = if (s.eng e).canvas.switchStuck then s.seqStop e else s.setCvState e Cv.STOPPING :=
  if_pos (List.mem_singleton.mp h)

theorem State.cmdStop_of_other (h : s.cvState e ∉ [Cv.RUNNING]) : s.cmdStop e = s.cmdRej e := if_neg fun h' => h (by simp [h'])

theorem State.cvState_cmdStop_of_running (h : s.cvState e ∈ [Cv.RUNNING]) :
    (s.cmdStop e).cvState e = if (s.eng e).canvas.switchStuck then Cv.DONE else Cv.STOPPING := by
  rw [State.cmdStop_of_running h]
  split
  · exact s.cvState_seqStop e
  · exact s.cvState_setCvState_same e Cv.STOPPING

theorem State.cmdStop_only_of_running (h : s.cvState e ∈ [Cv.RUNNING]) : Only [.regs, .engines] s (s.cmdStop e) := by
  rw [State.cmdStop_of_running h]
  split
  · exact s.seqStop_only e (by simp) (by simp)
  · exact s.wr_only _ _ (by simp)

theorem State.cmdUnload_of_empty (h : s.cvState e ∈ [Cv.EMPTY]) : s.cmdUnload e = s := by
  simp_all [State.cmdUnload]

/-- UNLOAD forgets the canvas of READY, DONE or STANDBY; of STANDBY, once the engines it covers have been disarmed. -/
theorem State.cmdUnload_of_held (h : s.cvState e ∈ [Cv.READY, Cv.DONE, Cv.STANDBY]) :
    ∃ u, s.cmdUnload e = u.emptied e ∧ Only [.regs, .engines, .armCopies] s u ∧
      (s.cvState e ∈ [Cv.STANDBY] → ∀ x, SMap.find? s.armCopies x = some e → u.Disarmed x) := by
  simp only [List.mem_cons, List.not_mem_nil, or_false] at h
  unfold State.cmdUnload
  dsimp only
  obtain h | h | h := h
  · exact ⟨s, by rw [h]; rfl, Only.refl _ s, fun hs => by rw [h] at hs; exact absurd hs (by decide)⟩
  · exact ⟨s, by rw [h]; rfl, Only.refl _ s, fun hs => by rw [h] at hs; exact absurd hs (by decide)⟩
  · exact ⟨s.disarmAll e none, by rw [h]; rfl, s.disarmAll_only e none, fun _ _ hx => State.disarmed_disarmAll hx⟩

theorem State.cmdUnload_of_other (h : s.cvState e ∉ [Cv.EMPTY, Cv.READY, Cv.DONE, Cv.STANDBY]) : s.cmdUnload e = s.cmdRej e := by
  simp only [List.mem_cons, List.not_mem_nil, or_false, not_or] at h
  obtain ⟨hempty, hready, hdone, hstandby⟩ := h
  simp [State.cmdUnload, hempty, hready, hdone, hstandby]

/-- A write of more than one command bit is refused whatever the state. -/
theorem State.opCanvasCtrl_of_many {v : Nat} (h : v % 16 ∉ [0, 1, 2, 4, 8]) : s.opCanvasCtrl e v = s.cmdRej e := by
  simp only [List.mem_cons, List.not_mem_nil, or_false, not_or] at h
  obtain ⟨h0, h1, h2, h4, h8⟩ := h
  unfold State.opCanvasCtrl
  split
  case h_6 => rfl
  all_goals contradiction

end

/-! ### A write of ENG_CANVAS_CTRL reaches its command -/

section
variable {s : State} {r : Req} {e : EngIx} {v : Nat}

theorem State.canvasCtrl_of_passes (h : Passes s r (Reg.ENG_CANVAS_CTRL e) v) :
    s.canvasCtrl r e v = (entered s r (Reg.ENG_CANVAS_CTRL e) v).opCanvasCtrl e v :=
  State.gated_of_open _ h.gate_eq

theorem exec_canvasLoad_of_passes (standby : Bool) (h : Passes s r (Reg.ENG_CANVAS_CTRL e) (if standby then 0x11 else 0x01)) :
    exec (if standby then Instr.canvasLoadStandby r e else Instr.canvasLoad r e) s =
      .next ((entered s r (Reg.ENG_CANVAS_CTRL e) (if standby then 0x11 else 0x01)).cmdLoad e standby) := by
  cases standby
  · exact congrArg Host.Outcome.next (State.canvasCtrl_of_passes h)
  · exact congrArg Host.Outcome.next (State.canvasCtrl_of_passes h)

theorem exec_canvasStart_of_passes (h : Passes s r (Reg.ENG_CANVAS_CTRL e) 2) :
    exec (.canvasStart r e) s = .next ((entered s r (Reg.ENG_CANVAS_CTRL e) 2).cmdStart e) :=
  congrArg Host.Outcome.next (State.canvasCtrl_of_passes h)

theorem exec_canvasStop_of_passes (h : Passes s r (Reg.ENG_CANVAS_CTRL e) 4) :
    exec (.canvasStop r e) s = .next ((entered s r (Reg.ENG_CANVAS_CTRL e) 4).cmdStop e) :=
  congrArg Host.Outcome.next (State.canvasCtrl_of_passes h)

theorem exec_canvasUnload_of_passes (h : Passes s r (Reg.ENG_CANVAS_CTRL e) 8) :
    exec (.canvasUnload r e) s = .next ((entered s r (Reg.ENG_CANVAS_CTRL e) 8).cmdUnload e) :=
  congrArg Host.Outcome.next (State.canvasCtrl_of_passes h)

/-- R5: a register write of ENG_CANVAS_CTRL acts as the command bits of its value say. -/
theorem State.regWrite_canvasCtrl (h : Passes s r (Reg.ENG_CANVAS_CTRL e) v) :
    s.regWrite r (Reg.ENG_CANVAS_CTRL e) v = (entered s r (Reg.ENG_CANVAS_CTRL e) v).opCanvasCtrl e v := by
  have he := e.isLt
  have hin : inEngine (Reg.ENG_CANVAS_CTRL e) = true := by
    rw [inEngine_eq_true_iff]; unfold Reg.ENG_CANVAS_CTRL; omega
  have hof : engineOf (Reg.ENG_CANVAS_CTRL e) = e := by unfold engineOf Reg.ENG_CANVAS_CTRL; omega
  have hoff : engOff (Reg.ENG_CANVAS_CTRL e) = 0x804 := by unfold engOff Reg.ENG_CANVAS_CTRL; omega
  rw [State.regWrite_of_not_ptCmd _ _ _ (by simp [hoff]), State.gated_of_open _ h.gate_eq]
  simp [State.coreWrite, hin, hof, State.engWrite', hoff, State.hubWrite]

end

/-! ### What a command answers -/

section
variable {s : State} {r : Req} {e : EngIx}

/-- R158, R165: what the start of the sequence makes of a state that a write has entered. -/
theorem startSeq_of_entered (h : Passes s r (Reg.ENG_CANVAS_CTRL e) 2) :
    let t := (entered s r (Reg.ENG_CANVAS_CTRL e) 2).startSeq e
    t.cvState e = Cv.RUNNING ∧ t.hbm = s.hbm ∧
      ((s.plan e).isNone → (t.eng e).canvas.running = true ∧
        t.rdN (Reg.ENG_CANVAS_POS e) = ((((s.eng e).canvas.step 0).2 - 1) * 2 ^ 16 + ((s.eng e).canvas.step 0).1 * 2 ^ 8) % 2 ^ 32 ∧
        ∀ d : DieIx, ∀ c : CellIx, t.cell e d c = { s.cell e d c with slot := 0, iter := 0, ended := false, issue := none }) ∧
      ((s.plan e).isSome → (t.eng e).canvas.running = false ∧ (t.eng e).canvas.waitPeriod = true ∧ t.cells = s.cells) := by
  intro t
  have hplan := h.entered_plan e
  have hhbm : t.hbm = s.hbm := Eq.trans (State.startSeq_only _ e .hbm (by simp)) (h.entered_only .hbm (by simp))
  refine ⟨State.cvState_startSeq _ e, hhbm, fun hn => ?_, fun hp => ?_⟩
  · rw [← hplan] at hn
    have hstep : ((entered s r (Reg.ENG_CANVAS_CTRL e) 2).runEntered e).eng e = { s.eng e with streams := [] } := by
      simp [State.runEntered, h.entered_eng]
    have ht : t = _ := State.startSeq_of_no_plan hn
    rw [ht]
    refine ⟨State.running_beginSeq _ e, ?_, fun d c => ?_⟩
    · rw [State.pos_beginSeq, hstep]
    · rw [State.cell_beginSeq _ d.isLt (by omega), ← h.entered_cell e d c]
      rfl
  · rw [← hplan] at hp
    obtain ⟨n, hn⟩ := State.startSeq_of_plan hp
    have ht : t = _ := hn
    have honly : Only [.regs, .engines] _ t := ht ▸ (State.runEntered_only _ e (by simp) (by simp)).trans
      (State.awaitPeriod_only _ e n (by simp) (by simp))
    have hcanvas := State.canvas_awaitPeriod ((entered s r (Reg.ENG_CANVAS_CTRL e) 2).runEntered e) e n
    rw [← ht] at hcanvas
    exact ⟨by rw [hcanvas], by rw [hcanvas], (Only.cells_hbm_of_entered h honly (by simp) (by simp)).1⟩

end

/-- Settles O11: each command, once it has passed its gate, acts by the state that it meets, and its effect is that operation's. -/
theorem canvasStartsStopsAndLoads : Obligations.CanvasStartsStopsAndLoads := by
  constructor
  · intro s r e standby v cmd a h
    have hexec : exec cmd s = .next (a.cmdLoad e standby) := exec_canvasLoad_of_passes standby h
    have heng := a.eng_loadStart_same e standby
    have hnow : a.now = s.now := h.entered_only .now (by simp)
    refine ⟨fun hs => ⟨_, hexec.trans (congrArg _ (if_pos hs)), a.cvState_loadStart e standby, a.code_loadStart e standby, ?_, ?_,
      fun d hd => ?_, Only.cells_hbm_of_entered h (a.loadStart_only e standby) (by simp) (by simp)⟩,
      fun hs => hexec.trans (congrArg _ (if_neg hs))⟩
    · rw [heng, ← hnow]; rfl
    · rw [heng]; rfl
    · simp [a.fab_loadStart e standby hd]
  · intro s r e ctrl at' refused
    refine ⟨fun h hs => ⟨_, ?_, startSeq_of_entered h⟩, fun h hs => ?_, fun h hs => ?_, fun h hs => ?_, fun h hs => ?_, fun h hs => ?_,
      fun h hs => ?_, fun off v hoff hpf h hv => ?_, fun hstop hrun hstuck hdel hend => ?_⟩
    · rw [exec_canvasStart_of_passes h, State.cmdStart_eq, if_pos hs]
    · rw [exec_canvasStart_of_passes h, State.cmdStart_eq, if_neg hs]; rfl
    · obtain ⟨hcells, hhbm⟩ := Only.cells_hbm_of_entered h (State.cmdStop_only_of_running hs) (by simp) (by simp)
      exact ⟨_, exec_canvasStop_of_passes h, hcells, hhbm, by rw [State.cvState_cmdStop_of_running hs, h.entered_eng]⟩
    · rw [exec_canvasStop_of_passes h, State.cmdStop_of_other hs]; rfl
    · obtain ⟨u, hu, honly, hdisarmed⟩ := State.cmdUnload_of_held hs
      obtain ⟨hcells, hhbm⟩ := Only.cells_hbm_of_entered h (honly.trans ((u.emptied_only e).mono (by simp))) (by simp) (by simp)
      have hcopies : (entered s r ctrl 8).armCopies = s.armCopies := h.entered_only .armCopies (by simp)
      refine ⟨u.emptied e, ?_, u.cvState_emptied e, u.canvas_emptied e, hcells, hhbm, fun hstandby x hx => ?_⟩
      · rw [exec_canvasUnload_of_passes h, hu]
      · exact (hdisarmed hstandby x (hcopies ▸ hx)).emptied e
    · rw [exec_canvasUnload_of_passes h, State.cmdUnload_of_empty hs]
    · rw [exec_canvasUnload_of_passes h, State.cmdUnload_of_other hs]; rfl
    · have hctrl : off.val = Reg.ENG_CANVAS_CTRL e := hoff
      have hge : 0x130000 ≤ off.val ∧ off.val % 4 = 0 := by rw [hctrl]; unfold Reg.ENG_CANVAS_CTRL; omega
      rw [exec_registerWrite_word v hpf hge.2 h.admitted.1 (mailboxOf_eq_none_of_ge hge.1), hctrl, State.regWrite_canvasCtrl h,
        State.opCanvasCtrl_of_many (by rwa [Nat.mod_mod_of_dvd _ (by norm_num)])]
      rfl
    · refine ⟨s.glazeSwitch e, ?_, State.cvState_glazeSwitch_of_stopping hstop⟩
      change execGlazeSwitch e s = _
      simp [execGlazeSwitch, hrun, hstuck, hdel, hend]

end Sys2Proof.Machine
end

section
/-! Where the hash places a spread block, and the way back from its place (08_engine_hub R206, R207, R209, R210). -/
namespace Sys2Proof.Machine

/-! ### The fold of the local block, and its XOR (R209) -/

theorem bits_eq_div_mod (w hi lo : Nat) : bits w hi lo = w / 2 ^ lo % 2 ^ (hi + 1 - lo) := by
  rw [bits, Nat.shiftRight_eq_div_pow]

/-- `fold5` in the form of R209: the XOR of five pieces of five bits. -/
theorem fold5_eq (x : Nat) :
    fold5 x = Nat.xor (Nat.xor (Nat.xor (Nat.xor (x % 32) (x / 2 ^ 5 % 32)) (x / 2 ^ 10 % 32)) (x / 2 ^ 15 % 32)) (x / 2 ^ 20 % 32) := by
  simp [fold5, bits_eq_div_mod]

theorem xor_lt_32 {a b : Nat} (ha : a < 32) (hb : b < 32) : Nat.xor a b < 32 :=
  Nat.xor_lt_two_pow (n := 5) ha hb

theorem fold5_lt (x : Nat) : fold5 x < 32 := by
  rw [fold5_eq]
  have hpiece (y : Nat) : y % 32 < 32 := Nat.mod_lt y (by norm_num)
  exact xor_lt_32 (xor_lt_32 (xor_lt_32 (xor_lt_32 (hpiece _) (hpiece _)) (hpiece _)) (hpiece _)) (hpiece _)

/-! ### A place and its block -/

/-- The number of a stack within its group is one of 32 (R209). -/
theorem spreadPlace_lane_lt (b : Nat) : Nat.xor (b / 3 % 32) (fold5 (b / 3 / 32)) < 32 :=
  xor_lt_32 (Nat.mod_lt _ (by norm_num)) (fold5_lt _)

theorem spreadPlace_stack_lt (limit b : Nat) : (spreadPlace limit b).1 < 96 := by
  have hlane := spreadPlace_lane_lt b
  have hgroup : b % 3 < 3 := Nat.mod_lt b (by norm_num)
  simp only [spreadPlace]
  omega

theorem le_spreadPlace_block (limit b : Nat) : limit * 8192 ≤ (spreadPlace limit b).2 :=
  Nat.le_add_right _ _

theorem spreadPlace_block_lt {limit b : Nat} (h : b < 96 * spreadW limit) : (spreadPlace limit b).2 < stackBlocks := by
  simp only [spreadPlace, spreadW, stackBlocks] at *
  omega

/-- Above the near part a stack and local block name one spread block: its group is the stack's, and the low five bits of its quotient are
those of the stack with the fold taken off again. -/
theorem blockAddr_of_spread {limit t j : Nat} (h : limit * 8192 ≤ j) :
    blockAddr limit t j =
      (3 * ((j - limit * 8192) * 32 + Nat.xor (t % 32) (fold5 (j - limit * 8192))) + t / 32) * 4096 :=
  if_neg (Nat.not_lt.mpr h)

theorem blockAddr_spreadPlace (limit b : Nat) :
    blockAddr limit (spreadPlace limit b).1 (spreadPlace limit b).2 = b * 4096 := by
  have hlane := spreadPlace_lane_lt b
  have hx : (spreadPlace limit b).2 - limit * 8192 = b / 3 / 32 := Nat.add_sub_cancel_left _ _
  have hmod : (spreadPlace limit b).1 % 32 = Nat.xor (b / 3 % 32) (fold5 (b / 3 / 32)) := by
    simp only [spreadPlace]; omega
  have hdiv : (spreadPlace limit b).1 / 32 = b % 3 := by
    simp only [spreadPlace]; omega
  have hoff : Nat.xor (Nat.xor (b / 3 % 32) (fold5 (b / 3 / 32))) (fold5 (b / 3 / 32)) = b / 3 % 32 :=
    Nat.xor_xor_cancel_right _ _
  rw [blockAddr_of_spread (le_spreadPlace_block limit b), hx, hmod, hdiv, hoff]
  omega

theorem State.target_of_spread {s : State} {a : Nat} (h : a < 96 * spreadW s.limit * 4096) :
    s.target a = .spread (spreadPlace s.limit (a / 4096)).1 (spreadPlace s.limit (a / 4096)).2 (a % 4096) :=
  if_pos h

/-- Settles O19: a spread address is placed by the hash, and XOR with the fold of the local block, taken twice, leads back to the block. -/
theorem spreadPlacesAreOneToOne : Obligations.SpreadPlacesAreOneToOne := by
  constructor
  · intro s a h
    simp only [State.target_of_spread h, spreadPlace, fold5_eq]
  · intro limit b h
    exact ⟨spreadPlace_stack_lt limit b, le_spreadPlace_block limit b, spreadPlace_block_lt h, blockAddr_spreadPlace limit b⟩

end Sys2Proof.Machine
end
